-- ==== Sys2Proof/Word.lean ====
section
/-!
DEFINITION. The word types of the part (R8): a byte, a 32-bit lane, a 64-bit uniform and a 64-lane
mask. GWIDTH is 64 on the JL4 (R12), so a mask is a 64-bit vector whose bit i governs lane i (R118).
-/

namespace Sys2Proof

/-- One byte of memory. -/
abbrev Byte := BitVec 8

/-- One lane of a vector register: 32 bits (R8). -/
abbrev Lane := BitVec 32

/-- A uniform, pilot or status register: 64 bits (R8). -/
abbrev U64 := BitVec 64

/-- One bit per lane; bit i governs lane i (R118). -/
abbrev LaneMask := BitVec 64

end Sys2Proof
end

