-- ==== Sys2Proof/Syntax.lean ====
section
/-!
DEFINITION. The syntax of the Jalaret JL4's step table (spec/opcode_table.json): one constructor
per row. The first 197 are the words of the Saide version 2 instruction set (R317-R362), with the
prefixes that stand before the word folded into the term (R326, R327); the other 110 are the
indivisible steps of the part's other agents, which have no encoding (95_what_each_step_holds.md).
An event row carries what its agent or the outside world brings: a register offset and a value, a
message, a measurement, or the number of the piece of work it belongs to.
-/

namespace Sys2Proof

/-- What a PK 0 prefix brings (R326). `pk0` says whether the prefix stands there at all, because the
length of the instruction depends on it (R370); the MOD bit is carried by the constructor (R348). -/
structure Pfx where
  pk0  : Bool
  mask : BitVec 4
  ty   : BitVec 3
  rm   : BitVec 2
  deriving DecidableEq, Repr

/-- No PK 0 prefix: mask m0, default type, RNE. -/
def Pfx.none : Pfx := { pk0 := false, mask := 0, ty := 0, rm := 0 }

/-- A 9-bit immediate, or the 32-bit one that a PK 1 prefix makes of it (R323). -/
inductive Imm where
  | short (i : BitVec 9)
  | long (h : BitVec 23) (i : BitVec 9)
  deriving DecidableEq, Repr

/-- A branch offset in halfwords: 17 bits, or 40 bits under a PK 1 prefix (R324). -/
inductive Off where
  | short (o : BitVec 17)
  | long (h : BitVec 23) (o : BitVec 17)
  deriving DecidableEq, Repr

/-- The operand fields of an M-format word (R320, R325); `disp` is a PK 1 prefix's displacement. -/
structure MemArg where
  d     : BitVec 8
  a     : BitVec 8
  base  : BitVec 5
  size  : BitVec 2
  scale : Bool
  sx    : Bool
  disp  : Option (BitVec 23)
  deriving DecidableEq, Repr

/-- Why a word is no instruction (R327, R361). -/
inductive BadWord where
  /-- a major, func or aux code that no table assigns, or a PK 2 or PK 3 prefix (R361) -/
  | unassigned
  /-- a reserved bit set, a MOD of 1 without a variant, an odd address register (R361) -/
  | reserved
  /-- a prefix that the word does not accept, or two prefixes of one kind (R327, R349) -/
  | badPrefix
  /-- a prefix directly before `rend`, or last in a run body (R327) -/
  | pfxBeforeRend
  deriving DecidableEq, Repr

/-- The task-ending statuses (R291): those that stop a grid. -/
inductive TaskEnd where
  | leaseMiss | peerLost | memUncorrectable | doubleFault | trapped | killed
  deriving DecidableEq, Repr

/-- What a bring-up finds (R33-R35): the failing measurement slot, if a verification fails, and the
SHA-384 digests measured into slots 0-3, 48 bytes each, and those of the images that firmware loads later, each with the
slot that it extends, counted from slot 4. -/
structure BringUp where
  fail    : Option (BitVec 3)
  digests : List (List (BitVec 8))
  later   : List (BitVec 2 × List (BitVec 8))
  deriving DecidableEq, Repr

/-- A message of a Ruond link after decryption (R22), with the fields of its frame's header that R23 checks it against (R19):
`cls`, `len`, `src` and `dst` are the frame's CLASS, LEN, SRC and DST; `data` holds the data bytes, and `bytes` is BYTES. -/
structure Msg where
  cls    : BitVec 4
  len    : BitVec 5
  code   : BitVec 8
  src    : BitVec 6
  dst    : BitVec 6
  addr   : BitVec 56
  ctx    : BitVec 6
  ropid  : BitVec 6
  part   : BitVec 2
  txn    : BitVec 32
  bytes  : BitVec 16
  status : BitVec 8
  data   : List (BitVec 8)
  deriving DecidableEq, Repr

/-- The rows of the step table. -/
inductive Instr where
  /-- ADD_16 (R347): The 16-bit form adds vb to vd. -/
  | add16 (p : Pfx) (vd : BitVec 6) (vb : BitVec 5)
  /-- ADD_IMM_16 (R347): The 16-bit form adds a signed imm5 to vd. -/
  | addImm16 (p : Pfx) (vd : BitVec 6) (vb : BitVec 5)
  /-- SUB_16 (R347): The 16-bit form subtracts vb from vd. -/
  | sub16 (p : Pfx) (vd : BitVec 6) (vb : BitVec 5)
  /-- MUL_16 (R347): The 16-bit form multiplies vd by vb. -/
  | mul16 (p : Pfx) (vd : BitVec 6) (vb : BitVec 5)
  /-- AND_16 (R347): The 16-bit form ANDs vb into vd. -/
  | and16 (p : Pfx) (vd : BitVec 6) (vb : BitVec 5)
  /-- OR_16 (R347): The 16-bit form ORs vb into vd. -/
  | or16 (p : Pfx) (vd : BitVec 6) (vb : BitVec 5)
  /-- XOR_16 (R347): The 16-bit form XORs vb into vd. -/
  | xor16 (p : Pfx) (vd : BitVec 6) (vb : BitVec 5)
  /-- SHL_16 (R347): The 16-bit form shifts vd left by imm5. -/
  | shl16 (p : Pfx) (vd : BitVec 6) (vb : BitVec 5)
  /-- SHR_16 (R347): The 16-bit form shifts vd right logically by imm5. -/
  | shr16 (p : Pfx) (vd : BitVec 6) (vb : BitVec 5)
  /-- SRA_16 (R347): The 16-bit form shifts vd right arithmetically by imm5. -/
  | sra16 (p : Pfx) (vd : BitVec 6) (vb : BitVec 5)
  /-- MIN_16 (R347): The 16-bit form takes the signed minimum of vd and vb. -/
  | min16 (p : Pfx) (vd : BitVec 6) (vb : BitVec 5)
  /-- MAX_16 (R347): The 16-bit form takes the signed maximum of vd and vb. -/
  | max16 (p : Pfx) (vd : BitVec 6) (vb : BitVec 5)
  /-- MINU_16 (R347): The 16-bit form takes the unsigned minimum of vd and vb. -/
  | minu16 (p : Pfx) (vd : BitVec 6) (vb : BitVec 5)
  /-- MAXU_16 (R347): The 16-bit form takes the unsigned maximum of vd and vb. -/
  | maxu16 (p : Pfx) (vd : BitVec 6) (vb : BitVec 5)
  /-- FADD_16 (R347): The 16-bit form adds vb to vd in FP32 under RNE. -/
  | fadd16 (p : Pfx) (vd : BitVec 6) (vb : BitVec 5)
  /-- FMUL_16 (R347): The 16-bit form multiplies vd by vb in FP32 under RNE. -/
  | fmul16 (p : Pfx) (vd : BitVec 6) (vb : BitVec 5)
  /-- ADD (R398): Each active lane gets a + b modulo 2^32. -/
  | add (p : Pfx) (d a b : BitVec 8) (u : Bool)
  /-- SUB (R398): Each active lane gets a − b modulo 2^32. -/
  | sub (p : Pfx) (d a b : BitVec 8) (u : Bool)
  /-- AND (R398): Each active lane gets the bitwise AND of a and b. -/
  | and (p : Pfx) (d a b : BitVec 8) (u : Bool)
  /-- OR (R398): Each active lane gets the bitwise OR of a and b. -/
  | or (p : Pfx) (d a b : BitVec 8) (u : Bool)
  /-- XOR (R398): Each active lane gets the bitwise XOR of a and b. -/
  | xor (p : Pfx) (d a b : BitVec 8) (u : Bool)
  /-- SHL (R398): Each active lane gets a shifted left by b mod 32. -/
  | shl (p : Pfx) (d a b : BitVec 8) (u : Bool)
  /-- SHR (R398): Each active lane gets a shifted right logically by b mod 32. -/
  | shr (p : Pfx) (d a b : BitVec 8) (u : Bool)
  /-- SRA (R398): Each active lane gets a shifted right arithmetically by b mod 32 (the MOD variant). -/
  | sra (p : Pfx) (d a b : BitVec 8) (u : Bool)
  /-- MUL (R398): Each active lane gets the low 32 bits of a × b. -/
  | mul (p : Pfx) (d a b : BitVec 8) (u : Bool)
  /-- MAD (R398): Each active lane gets a × b + d modulo 2^32. -/
  | mad (p : Pfx) (d a b : BitVec 8) (u : Bool)
  /-- MULH (R398): Each active lane gets the high 32 bits of the signed product. -/
  | mulh (p : Pfx) (d a b : BitVec 8) (u : Bool)
  /-- MULHU (R398): Each active lane gets the high 32 bits of the unsigned product. -/
  | mulhu (p : Pfx) (d a b : BitVec 8) (u : Bool)
  /-- MIN (R398): Each active lane gets the signed minimum of a and b. -/
  | min (p : Pfx) (d a b : BitVec 8) (u : Bool)
  /-- MINU (R398): Each active lane gets the unsigned minimum of a and b. -/
  | minu (p : Pfx) (d a b : BitVec 8) (u : Bool)
  /-- MAX (R398): Each active lane gets the signed maximum of a and b. -/
  | max (p : Pfx) (d a b : BitVec 8) (u : Bool)
  /-- MAXU (R398): Each active lane gets the unsigned maximum of a and b. -/
  | maxu (p : Pfx) (d a b : BitVec 8) (u : Bool)
  /-- BFX (R399): Each active lane extracts a bit field of a, optionally sign-extended, under a field specifier in b. -/
  | bfx (p : Pfx) (d a b : BitVec 8) (u : Bool)
  /-- BFI (R399): Each active lane inserts a bit field from a into d. -/
  | bfi (p : Pfx) (d a b : BitVec 8) (u : Bool)
  /-- CMP (R401): Each active lane writes a signed or unsigned comparison of a and b into a mask bit. -/
  | cmp (p : Pfx) (c m : BitVec 4) (a b : BitVec 8) (u : Bool)
  /-- FCMP (R403): Each active lane writes an ordered or unordered float comparison into a mask bit. -/
  | fcmp (p : Pfx) (c m : BitVec 4) (a b : BitVec 8) (u : Bool)
  /-- FADD (R402): Each active lane gets a + b rounded in the selected format and mode. -/
  | fadd (p : Pfx) (d a b : BitVec 8) (u : Bool)
  /-- FSUB (R402): Each active lane gets a − b rounded. -/
  | fsub (p : Pfx) (d a b : BitVec 8) (u : Bool)
  /-- FMUL (R402): Each active lane gets a × b rounded. -/
  | fmul (p : Pfx) (d a b : BitVec 8) (u : Bool)
  /-- FFMA (R402): Each active lane gets a × b + d rounded once. -/
  | ffma (p : Pfx) (d a b : BitVec 8) (u : Bool)
  /-- FMIN (R402): Each active lane gets the float minimum of a and b. -/
  | fmin (p : Pfx) (d a b : BitVec 8) (u : Bool)
  /-- FMAX (R402): Each active lane gets the float maximum of a and b. -/
  | fmax (p : Pfx) (d a b : BitVec 8) (u : Bool)
  /-- ADD_IMM (R398): Each active lane gets a plus a signed immediate, modulo 2^32. -/
  | addImm (p : Pfx) (d a : BitVec 8) (imm : Imm)
  /-- MUL_IMM (R398): Each active lane gets the low 32 bits of a times a signed immediate. -/
  | mulImm (p : Pfx) (d a : BitVec 8) (imm : Imm)
  /-- AND_IMM (R398): Each active lane gets a AND a signed immediate. -/
  | andImm (p : Pfx) (d a : BitVec 8) (imm : Imm)
  /-- OR_IMM (R398): Each active lane gets a OR a signed immediate. -/
  | orImm (p : Pfx) (d a : BitVec 8) (imm : Imm)
  /-- XOR_IMM (R398): Each active lane gets a XOR a signed immediate. -/
  | xorImm (p : Pfx) (d a : BitVec 8) (imm : Imm)
  /-- SHL_IMM (R398): Each active lane gets a shifted left by an unsigned immediate mod 32. -/
  | shlImm (p : Pfx) (d a : BitVec 8) (imm : Imm)
  /-- SHR_IMM (R398): Each active lane gets a shifted right logically by an unsigned immediate. -/
  | shrImm (p : Pfx) (d a : BitVec 8) (imm : Imm)
  /-- SRA_IMM (R398): Each active lane gets a shifted right arithmetically by an immediate (the MOD variant). -/
  | sraImm (p : Pfx) (d a : BitVec 8) (imm : Imm)
  /-- CMP_IMM (R401): Each active lane writes a comparison of a with an immediate into a mask bit. -/
  | cmpImm (p : Pfx) (c m : BitVec 4) (a : BitVec 8) (imm : Imm)
  /-- RCP (R407): The SFU returns the correctly rounded 1/a. -/
  | rcp (p : Pfx) (d a : BitVec 8)
  /-- RSQ (R407): The SFU returns the correctly rounded 1/√a. -/
  | rsq (p : Pfx) (d a : BitVec 8)
  /-- SQRT (R407): The SFU returns the correctly rounded √a. -/
  | sqrt (p : Pfx) (d a : BitVec 8)
  /-- EXP2 (R407): The SFU returns the correctly rounded 2^a. -/
  | exp2 (p : Pfx) (d a : BitVec 8)
  /-- LOG2 (R407): The SFU returns the correctly rounded log2 a. -/
  | log2 (p : Pfx) (d a : BitVec 8)
  /-- SIN (R407): The SFU returns the correctly rounded sin a. -/
  | sin (p : Pfx) (d a : BitVec 8)
  /-- COS (R407): The SFU returns the correctly rounded cos a. -/
  | cos (p : Pfx) (d a : BitVec 8)
  /-- TANH (R407): The SFU returns the correctly rounded tanh a. -/
  | tanh (p : Pfx) (d a : BitVec 8)
  /-- FABS (R404): Each active lane gets a with its sign bit cleared. -/
  | fabs (p : Pfx) (d a : BitVec 8)
  /-- FNEG (R404): Each active lane gets a with its sign bit inverted. -/
  | fneg (p : Pfx) (d a : BitVec 8)
  /-- FCLASS (R404): Each active lane gets a one-hot class mask of a. -/
  | fclass (p : Pfx) (d a : BitVec 8)
  /-- FRND (R404): Each active lane gets a rounded to an integral value under rm. -/
  | frnd (p : Pfx) (d a : BitVec 8)
  /-- FCVT (R405): Each active lane converts a under the conversion code in aux. -/
  | fcvt (p : Pfx) (d a : BitVec 8) (x : BitVec 4)
  /-- NOT (R400): Each active lane gets the complement of a. -/
  | not (p : Pfx) (d a : BitVec 8)
  /-- ABS (R400): Each active lane gets the saturated absolute value of a. -/
  | abs (p : Pfx) (d a : BitVec 8)
  /-- NEG (R400): Each active lane gets the saturated negation of a. -/
  | neg (p : Pfx) (d a : BitVec 8)
  /-- POP (R400): Each active lane gets the count of set bits of a. -/
  | pop (p : Pfx) (d a : BitVec 8)
  /-- CLZ (R400): Each active lane gets the count of leading zero bits of a. -/
  | clz (p : Pfx) (d a : BitVec 8)
  /-- SEL (R400): Each active lane takes a where its bit of mK is 1, and otherwise keeps d. -/
  | sel (p : Pfx) (d a : BitVec 8) (x : BitVec 4)
  /-- MAND (R410): The effective lanes of md get ma AND mK. -/
  | mand (p : Pfx) (d a k : BitVec 4)
  /-- MOR (R410): The effective lanes of md get ma OR mK. -/
  | mor (p : Pfx) (d a k : BitVec 4)
  /-- MXOR (R410): The effective lanes of md get ma XOR mK. -/
  | mxor (p : Pfx) (d a k : BitVec 4)
  /-- MNOT (R410): The effective lanes of md get NOT ma. -/
  | mnot (p : Pfx) (d a : BitVec 4)
  /-- MMOV (R410): The effective lanes of md get ma. -/
  | mmov (p : Pfx) (d a : BitVec 4)
  /-- MPOP (R410): Each active lane gets the population count of ma AND the effective mask. -/
  | mpop (p : Pfx) (d : BitVec 8) (a : BitVec 4)
  /-- MFIRST (R410): The effective lanes of md get only the lowest set bit of ma AND the effective mask. -/
  | mfirst (p : Pfx) (d a : BitVec 4)
  /-- MSET (R410): Each effective lane's bit of md is set when va is non-zero. -/
  | mset (p : Pfx) (d : BitVec 4) (a : BitVec 8)
  /-- SHF_UP (R412): Each active lane takes a from lane i − k. -/
  | shfUp (p : Pfx) (d a : BitVec 8) (x : BitVec 4)
  /-- SHF_DN (R412): Each active lane takes a from lane i + k. -/
  | shfDn (p : Pfx) (d a : BitVec 8) (x : BitVec 4)
  /-- SHF_XOR (R412): Each active lane takes a from lane i xor k. -/
  | shfXor (p : Pfx) (d a : BitVec 8) (x : BitVec 4)
  /-- SHF_ROT (R412): Each active lane takes a from lane (i + k) mod GWIDTH. -/
  | shfRot (p : Pfx) (d a : BitVec 8) (x : BitVec 4)
  /-- SHF_IDX (R413): Each active lane takes a from the lane that its old d names. -/
  | shfIdx (p : Pfx) (d a : BitVec 8)
  /-- SCT (R414): Each active lane sends a to the lane that its old d names, and the highest-numbered sender wins. -/
  | sct (p : Pfx) (d a : BitVec 8)
  /-- BCST (R413): Every active lane takes a from the lowest active lane. -/
  | bcst (p : Pfx) (d a : BitVec 8)
  /-- LRED (R415): Every active lane gets a fixed-tree reduction of the active lanes. -/
  | lred (p : Pfx) (d a : BitVec 8) (x : BitVec 4)
  /-- SCAN (R415): Each active lane gets the inclusive fixed-order prefix of the active lanes. -/
  | scan (p : Pfx) (d a : BitVec 8) (x : BitVec 4)
  /-- SCAN_EX (R415): Each active lane gets the exclusive fixed-order prefix of the active lanes. -/
  | scanEx (p : Pfx) (d a : BitVec 8) (x : BitVec 4)
  /-- TBL (R417): Each lane permutes bytes from a table of n registers, indexed by its old d, with a fill byte for indices out of range. -/
  | tbl (p : Pfx) (d a : BitVec 8) (n : BitVec 3) (fill : BitVec 4)
  /-- VOTE (R418): Every active lane gets the any, all or eq vote over the active lanes. -/
  | vote (p : Pfx) (d a : BitVec 8) (x : BitVec 4)
  /-- LID (R418): Each active lane gets its own lane number. -/
  | lid (p : Pfx) (d : BitVec 8)
  /-- LD (R421): Each active lane loads n bytes through L1, with merging fills. -/
  | ld (p : Pfx) (m : MemArg)
  /-- LDC (R420): Each active lane loads n bytes at the point of service, bypassing L1. -/
  | ldc (p : Pfx) (m : MemArg)
  /-- ST (R421): Each active lane stores n bytes into L1 and through to the point of service. -/
  | st (p : Pfx) (m : MemArg)
  /-- STC (R420): Each active lane stores at the point of service and invalidates the touched L1 words. -/
  | stc (p : Pfx) (m : MemArg)
  /-- LDS (R421): Each active lane loads from the scratchpad or the cluster window. -/
  | lds (p : Pfx) (m : MemArg)
  /-- PRF (R423): Each active lane prefetches a sector into L1, dropping lanes that would fault. -/
  | prf (p : Pfx) (m : MemArg)
  /-- STS (R421): Each active lane stores into the scratchpad or the cluster window. -/
  | sts (p : Pfx) (m : MemArg)
  /-- INV (R423): Each active lane clears the valid bits of its L1 line. -/
  | inv (p : Pfx) (m : MemArg)
  /-- SADD (R365): The uniform result is x + y modulo 2^64. -/
  | sadd (p : Pfx) (d a b : BitVec 8)
  /-- SSUB (R365): The uniform result is x − y modulo 2^64. -/
  | ssub (p : Pfx) (d a b : BitVec 8)
  /-- SMUL (R365): The uniform result is the low 64 bits of x × y. -/
  | smul (p : Pfx) (d a b : BitVec 8)
  /-- SMULH (R365): The uniform result is the high 64 bits of the signed product. -/
  | smulh (p : Pfx) (d a b : BitVec 8)
  /-- SAND (R365): The uniform result is x AND y. -/
  | sand (p : Pfx) (d a b : BitVec 8)
  /-- SOR (R365): The uniform result is x OR y. -/
  | sor (p : Pfx) (d a b : BitVec 8)
  /-- SXOR (R365): The uniform result is x XOR y. -/
  | sxor (p : Pfx) (d a b : BitVec 8)
  /-- SSHL (R365): The uniform result is x shifted left by y mod 64. -/
  | sshl (p : Pfx) (d a b : BitVec 8)
  /-- SLD (R367): A uniform load reads 8 bytes into s[d], or p[d] at the home in pilot code. -/
  | sld (p : Pfx) (d a : BitVec 8) (imm : Imm)
  /-- SST (R367): A uniform store writes s[d], or p[d] at the home in pilot code, to memory. -/
  | sst (p : Pfx) (d a : BitVec 8) (imm : Imm)
  /-- SLI (R366): s[d] is set to the widened immediate. -/
  | sli (p : Pfx) (d : BitVec 8) (imm : Imm)
  /-- SLUI (R366): The high 32 bits of s[d] are set to the immediate. -/
  | slui (p : Pfx) (d : BitVec 8) (imm : Imm)
  /-- SADD_IMM (R365): The uniform result is s[a] plus an immediate. -/
  | saddImm (p : Pfx) (d a : BitVec 8) (imm : Imm)
  /-- SAND_IMM (R365): The uniform result is s[a] AND an immediate. -/
  | sandImm (p : Pfx) (d a : BitVec 8) (imm : Imm)
  /-- SSHL_IMM (R365): The uniform result is s[a] shifted left by an immediate. -/
  | sshlImm (p : Pfx) (d a : BitVec 8) (imm : Imm)
  /-- SSHR_IMM (R365): The uniform result is s[a] shifted right logically by an immediate. -/
  | sshrImm (p : Pfx) (d a : BitVec 8) (imm : Imm)
  /-- SMOV (R365): s[d] takes s[a]. -/
  | smov (d a : BitVec 8)
  /-- SSHR (R365): s[d] is shifted right logically by s[a] mod 64. -/
  | sshr (d a : BitVec 8)
  /-- SSRA (R365): s[d] is shifted right arithmetically by s[a] mod 64. -/
  | ssra (d a : BitVec 8)
  /-- SMIN (R365): s[d] takes the signed minimum of s[d] and s[a]. -/
  | smin (d a : BitVec 8)
  /-- SMAX (R365): s[d] takes the signed maximum of s[d] and s[a]. -/
  | smax (d a : BitVec 8)
  /-- SMINU (R365): s[d] takes the unsigned minimum of s[d] and s[a]. -/
  | sminu (d a : BitVec 8)
  /-- SMAXU (R365): s[d] takes the unsigned maximum of s[d] and s[a]. -/
  | smaxu (d a : BitVec 8)
  /-- SCMP (R365): s[d] becomes 1 if s[d] cc s[a] holds, else 0. -/
  | scmp (d a : BitVec 8) (x : BitVec 4)
  /-- SSEL (R365): s[d] takes s[a] when s[k] is non-zero, and otherwise keeps its value. -/
  | ssel (d a : BitVec 8) (x : BitVec 4)
  /-- BR (R371): The fragment's PC moves to the target. -/
  | br (p : Pfx) (off : Off)
  /-- CALL (R371): The link register takes the fall-through address, and the PC moves to the target. -/
  | call (p : Pfx) (l : BitVec 8) (off : Off)
  /-- RCV (R373): The fragment's PEND takes the target address. -/
  | rcv (p : Pfx) (off : Off)
  /-- BL (R372): A lane-conditional branch on a mask register, which splits, moves or serialises the fragment under R123. -/
  | bl (p : Pfx) (m : BitVec 4) (sense : Bool) (off : Off)
  /-- BC (R371): The fragment branches when a uniform register is non-zero. -/
  | bc (p : Pfx) (c : BitVec 8) (off : Off)
  /-- NOP (R375): No effect. -/
  | nop
  /-- EXIT (R375): The fragment's lanes exit, after the counters drain when the whole group exits, or the pilot or the handler ends. -/
  | exit
  /-- YIELD (R376): WDCNT is cleared, a region entry falls, and the fragment parks if PREQ is set. -/
  | yield
  /-- RGN (R377): An explicit region entry sets the region PC and increments RGNC. -/
  | rgn
  /-- RUN (R379): Opens a static run, clearing w0–w7 and holding the port. -/
  | run
  /-- REND (R379): Closes a run, releasing the port and applying the trailer to the scoreboard. -/
  | rend (n : BitVec 4) (t0 t1 : BitVec 32)
  /-- TAKE (R380): Executes the oldest emitted run of a queue inline, parks on an empty queue, or sets TAKEST.DRAIN after the pilot has exited. -/
  | take (x : BitVec 4)
  /-- JMP (R371): The PC moves to s[A]. -/
  | jmp (a : BitVec 8)
  /-- RET (R371): The PC moves to s[A], marked as a return. -/
  | ret (a : BitVec 8)
  /-- BRK (R378): Traps BRK with the low 8 bits of its immediate as the detail. -/
  | brk (a : BitVec 8) (x : BitVec 4)
  /-- ACQ (R170): Requests a sync object at its home and parks the group until the object is granted. -/
  | acq (p : Pfx) (a : BitVec 8)
  /-- REL (R171): Waits for stores and remote ops, then releases the sync object at its home. -/
  | rel (p : Pfx) (a : BitVec 8)
  /-- FENCE (R176): Stalls until earlier loads, covered writes and Tideway operations are done, clearing L1 at cluster scope and above. -/
  | fence (x : BitVec 4)
  /-- BAR (R434): The fragment fences at team scope and parks at the team barrier. -/
  | bar
  /-- CBAR (R434): The fragment fences at cluster scope and parks at the cluster barrier. -/
  | cbar
  /-- TLW (R437): Parks the group until an engine context's timeline reaches s[A]. -/
  | tlw (a : BitVec 8) (x : BitVec 4)
  /-- TLR (R437): Reads an engine context's timeline into s[D]. -/
  | tlr (d : BitVec 8) (x : BitVec 4)
  /-- WAIT (R175): Stalls the group until each outstanding-operation counter is at or below its immediate. -/
  | wait (l st c t r : BitVec 4)
  /-- ROP (R428): Each active lane sends a remote op request with a register operand and no return. -/
  | rop (p : Pfx) (d a : BitVec 8) (id : BitVec 6) (ng : BitVec 3)
  /-- ROPR (R427): Each active lane sends a remote op request and receives its return into registers. -/
  | ropr (p : Pfx) (d a : BitVec 8) (id : BitVec 6) (ng : BitVec 3)
  /-- ROPW (R426): Each active lane sends a remote op request whose operand is read from the scratchpad. -/
  | ropw (p : Pfx) (d a : BitVec 8) (id : BitVec 6) (ng : BitVec 3)
  /-- RDEF (R429): Checks a definition record and installs it in the opcode table, returning status and generation once old copies are gone. -/
  | rdef (d a : BitVec 8)
  /-- RDEL (R430): Makes an opcode table entry undefined and increments its generation. -/
  | rdel (d : BitVec 8)
  /-- RSTAT (R430): Reads an opcode table entry's state. -/
  | rstat (d a : BitVec 8)
  /-- RSTAT_STAT (R430): Reads the context's remote statistics. -/
  | rstatStat (d : BitVec 8)
  /-- BOARD (R260): Queues a board that places a tagged payload into a free slot of the launch. -/
  | board (d a : BitVec 8)
  /-- ALIGHT (R260): Queues an alight that takes a tagged payload and empties its slot. -/
  | alight (d a : BitVec 8)
  /-- CATCH (R260): Queues a catch that reads a tagged payload without changing the slot. -/
  | catch (d a : BitVec 8)
  /-- RWR (R261): Queues a rewrite of a tagged slot's payload, without a return. -/
  | rwr (d a : BitVec 8) (x : BitVec 4)
  /-- RWR_R (R261): Queues a rewrite of a tagged slot's payload that returns the old value. -/
  | rwrR (d a : BitVec 8) (x : BitVec 4)
  /-- MSTONE (R448): Reads the station's TWREV copy into s[D]. -/
  | mstone (d : BitVec 8)
  /-- MLD (R455): Loads a B window into the front or shadow plane and takes ownership of it. -/
  | mld (p : Pfx) (front : Bool) (r : BitVec 4) (f : BitVec 3) (o : BitVec 5)
  /-- MSWP (R453): Toggles a pending swap of the front and shadow planes. -/
  | mswp (p : Pfx)
  /-- MMUL (R456): Performs one array step of A against the front plane into an accumulator tile. -/
  | mmul (p : Pfx) (t : BitVec 6) (z : Bool) (r : BitVec 4) (f : BitVec 3) (o : BitVec 5)
  /-- MZERO (R457): Sets an accumulator tile to 0. -/
  | mzero (p : Pfx) (t : BitVec 6)
  /-- MDRAIN (R459): Writes an accumulator tile to memory as raw, rounded, requantised or exact values, optionally clearing it. -/
  | mdrain (p : Pfx) (t : BitVec 6) (clr : Bool) (code : BitVec 3) (r : BitVec 4) (o : BitVec 5)
  /-- MRSUM (R458): Adds a scaled INT8 row sum to every element of a tile. -/
  | mrsum (p : Pfx) (t : BitVec 6) (r : BitVec 4) (f : BitVec 3) (o : BitVec 5)
  /-- MSAVE (R462): Writes a tile or a plane to memory. -/
  | msave (p : Pfx) (obj : BitVec 2) (t : BitVec 6) (a : BitVec 8)
  /-- MREST (R462): Restores a tile or a plane from memory, taking ownership of a valid plane. -/
  | mrest (p : Pfx) (obj : BitVec 2) (t : BitVec 6) (a : BitVec 8)
  /-- MSTAT (R463): Reads the matrix unit's status into s[D]. -/
  | mstat (p : Pfx) (d : BitVec 8)
  /-- SKD (R468): Inserts the active lanes' keys into a DCR in lane order. -/
  | skd (p : Pfx) (d a : BitVec 8) (w sp : Bool)
  /-- SKH (R468): Inserts the active lanes' keys, with their weights, into an HHL. -/
  | skh (p : Pfx) (d a : BitVec 8) (w sp : Bool)
  /-- SKQ (R468): Inserts the active lanes' FP32 values into a QSK. -/
  | skq (p : Pfx) (d a : BitVec 8) (sp : Bool)
  /-- SKM (R469): Merges a source summary into a target summary. -/
  | skm (p : Pfx) (d a : BitVec 8) (kind : BitVec 2) (sp : Bool)
  /-- SKQV (R471): Each active lane gets the quantile of a QSK at its own q. -/
  | skqv (p : Pfx) (d a : BitVec 8) (sp : Bool)
  /-- SKEST (R471): Writes the DCR distinct-count estimate to s[D]. -/
  | skest (p : Pfx) (d a : BitVec 8) (sp : Bool)
  /-- SKTOP (R471): Writes the HHL entries to the active lanes. -/
  | sktop (p : Pfx) (d a : BitVec 8) (sp : Bool)
  /-- SKSD (R470): Writes an empty summary, seeding a QSK's coin. -/
  | sksd (p : Pfx) (d a : BitVec 8) (kind : BitVec 2) (sp : Bool)
  /-- XADD (R473): Adds the active lanes' FP32 values exactly into X320 half-lines. -/
  | xadd (p : Pfx) (d a : BitVec 8) (w sp : Bool)
  /-- XRND (R473): Rounds X320 half-lines to FP32 into the active lanes. -/
  | xrnd (p : Pfx) (d a : BitVec 8) (w sp : Bool)
  /-- XCLR (R473): Zeroes X320 half-lines. -/
  | xclr (p : Pfx) (a : BitVec 8) (v sp : Bool)
  /-- XCP (R439): Starts an asynchronous copy between two tensor records. -/
  | xcp (p : Pfx) (d a : BitVec 4)
  /-- XCP_FILL (R439): Starts an asynchronous fill of a tensor record with a pattern. -/
  | xcpFill (p : Pfx) (d : BitVec 4) (a : BitVec 8)
  /-- BAT (R440): Closes the open batch and writes its number. -/
  | bat (p : Pfx) (d : BitVec 8)
  /-- WBAT (R440): Waits until every closed batch up to n has completed. -/
  | wbat (a : BitVec 8)
  /-- PUSH (R443): Forms a 64-byte command from registers and offers it to an engine context, returning its number or 0. -/
  | push (d a : BitVec 8) (x : BitVec 4)
  /-- DLD (R441): Loads a 64-byte tensor record into a d register. -/
  | dld (p : Pfx) (d : BitVec 4) (a : BitVec 8) (k : BitVec 4)
  /-- FMT (R442): Loads and checks a 32-byte format block into an f register. -/
  | fmt (p : Pfx) (d : BitVec 3) (a : BitVec 8) (k : BitVec 4)
  /-- EMIT (R383): Appends a word to the pilot's open run. -/
  | emit (a : BitVec 8)
  /-- EMITX (R384): Appends a base word with one field replaced. -/
  | emitx (d a : BitVec 8) (x : BitVec 4)
  /-- ECL (R385): Checks and closes the open run into an emit queue, stalling while it is full. -/
  | ecl (a : BitVec 8) (q : BitVec 2)
  /-- ECLN (R385): Closes the open run into a queue, or returns 0 when the queue is full. -/
  | ecln (d a : BitVec 8) (q : BitVec 2)
  /-- EQFREE (R386): Writes the number of free places of an emit queue. -/
  | eqfree (d : BitVec 8) (q : BitVec 2)
  /-- CSRR (R389): Reads a status register. -/
  | csrr (d a : BitVec 8) (x : BitVec 4)
  /-- CSRW (R390): Writes a status register under its access types. -/
  | csrw (d a : BitVec 8) (x : BitVec 4)
  /-- TRET (R393): Ends the handler, reloading and resuming the trapped group or pilot from its image. -/
  | tret
  /-- PRIO (R391): Sets the group's PRIO. -/
  | prio (x : BitVec 4)
  /-- HINT (R392): Changes issue timing by its code only. -/
  | hint (x : BitVec 4)
  /-- COLD_RESET (R32): Power-on clears all state, including measurements, THERMTRIP and EPOCHS, and runs bring-up. -/
  | coldReset (b : BringUp)
  /-- WARM_RESET (R32): PERST# or a PCIe hot reset clears all state except THERMTRIP and EPOCHS and repeats measured bring-up, leaving any thermal-trip hold in force. -/
  | warmReset (b : BringUp)
  /-- FUNCTION_LEVEL_RESET (R46): A function-level reset retires every context of the function, discarding any void seal. -/
  | functionLevelReset (fn : Nat)
  /-- THERMAL_TRIP_HOLD (R32): A junction reaching 105 °C sends power-down notices, removes power from everything but the endpoint, root of trust and controller, and sets THERMTRIP. -/
  | thermalTripHold
  /-- THERMTRIP (R32): Writing 1 to DEVSTATUS.THERMTRIP releases the thermal-trip hold and reruns bring-up, unless a junction is at or above 90 °C. -/
  | thermtrip (below90 : Bool) (b : BringUp)
  /-- CLOCK_LEVEL_STEP (R16): Every 10 µs the management controller may move the clk one level slower or faster, by the power average and junction temperatures. -/
  | clockLevelStep (avgW maxTemp : Nat) (windowCool windowHot : Bool)
  /-- POWER_WINDOW_END (R95): At the end of each 1 ms window every team's power estimate becomes its launch's measured mean power per placed team. -/
  | powerWindowEnd (means : List (Nat × Nat)) (hot : Bool)
  /-- BANDWIDTH_WINDOW (R97): A new 10 µs window releases the DRAM and Ruond requests held against BBW or the bandwidth ceiling. -/
  | bandwidthWindow
  /-- PCIE_CONFIG_REQUEST (R33): A PCIe configuration request is answered with Retry Status until READY, and answered normally afterwards and during the hold. -/
  | pcieConfigRequest
  /-- REGISTER_WRITE (R37): A host write to a BAR0 register with no behaviour of its own takes the written bits under its access type. -/
  | registerWrite (fn off : Nat) (val : BitVec 64)
  /-- BAR4_READ (R39): A BAR4 read reaches APERTURE_BASE plus the offset in the aperture context, walking the page once if the store lacks it, and returns poisoned data with EP set. -/
  | bar4Read (fn off n : Nat)
  /-- BAR4_WRITE (R39): A BAR4 write stores at APERTURE_BASE plus the offset in the aperture context, and a whole-word write clears that word's poison. -/
  | bar4Write (fn off : Nat) (data : List (BitVec 8))
  /-- QUEUE_REGISTER_WRITE (R48): A write to QBASE, LOGN or ENABLE changes them only while the queue is idle, and ENABLE becomes 1 only with a valid LOGN and QBASE. -/
  | queueRegisterWrite (fn q off : Nat) (val : BitVec 64)
  /-- DOORBELL (R49): A doorbell write offers a new QTAIL, which is accepted, or refused with QERR set and MSI-X vector 0 fired. -/
  | doorbell (fn q off : Nat) (v : BitVec 64)
  /-- CHPWR_WRITE (R161): A CHPWR write sets the power-down and self-refresh thresholds from the next clk, and clears CUURST bits written as 1. -/
  | chpwrWrite (val : BitVec 64)
  /-- LINK_ENABLE (R27): Writing LINK_STATUS.ENABLE allows a Ruond link to train, or takes it down. -/
  | linkEnable (n : Nat) (en : Bool)
  /-- CTX_CREATE (R44): The mailbox command allots a context id, reads the root descriptor, installs a fresh key and puts the exports in force. -/
  | ctxCreate (fn : Nat)
  /-- CTX_CREATE_RESUME (R47): A CTX_CREATE that named a retiring id continues once that retirement has freed the id. -/
  | ctxCreateResume (fn : Nat)
  /-- CTX_RETIRE (R46): The mailbox command kills the context's launches and teams, discards its update-unit work, lines, slots and seals, and destroys its key. -/
  | ctxRetire (fn : Nat)
  /-- QUEUE_BIND (R43): The mailbox command binds an idle queue to a context. -/
  | queueBind (fn : Nat)
  /-- VF_CONFIG (R43): The PF mailbox command sets a VF's maximum contexts and Tideway slots. -/
  | vfConfig (fn : Nat)
  /-- ATTEST (R65): The mailbox command writes a signed report of the measurement slots and the extension log, with the given nonce. -/
  | attest (fn : Nat)
  /-- CERT_READ (R43): The mailbox command writes the certificate chain of the device identity key to a host buffer. -/
  | certRead (fn : Nat)
  /-- PREEMPT (R114): The mailbox command sets PREQ in every group of the grid, stops placement and returns SAVED, NOTHING_TO_SAVE, NOT_FOUND or HELD. -/
  | preempt (fn : Nat)
  /-- RESUME (R115): The mailbox command makes a parked grid eligible again, placing its saved clusters first. -/
  | resume (fn : Nat)
  /-- RING_EVICT (R267): The mailbox command alights a parked launch's occupied Tideway slots into the save area and releases them. -/
  | ringEvict (fn : Nat)
  /-- DRAIN (R79): A translation request marks the context's translations in a range as draining everywhere, invalidates L1 words and sends DRAIN to named peers. -/
  | drain (tr : Nat)
  /-- CONFIRM (R80): A translation request waits for old-translation writes, merges partials, writes back the old frames and discards the draining translations. -/
  | confirm (tr : Nat)
  /-- MIGRATE (R81): A translation request drains and confirms one page, re-encrypts it into NEWFRAME and walks it again. -/
  | migrate (tr : Nat)
  /-- EXPORTS (R82): A translation request rereads the root descriptor and replaces the context's exports, making their pages resident. -/
  | exportsRequest (tr : Nat)
  /-- TRANSLATION_REQUEST_DONE (R78): A translation request whose waits have ended writes its STATUS last and sends its vector. -/
  | translationRequestDone (tr : Nat)
  /-- LINK_TRAINING (R24): Link training ends with a peer-id exchange, bringing the link up or leaving both ends down in state 3. -/
  | linkTraining (n : Nat) (farId : BitVec 6) (farAccepts : Bool)
  /-- LINK_FAILURE (R26): A link that leaves the up state sets DOWNEV and resends its unacknowledged frames on the link that R25 now selects. -/
  | linkFailure (n : Nat)
  /-- FRAME_DISCARD (R21): A frame with a failing tag, malformed header or unexpected FCNT is discarded and replay is requested, and eight discards in 1 ms take the link down. -/
  | frameDiscard (n : Nat)
  /-- REPLAY_REQUEST (R21): A replay request makes the sender resend from its replay buffer, starting at the named FCNT. -/
  | replayRequest (n fcnt : Nat)
  /-- REKEY (R20): Before FCNT reaches 2^32, both ends derive a new key, EPOCH increments and FCNT restarts at 0. -/
  | rekey (n : Nat)
  /-- HEARTBEAT_TIMER (R28): An idle link sends a heartbeat every 10 µs, within the class-4 limit. -/
  | heartbeatTimer (n : Nat)
  /-- READ_REQUEST (R86): An incoming read is matched against exports, translated in the matching context and answered. -/
  | readRequest (m : Msg)
  /-- WRITE_REQUEST (R86): An incoming write is matched against a writable export, performed and acknowledged, or answered LEASE_MISS. -/
  | writeRequest (m : Msg)
  /-- READ_RESPONSE (R28): A read response completes an outstanding peer read, and is discarded if its peer has been lost. -/
  | readResponse (m : Msg)
  /-- WRITE_ACKNOWLEDGEMENT (R509): A write acknowledgement completes a peer write, or answers a collective chunk as performed or refused. -/
  | writeAcknowledgement (m : Msg)
  /-- REMOTE_OP_NO_RETURN (R210): An incoming remote op is matched to an export and applied under its carried definition, with two-part id 15 messages applied once both parts have arrived. -/
  | remoteOpNoReturn (m : Msg)
  /-- REMOTE_OP_WITH_RETURN (R210): An incoming remote op with return is applied under its carried definition, and its value is sent back. -/
  | remoteOpWithReturn (m : Msg)
  /-- REMOTE_OP_RESPONSE (R208): A remote op response carries a peer op's status and value back to the issuing group. -/
  | remoteOpResponse (m : Msg)
  /-- COLLECTIVE_CHUNK (R288): A collective chunk is checked against its named RECV, and its bytes are written and answered, or it is refused with XFER_MISMATCH. -/
  | collectiveChunk (m : Msg)
  /-- COLLECTIVE_CREDIT (R288): A collective credit is held at the named engine context until the matching SEND consumes it. -/
  | collectiveCredit (m : Msg)
  /-- TRANSLATION_DRAIN (R87): A peer marks draining its peer translations that name the sender in the range, then acknowledges. -/
  | translationDrain (m : Msg)
  /-- TRANSLATION_CONFIRM (R87): A peer begins waiting until every write it sent to the sender in the range has been acknowledged. -/
  | translationConfirm (m : Msg)
  /-- PEER_CONFIRM_COMPLETE (R87): A peer whose CONFIRM wait has ended discards the marked translations and acknowledges. -/
  | peerConfirmComplete (pc : Nat)
  /-- TRANSLATION_ACKNOWLEDGEMENT (R87): A peer's acknowledgement counts toward an outstanding DRAIN or CONFIRM. -/
  | translationAcknowledgement (m : Msg)
  /-- RESET_NOTICE (R28): A reset notice from a peer declares that peer lost. -/
  | resetNotice (m : Msg)
  /-- POWER_DOWN_NOTICE (R28): A power-down notice from a peer declares that peer lost. -/
  | powerDownNotice (m : Msg)
  /-- HEARTBEAT (R28): A heartbeat shows that its peer is alive. -/
  | heartbeat (m : Msg)
  /-- PEER_LOSS_TIMEOUT (R28): A peer from which no frame has arrived for 100 µs is declared lost. -/
  | peerLossTimeout (peer : Nat)
  /-- LAUNCH_RECORD (R55): A fetched launch record is checked in order, and a failing record writes a completion record with its status. -/
  | launchRecord (fn q : Nat)
  /-- TAKE_LEASE (R75): The harbour die walks every lease page and fills the translation store, waiting while the store lacks room or a DRAIN covers a page. -/
  | takeLease (l : Nat)
  /-- SLOT_ASSIGNMENT (R258): A launch that leaves the wait of R56 is assigned the lowest free Tideway slots. -/
  | slotAssignment (l : Nat)
  /-- CLUSTER_PLACEMENT (R91): The scheduler places a whole cluster on the first fitting rectangle that the budget gates admit. -/
  | clusterPlacement (l : Nat)
  /-- OLDEST_CLUSTER_HOLD (R92): Once the oldest waiting cluster has waited 1 ms, no cluster of a younger launch is placed until it is placed. -/
  | oldestClusterHold
  /-- POOL_ZEROING (R149): A freed pool unit finishes zeroing at 256 bytes per clk and becomes allottable. -/
  | poolZeroing (core : Nat)
  /-- DISPATCH (R93): A placed team receives its pool share, and its groups and pilot start with their initial registers. -/
  | dispatch (team : Nat)
  /-- PARALLEL_PREEMPTION (R101): In parallel mode, a cluster that is refused for 1 ms makes the scheduler pre-empt the longest-placed cluster of its launch. -/
  | parallelPreemption (l : Nat)
  /-- COOPERATIVE_SAVE (R110): A group parked at yield with PREQ set writes a cooperative image once its counters are zero. -/
  | cooperativeSave (team g : Nat)
  /-- FORCED_SAVE (R310): At T0 + DEADLINE every targeted unsaved group is stopped and saved by withdrawal, at the instruction level, for replay, or as trapped. -/
  | forcedSave (team g : Nat)
  /-- GRID_COMPLETION (R59): A finished grid makes its writes visible, issues any seal, and writes its completion record before its MSI-X. -/
  | gridCompletion (l : Nat)
  /-- SEAL_RECORD (R63): The seal engine finishes reading the ranges, then signs and writes a valid record, or a void one. -/
  | sealRecord (sl : Nat)
  /-- WATCHDOG (R99): A group whose WDCNT reaches WDOG traps with WATCHDOG. -/
  | watchdog (team g : Nat)
  /-- WAITING_ENTRY_ACTIVATION (R124): A waiting split entry with no live child becomes active at its PC, with the union of its children's lanes. -/
  | waitingEntryActivation (team g e : Nat)
  /-- SERIAL_STEP (R125): A serial fragment that reaches SJOIN, or empties by exit, switches to its pending lanes, or pops its serial record. -/
  | serialStep (team g e : Nat)
  /-- HOME_ACCESS (R156): A request arrives at its home, which first merges held contributions to the line and then serves the request in arrival order. -/
  | homeAccess (op : Nat)
  /-- MERGING_FILL_RETURN (R152): A returning fill writes only L1 words that are still invalid and that no clear has touched, and delivers its data to the waiting load. -/
  | mergingFillReturn (op : Nat)
  /-- LOAD_COMPLETION (R174): A load completes when every lane's value is in its register, and the group wakes. -/
  | loadCompletion (op : Nat)
  /-- STORE_PERFORMED (R174): A store completes when its point of service has acknowledged every byte. -/
  | storePerformed (op : Nat)
  /-- TILE_OP_COMPLETION (R174): A tile operation completes when the matrix unit has written every result. -/
  | tileOpCompletion (core : Nat)
  /-- MIGRATING (R83): An access to a draining MIG = 1 page returns MIGRATING, and the group parks. -/
  | migrating (team g : Nat)
  /-- REPLAY (R295): A replayable event discards unwritten results and resumes the group at its region PC, or a run at its replay point. -/
  | replay (team g : Nat)
  /-- SOFT_ERROR (R291): A corrected soft error in the pool, the register file or L1 is a replayable event. -/
  | softError (team g : Nat)
  /-- MEM_UNCORRECTABLE (R291): An uncorrectable error, or a read of a poisoned word, raises the task-ending MEM_UNCORRECTABLE. -/
  | memUncorrectable (l : Nat)
  /-- TASK_END (R306): A task-ending cause writes a fault report, stops every team without a save and completes the grid with that status. -/
  | taskEnd (l : Nat) (why : TaskEnd)
  /-- REMOTE_OP_APPLY (R194): A remote op granule at its SUU or CUU is locked, read, run through its micro-ops and committed, or folded into a partial. -/
  | remoteOpApply (op k : Nat) (resid : Nat)
  /-- ROP_STATUS_RETURN (R208): A remote op status returns to its group, decrements its counter and raises ROP_FAULT or counts under the fault policy. -/
  | ropStatusReturn (op k : Nat)
  /-- COMBINING_AGE_OUT (R197): A combining entry, or a visitor partial, is merged into its home 4,096 clk after its creation. -/
  | combiningAgeOut (e : Nat)
  /-- LOCK_LAPSE (R162): A CUU lock held for 64 clk lapses, its operation is abandoned and requeued, and waiting accesses proceed. -/
  | lockLapse (pch : Nat)
  /-- CUU_WATCHDOG (R163): A CUU that goes 4,096 clk without progress is reset, its queued ops return CUU_RESET and CUURST increments. -/
  | cuuWatchdog (pch : Nat)
  /-- IDLE_TIMER (R159): A pseudo-channel's idle timer reaching PDT × 64 or SRT × 4,096 makes entry to POWER-DOWN or SELF-REFRESH pending. -/
  | idleTimer (pch : Nat)
  /-- CHANNEL_POWER_ENTRY (R159): A pending power-state entry takes effect once the channel's CUU is idle. -/
  | channelPowerEntry (pch : Nat)
  /-- CHANNEL_WAKE (R160): A channel woken by a request returns to ACTIVE after 32 or 1,200 clk and serves the request. -/
  | channelWake (pch : Nat)
  /-- SLOT_PASS (R259): A slot passing a station serves that station's queue in arrival order, with up to four writes. -/
  | slotPass (core : Nat)
  /-- JUNCTION_PASS (R258): A slot crossing a junction is assigned, released or cleared, or is alighted or boarded by an eviction or restore. -/
  | junctionPass (slot : Nat)
  /-- NOTAG (R262): A Tideway operation that finds no matching slot within 2,176 clk completes with NOTAG, or NOSLOT for a board. -/
  | notag (core tid : Nat)
  /-- COPY (R279): The copy engine starts a COPY command, checking its records and copying elements in order from START. -/
  | copy (eng : Nat)
  /-- FILL (R279): The copy engine starts a FILL command, writing the pattern into the destination record's elements. -/
  | fill (eng : Nat)
  /-- CHUNK_END (R280): A copy chunk ends at the last element or after 4,096 clk, and the engine writes the cursor once its writes are performed. -/
  | chunkEnd (eng : Nat)
  /-- GLOAD (R282): The collective engine checks a graph image and loads it into a slot, discarding held credits. -/
  | gload (eng : Nat)
  /-- GRUN (R285): The collective engine starts a graph run, resetting its counters and starting nodes whose dependency count is 0. -/
  | grun (eng : Nat)
  /-- NODE_COMPLETION (R285): A completed node increments its receive counter if it is a RECV, decrements its successors' counts and starts ready nodes. -/
  | nodeCompletion (eng node : Nat)
  /-- SEAL (R289): The seal engine accepts a SEAL command, issuing the seal of a descriptor with TAG 0. -/
  | seal (eng : Nat)
  /-- ACQUIRE_GRANT (R170): A granted acquire clears the core's L1 valid bits and resumes the group. -/
  | acquireGrant (op : Nat)
  /-- RELEASE_ACKNOWLEDGED (R171): The home's acknowledgement of a release lets the group continue. -/
  | releaseAcknowledged (op : Nat)
  /-- BARRIER_COMPLETION (R434): A bar or cbar completes when every group has arrived, and each parked fragment continues after its barrier. -/
  | barrierCompletion (team : Nat) (cluster : Bool)
  /-- TIMELINE_REACHED (R178): A tlw whose timeline has reached n clears the context's L1 valid bits and resumes the group. -/
  | timelineReached (team g e : Nat)
  /-- BATCH_COMPLETE (R177): A wbat resumes once every closed batch at or below n has completed. -/
  | batchComplete (team g e : Nat)
  /-- COUNTER_WAIT_END (R175): A wait, fence, rel, push or exit that is stalled on outstanding-operation counters resumes once they fall low enough. -/
  | counterWaitEnd (team g e : Nat)
  /-- TAKE_WAKE (R380): A take parked on an empty queue acts again when a run is closed into the queue or the pilot exits. -/
  | takeWake (team g e : Nat)
  /-- ECL_STALL_END (R385): An ecl stalled on a full queue closes its run once a place frees. -/
  | eclStallEnd (team : Nat)
  /-- UNASSIGNED_ENCODING (R361): A reached word with an unassigned major, func or aux code, or a PK 2 or PK 3 prefix, traps ILLEGAL_OP with detail 0x00. -/
  | unassignedEncoding (why : BadWord)
  /-- FORCED_SAVE_REPLAY (R310): A forced-stopped group whose counters have not all reached 0 within 4,096 clk is saved with KIND 2 at its region PC, discarding unreturned loads. -/
  | forcedSaveReplay (team g : Nat)
  /-- RDEF_COMPLETION (R429): An rdef or rdel completes and writes status and generation once no unit holds the old definition and old-generation partials have been merged. -/
  | rdefCompletion (op : Nat)
  /-- RETIREMENT_SWEEP_END (R164): The retirement sweep finishes after 49,152 L2 clocks in every slice, so retirement proceeds to its last steps, destroys the key, frees the id and CTX_RETIRE returns. -/
  | retirementSweepEnd (ctx : Nat)
  /-- RECORD_READ_RETURN (R441): The home read of a dld or fmt returns, writing d[D], or checking and writing f[D], and releasing the scoreboard or the stalled fragment. -/
  | recordReadReturn (op : Nat)
  deriving DecidableEq, Repr

end Sys2Proof
end

