-- ==== Sys2Proof/WellFormed.lean ====
section
/-!
DEFINITION. Well-formedness of an instruction as syntax (R321, R327, R349, R361, R419): which prefix
fields its word accepts, and which codes its fields may hold. What depends on the team (VREGS, ACC),
on the agent (pilot, handler) or on the run body is no matter of form: the meanings check it, in the
order of R362. A row of the step table without an encoding is well formed as it stands.
-/

namespace Sys2Proof

/-- The PK 0 fields a word accepts (R349): mask, type, rounding mode; `var` says that the word is the
MOD variant, which needs the prefix (R348). Without a prefix every field is 0. -/
def Pfx.ok (p : Pfx) (m t r var : Bool) : Bool :=
  (m || p.mask == 0) && (if t then p.ty.toNat ≤ 2 else p.ty == 0) && (r || p.rm == 0) &&
    (!var || p.pk0) && (p.pk0 || (p.mask == 0 && p.ty == 0 && p.rm == 0))

/-- Which prefix fields stand where they may (R327, R348, R349). -/
def Instr.pfxOk : Instr → Bool
  | .add16 p _ _ => p.ok true false false false
  | .addImm16 p _ _ => p.ok true false false false
  | .sub16 p _ _ => p.ok true false false false
  | .mul16 p _ _ => p.ok true false false false
  | .and16 p _ _ => p.ok true false false false
  | .or16 p _ _ => p.ok true false false false
  | .xor16 p _ _ => p.ok true false false false
  | .shl16 p _ _ => p.ok true false false false
  | .shr16 p _ _ => p.ok true false false false
  | .sra16 p _ _ => p.ok true false false false
  | .min16 p _ _ => p.ok true false false false
  | .max16 p _ _ => p.ok true false false false
  | .minu16 p _ _ => p.ok true false false false
  | .maxu16 p _ _ => p.ok true false false false
  | .fadd16 p _ _ => p.ok true false false false
  | .fmul16 p _ _ => p.ok true false false false
  | .add p _ _ _ _ => p.ok true false false false
  | .sub p _ _ _ _ => p.ok true false false false
  | .and p _ _ _ _ => p.ok true false false false
  | .or p _ _ _ _ => p.ok true false false false
  | .xor p _ _ _ _ => p.ok true false false false
  | .shl p _ _ _ _ => p.ok true false false false
  | .shr p _ _ _ _ => p.ok true false false false
  | .sra p _ _ _ _ => p.ok true false false true
  | .mul p _ _ _ _ => p.ok true false false false
  | .mad p _ _ _ _ => p.ok true false false true
  | .mulh p _ _ _ _ => p.ok true false false false
  | .mulhu p _ _ _ _ => p.ok true false false true
  | .min p _ _ _ _ => p.ok true false false false
  | .minu p _ _ _ _ => p.ok true false false true
  | .max p _ _ _ _ => p.ok true false false false
  | .maxu p _ _ _ _ => p.ok true false false true
  | .bfx p _ _ _ _ => p.ok true false false false
  | .bfi p _ _ _ _ => p.ok true false false true
  | .cmp p _ _ _ _ _ => p.ok true false false false
  | .fcmp p _ _ _ _ _ => p.ok true true false true
  | .fadd p _ _ _ _ => p.ok true true true false
  | .fsub p _ _ _ _ => p.ok true true true true
  | .fmul p _ _ _ _ => p.ok true true true false
  | .ffma p _ _ _ _ => p.ok true true true true
  | .fmin p _ _ _ _ => p.ok true true false false
  | .fmax p _ _ _ _ => p.ok true true false true
  | .addImm p _ _ _ => p.ok true false false false
  | .mulImm p _ _ _ => p.ok true false false false
  | .andImm p _ _ _ => p.ok true false false false
  | .orImm p _ _ _ => p.ok true false false false
  | .xorImm p _ _ _ => p.ok true false false false
  | .shlImm p _ _ _ => p.ok true false false false
  | .shrImm p _ _ _ => p.ok true false false false
  | .sraImm p _ _ _ => p.ok true false false true
  | .cmpImm p _ _ _ _ => p.ok true false false false
  | .rcp p _ _ => p.ok true true false false
  | .rsq p _ _ => p.ok true true false false
  | .sqrt p _ _ => p.ok true true false false
  | .exp2 p _ _ => p.ok true true false false
  | .log2 p _ _ => p.ok true true false false
  | .sin p _ _ => p.ok true true false false
  | .cos p _ _ => p.ok true true false false
  | .tanh p _ _ => p.ok true true false false
  | .fabs p _ _ => p.ok true true false false
  | .fneg p _ _ => p.ok true true false false
  | .fclass p _ _ => p.ok true true false false
  | .frnd p _ _ => p.ok true true true false
  | .fcvt p _ _ _ => p.ok true false true false
  | .not p _ _ => p.ok true false false false
  | .abs p _ _ => p.ok true false false false
  | .neg p _ _ => p.ok true false false false
  | .pop p _ _ => p.ok true false false false
  | .clz p _ _ => p.ok true false false false
  | .sel p _ _ _ => p.ok true false false false
  | .mand p _ _ _ => p.ok true false false false
  | .mor p _ _ _ => p.ok true false false false
  | .mxor p _ _ _ => p.ok true false false false
  | .mnot p _ _ => p.ok true false false false
  | .mmov p _ _ => p.ok true false false false
  | .mpop p _ _ => p.ok true false false false
  | .mfirst p _ _ => p.ok true false false false
  | .mset p _ _ => p.ok true false false false
  | .shfUp p _ _ _ => p.ok true false false false
  | .shfDn p _ _ _ => p.ok true false false false
  | .shfXor p _ _ _ => p.ok true false false false
  | .shfRot p _ _ _ => p.ok true false false false
  | .shfIdx p _ _ => p.ok true false false false
  | .sct p _ _ => p.ok true false false false
  | .bcst p _ _ => p.ok true false false false
  | .lred p _ _ _ => p.ok true true false false
  | .scan p _ _ _ => p.ok true true false false
  | .scanEx p _ _ _ => p.ok true true false false
  | .tbl p _ _ _ _ => p.ok true false false false
  | .vote p _ _ _ => p.ok true false false false
  | .lid p _ => p.ok true false false false
  | .ld p _ => p.ok true false false false
  | .ldc p _ => p.ok true false false true
  | .st p _ => p.ok true false false false
  | .stc p _ => p.ok true false false true
  | .lds p _ => p.ok true false false false
  | .prf p _ => p.ok true false false true
  | .sts p _ => p.ok true false false false
  | .inv p _ => p.ok true false false true
  | .sadd p _ _ _ => p.ok false false false false
  | .ssub p _ _ _ => p.ok false false false true
  | .smul p _ _ _ => p.ok false false false false
  | .smulh p _ _ _ => p.ok false false false true
  | .sand p _ _ _ => p.ok false false false false
  | .sor p _ _ _ => p.ok false false false true
  | .sxor p _ _ _ => p.ok false false false false
  | .sshl p _ _ _ => p.ok false false false true
  | .sld p _ _ _ => p.ok false false false false
  | .sst p _ _ _ => p.ok false false false true
  | .sli p _ _ => p.ok false false false false
  | .slui p _ _ => p.ok false false false true
  | .saddImm p _ _ _ => p.ok false false false false
  | .sandImm p _ _ _ => p.ok false false false true
  | .sshlImm p _ _ _ => p.ok false false false false
  | .sshrImm p _ _ _ => p.ok false false false true
  | .br p _ => p.ok false false false false
  | .call p _ _ => p.ok false false false false
  | .rcv p _ => p.ok false false false true
  | .bl p _ _ _ => p.ok false false false false
  | .bc p _ _ => p.ok false false false true
  | .acq p _ => p.ok true false false false
  | .rel p _ => p.ok true false false false
  | .rop p _ _ _ _ => p.ok true false false false
  | .ropr p _ _ _ _ => p.ok true false false false
  | .ropw p _ _ _ _ => p.ok true false false false
  | .mld p _ _ _ _ => p.ok true false false false
  | .mswp p => p.ok true false false false
  | .mmul p _ _ _ _ _ => p.ok true false false false
  | .mzero p _ => p.ok true false false false
  | .mdrain p _ _ _ _ _ => p.ok true false false false
  | .mrsum p _ _ _ _ => p.ok true false false false
  | .msave p _ _ _ => p.ok true false false false
  | .mrest p _ _ _ => p.ok true false false false
  | .mstat p _ => p.ok true false false false
  | .skd p _ _ _ _ => p.ok true false false false
  | .skh p _ _ _ _ => p.ok true false false false
  | .skq p _ _ _ => p.ok true false false false
  | .skm p _ _ _ _ => p.ok true false false false
  | .skqv p _ _ _ => p.ok true false false false
  | .skest p _ _ _ => p.ok true false false false
  | .sktop p _ _ _ => p.ok true false false false
  | .sksd p _ _ _ _ => p.ok true false false false
  | .xadd p _ _ _ _ => p.ok true false false false
  | .xrnd p _ _ _ _ => p.ok true false false false
  | .xclr p _ _ _ => p.ok true false false false
  | .xcp p _ _ => p.ok true false false false
  | .xcpFill p _ _ => p.ok true false false false
  | .bat p _ => p.ok true false false false
  | .dld p _ _ _ => p.ok true false false false
  | .fmt p _ _ _ => p.ok true false false false
  | _ => true

/-- Which codes and register ranges the fields may hold (R352-R354, R358, R361, R419, R424, R446, R449). -/
def Instr.codesOk : Instr → Bool
  | .cmp _ c _ _ _ _ => c.toNat ≤ 9
  | .fcmp _ c _ _ _ _ => c.toNat ≤ 7
  | .cmpImm _ c _ _ _ => c.toNat ≤ 9
  | .fcvt p _ _ x => x.toNat ≤ 13 && (p.rm == 0 || (2 ≤ x.toNat && x.toNat ≤ 9))
  | .lred p _ _ x => x.toNat ≤ 10 && (p.ty == 0 || 8 ≤ x.toNat)
  | .scan p _ _ x => x.toNat ≤ 10 && (p.ty == 0 || 8 ≤ x.toNat)
  | .scanEx p _ _ x => x.toNat ≤ 10 && (p.ty == 0 || 8 ≤ x.toNat)
  | .tbl _ _ a n _ => a.toNat + n.toNat ≤ 247 || (248 ≤ a.toNat && a.toNat + n.toNat ≤ 255)
  | .vote _ _ _ x => x.toNat ≤ 2
  | .ld _ m => m.size != 3 || m.d.toNat % 2 == 0
  | .ldc _ m => m.size != 3 || m.d.toNat % 2 == 0
  | .st _ m => m.size != 3 || m.d.toNat % 2 == 0
  | .stc _ m => m.size != 3 || m.d.toNat % 2 == 0
  | .lds _ m => m.size != 3 || m.d.toNat % 2 == 0
  | .prf _ m => m.d == 0
  | .sts _ m => m.size != 3 || m.d.toNat % 2 == 0
  | .inv _ m => m.d == 0
  | .scmp _ _ x => x.toNat ≤ 9
  | .call _ l _ => l != 0
  | .rend n t0 t1 => (n != 0 || t0 == 0) && (4 < n.toNat || t1 == 0) && (n.toNat ≤ 8 || (t0 == 0 && t1 == 0))
  | .take x => x.toNat ≤ 3
  | .fence x => x.toNat ≤ 4
  | .rop _ _ a _ _ => a.toNat % 2 == 0
  | .ropr _ _ a _ _ => a.toNat % 2 == 0
  | .ropw _ _ a _ _ => a.toNat % 2 == 0
  | .board d _ => d.toNat ≤ 248
  | .alight d _ => d.toNat ≤ 248
  | .catch d _ => d.toNat ≤ 248
  | .rwr d _ x => x.toNat ≤ 9 && (x.toNat != 7 || d.toNat ≤ 254) && (x.toNat != 8 || d.toNat ≤ 248)
  | .rwrR d _ x => x.toNat ≤ 9 && (x.toNat != 7 || d.toNat ≤ 254) && (x.toNat != 8 || d.toNat ≤ 248)
  | .mdrain _ _ _ code _ _ => code.toNat ≤ 5
  | .msave _ obj t _ => obj.toNat ≤ 2 && (obj == 0 || t == 0)
  | .mrest _ obj t _ => obj.toNat ≤ 2 && (obj == 0 || t == 0)
  | .skd _ d _ w _ => !w || (d != 247 && d != 255)
  | .skh _ d _ w _ => !w || (d != 247 && d != 255)
  | .skm _ _ _ kind _ => kind.toNat ≤ 2
  | .sktop _ d _ _ => d.toNat ≤ 245 || (248 ≤ d.toNat && d.toNat ≤ 253)
  | .sksd _ _ _ kind _ => kind.toNat ≤ 2
  | .push _ a _ => a.toNat ≤ 240
  | .emitx _ _ x => x.toNat ≤ 8
  | .hint x => x.toNat ≤ 2
  | _ => true

/-- An instruction that the encoding of the spec can hold. -/
def Instr.wf (i : Instr) : Bool := i.pfxOk && i.codesOk

end Sys2Proof
end

