-- ==== Sys2Proof/Decode.lean ====
section
/-!
DEFINITION. The decoder and, after it, the encoder of the Saide version 2 instruction stream (R317-R328,
R347-R361). The decoder is total on any bytes: it answers an instruction and its length in
halfwords, or says why the word is none, or that the bytes end too early. Prefix words are folded
into the instruction they stand before (R326, R327).
-/

namespace Sys2Proof

/-- What the decoder answers. -/
inductive Decoded where
  /-- an instruction and its length in halfwords, prefixes and trailer words included -/
  | ok (i : Instr) (len : Nat)
  /-- no instruction (R361), by name -/
  | bad (why : BadWord)
  /-- the bytes end before the instruction does -/
  | truncated
  deriving DecidableEq, Repr

/-- What the prefix words seen so far give (R326): a PK 0 prefix with its MOD bit, a PK 1 prefix. -/
structure Pk where
  pfx  : Pfx
  mod  : Bool
  immh : Option (BitVec 23)
  deriving DecidableEq, Repr

/-- No prefix seen. -/
def Pk.none : Pk := { pfx := Pfx.none, mod := false, immh := .none }

/-- Bits [14:7], the d or C field (R320). -/
def fD (w : BitVec 32) : BitVec 8 := w.extractLsb' 7 8
/-- Bits [22:15], the a field. -/
def fA (w : BitVec 32) : BitVec 8 := w.extractLsb' 15 8
/-- Bits [30:23], the b field of L3 and U3. -/
def fB (w : BitVec 32) : BitVec 8 := w.extractLsb' 23 8
/-- Bit 31, U of L3. -/
def fU (w : BitVec 32) : Bool := w.getLsbD 31
/-- Bits [27:23], func of LX and S. -/
def fF (w : BitVec 32) : BitVec 5 := w.extractLsb' 23 5
/-- Bits [31:28], aux of LX and S. -/
def fX (w : BitVec 32) : BitVec 4 := w.extractLsb' 28 4
/-- Bits [6:1], the major. -/
def fMajor (w : BitVec 32) : BitVec 6 := w.extractLsb' 1 6
/-- The low 4 bits of d: a mask or a tensor record (R322). -/
def dLo (w : BitVec 32) : BitVec 4 := w.extractLsb' 7 4
/-- The low 4 bits of a. -/
def aLo (w : BitVec 32) : BitVec 4 := w.extractLsb' 15 4

/-- The immediate of an LI or UI word, long under a PK 1 prefix (R323). -/
def Pk.imm9 (k : Pk) (w : BitVec 32) : Imm :=
  match k.immh with
  | .none => .short (w.extractLsb' 23 9)
  | .some h => .long h (w.extractLsb' 23 9)

/-- The offset of a B word (R324). -/
def Pk.off (k : Pk) (w : BitVec 32) : Off :=
  match k.immh with
  | .none => .short (w.extractLsb' 15 17)
  | .some h => .long h (w.extractLsb' 15 17)

/-- The operand fields of an M word (R320, R325). -/
def Pk.memArg (k : Pk) (w : BitVec 32) : MemArg :=
  { d := fD w, a := fA w, base := w.extractLsb' 23 5, size := w.extractLsb' 28 2,
    scale := w.getLsbD 30, sx := w.getLsbD 31, disp := k.immh }

/-- Accept `i` under the prefixes seen: `p0` and `p1` say whether the word takes a PK 0 and a PK 1
prefix, `var` which MOD it needs, `zero` that its reserved fields are 0 (R321, R327, R348). -/
def Pk.take (k : Pk) (p0 p1 var zero : Bool) (i : Instr) : Except BadWord Instr :=
  if (k.pfx.pk0 && !p0) || (k.immh.isSome && !p1) then .error .badPrefix
  else if k.mod != var || !zero then .error .reserved
  else if !i.pfxOk then .error .badPrefix
  else if !i.codesOk then .error .reserved
  else .ok i

/-- The word of major `fMajor w` (R351-R358), under the prefixes seen; `rend` apart, which needs its
trailer words. -/
def decode32 (k : Pk) (w : BitVec 32) : Except BadWord Instr :=
  match (fMajor w).toNat with
  | 0x00 => k.take true false false (true) (.add k.pfx (fD w) (fA w) (fB w) (fU w))
  | 0x01 => k.take true false false (true) (.sub k.pfx (fD w) (fA w) (fB w) (fU w))
  | 0x02 => k.take true false false (true) (.and k.pfx (fD w) (fA w) (fB w) (fU w))
  | 0x03 => k.take true false false (true) (.or k.pfx (fD w) (fA w) (fB w) (fU w))
  | 0x04 => k.take true false false (true) (.xor k.pfx (fD w) (fA w) (fB w) (fU w))
  | 0x05 => k.take true false false (true) (.shl k.pfx (fD w) (fA w) (fB w) (fU w))
  | 0x06 => if k.mod then k.take true false true (true) (.sra k.pfx (fD w) (fA w) (fB w) (fU w)) else k.take true false false (true) (.shr k.pfx (fD w) (fA w) (fB w) (fU w))
  | 0x07 => if k.mod then k.take true false true (true) (.mad k.pfx (fD w) (fA w) (fB w) (fU w)) else k.take true false false (true) (.mul k.pfx (fD w) (fA w) (fB w) (fU w))
  | 0x08 => if k.mod then k.take true false true (true) (.mulhu k.pfx (fD w) (fA w) (fB w) (fU w)) else k.take true false false (true) (.mulh k.pfx (fD w) (fA w) (fB w) (fU w))
  | 0x09 => if k.mod then k.take true false true (true) (.minu k.pfx (fD w) (fA w) (fB w) (fU w)) else k.take true false false (true) (.min k.pfx (fD w) (fA w) (fB w) (fU w))
  | 0x0A => if k.mod then k.take true false true (true) (.maxu k.pfx (fD w) (fA w) (fB w) (fU w)) else k.take true false false (true) (.max k.pfx (fD w) (fA w) (fB w) (fU w))
  | 0x0B => if k.mod then k.take true false true (true) (.bfi k.pfx (fD w) (fA w) (fB w) (fU w)) else k.take true false false (true) (.bfx k.pfx (fD w) (fA w) (fB w) (fU w))
  | 0x0C => if k.mod then k.take true false true (true) (.fcmp k.pfx (w.extractLsb' 11 4) (w.extractLsb' 7 4) (fA w) (fB w) (fU w)) else k.take true false false (true) (.cmp k.pfx (w.extractLsb' 11 4) (w.extractLsb' 7 4) (fA w) (fB w) (fU w))
  | 0x0D => if k.mod then k.take true false true (true) (.fsub k.pfx (fD w) (fA w) (fB w) (fU w)) else k.take true false false (true) (.fadd k.pfx (fD w) (fA w) (fB w) (fU w))
  | 0x0E => if k.mod then k.take true false true (true) (.ffma k.pfx (fD w) (fA w) (fB w) (fU w)) else k.take true false false (true) (.fmul k.pfx (fD w) (fA w) (fB w) (fU w))
  | 0x0F => if k.mod then k.take true false true (true) (.fmax k.pfx (fD w) (fA w) (fB w) (fU w)) else k.take true false false (true) (.fmin k.pfx (fD w) (fA w) (fB w) (fU w))
  | 0x10 => k.take true true false (true) (.addImm k.pfx (fD w) (fA w) (k.imm9 w))
  | 0x11 => k.take true true false (true) (.mulImm k.pfx (fD w) (fA w) (k.imm9 w))
  | 0x12 => k.take true true false (true) (.andImm k.pfx (fD w) (fA w) (k.imm9 w))
  | 0x13 => k.take true true false (true) (.orImm k.pfx (fD w) (fA w) (k.imm9 w))
  | 0x14 => k.take true true false (true) (.xorImm k.pfx (fD w) (fA w) (k.imm9 w))
  | 0x15 => k.take true true false (true) (.shlImm k.pfx (fD w) (fA w) (k.imm9 w))
  | 0x16 => if k.mod then k.take true true true (true) (.sraImm k.pfx (fD w) (fA w) (k.imm9 w)) else k.take true true false (true) (.shrImm k.pfx (fD w) (fA w) (k.imm9 w))
  | 0x17 => k.take true true false (true) (.cmpImm k.pfx (w.extractLsb' 11 4) (w.extractLsb' 7 4) (fA w) (k.imm9 w))
  | 0x18 =>
    match (fF w).toNat with
    | 0 => k.take true false false (fX w == 0) (.rcp k.pfx (fD w) (fA w))
    | 1 => k.take true false false (fX w == 0) (.rsq k.pfx (fD w) (fA w))
    | 2 => k.take true false false (fX w == 0) (.sqrt k.pfx (fD w) (fA w))
    | 3 => k.take true false false (fX w == 0) (.exp2 k.pfx (fD w) (fA w))
    | 4 => k.take true false false (fX w == 0) (.log2 k.pfx (fD w) (fA w))
    | 5 => k.take true false false (fX w == 0) (.sin k.pfx (fD w) (fA w))
    | 6 => k.take true false false (fX w == 0) (.cos k.pfx (fD w) (fA w))
    | 7 => k.take true false false (fX w == 0) (.tanh k.pfx (fD w) (fA w))
    | 8 => k.take true false false (fX w == 0) (.fabs k.pfx (fD w) (fA w))
    | 9 => k.take true false false (fX w == 0) (.fneg k.pfx (fD w) (fA w))
    | 10 => k.take true false false (fX w == 0) (.fclass k.pfx (fD w) (fA w))
    | 11 => k.take true false false (fX w == 0) (.frnd k.pfx (fD w) (fA w))
    | 12 => k.take true false false (true) (.fcvt k.pfx (fD w) (fA w) (fX w))
    | _ => .error .unassigned
  | 0x19 =>
    match (fF w).toNat with
    | 0 => k.take true false false (fX w == 0) (.not k.pfx (fD w) (fA w))
    | 1 => k.take true false false (fX w == 0) (.abs k.pfx (fD w) (fA w))
    | 2 => k.take true false false (fX w == 0) (.neg k.pfx (fD w) (fA w))
    | 3 => k.take true false false (fX w == 0) (.pop k.pfx (fD w) (fA w))
    | 4 => k.take true false false (fX w == 0) (.clz k.pfx (fD w) (fA w))
    | 5 => k.take true false false (true) (.sel k.pfx (fD w) (fA w) (fX w))
    | _ => .error .unassigned
  | 0x1A =>
    match (fF w).toNat with
    | 0 => k.take true false false (w.extractLsb' 11 4 == 0 && w.extractLsb' 19 4 == 0) (.mand k.pfx (dLo w) (aLo w) (fX w))
    | 1 => k.take true false false (w.extractLsb' 11 4 == 0 && w.extractLsb' 19 4 == 0) (.mor k.pfx (dLo w) (aLo w) (fX w))
    | 2 => k.take true false false (w.extractLsb' 11 4 == 0 && w.extractLsb' 19 4 == 0) (.mxor k.pfx (dLo w) (aLo w) (fX w))
    | 3 => k.take true false false (w.extractLsb' 11 4 == 0 && w.extractLsb' 19 4 == 0 && fX w == 0) (.mnot k.pfx (dLo w) (aLo w))
    | 4 => k.take true false false (w.extractLsb' 11 4 == 0 && w.extractLsb' 19 4 == 0 && fX w == 0) (.mmov k.pfx (dLo w) (aLo w))
    | 5 => k.take true false false (w.extractLsb' 19 4 == 0 && fX w == 0) (.mpop k.pfx (fD w) (aLo w))
    | 6 => k.take true false false (w.extractLsb' 11 4 == 0 && w.extractLsb' 19 4 == 0 && fX w == 0) (.mfirst k.pfx (dLo w) (aLo w))
    | 7 => k.take true false false (w.extractLsb' 11 4 == 0 && fX w == 0) (.mset k.pfx (dLo w) (fA w))
    | _ => .error .unassigned
  | 0x1B =>
    match (fF w).toNat with
    | 0 => k.take true false false (true) (.shfUp k.pfx (fD w) (fA w) (fX w))
    | 1 => k.take true false false (true) (.shfDn k.pfx (fD w) (fA w) (fX w))
    | 2 => k.take true false false (true) (.shfXor k.pfx (fD w) (fA w) (fX w))
    | 3 => k.take true false false (true) (.shfRot k.pfx (fD w) (fA w) (fX w))
    | 4 => k.take true false false (fX w == 0) (.shfIdx k.pfx (fD w) (fA w))
    | 5 => k.take true false false (fX w == 0) (.sct k.pfx (fD w) (fA w))
    | 6 => k.take true false false (fX w == 0) (.bcst k.pfx (fD w) (fA w))
    | 7 => k.take true false false (true) (.lred k.pfx (fD w) (fA w) (fX w))
    | 8 => k.take true false false (true) (.scan k.pfx (fD w) (fA w) (fX w))
    | 9 => k.take true false false (true) (.scanEx k.pfx (fD w) (fA w) (fX w))
    | 10 => k.take true false false (true) (.tbl k.pfx (fD w) (fA w) ((fF w - 10).setWidth 3) (fX w))
    | 11 => k.take true false false (true) (.tbl k.pfx (fD w) (fA w) ((fF w - 10).setWidth 3) (fX w))
    | 12 => k.take true false false (true) (.tbl k.pfx (fD w) (fA w) ((fF w - 10).setWidth 3) (fX w))
    | 13 => k.take true false false (true) (.tbl k.pfx (fD w) (fA w) ((fF w - 10).setWidth 3) (fX w))
    | 14 => k.take true false false (true) (.tbl k.pfx (fD w) (fA w) ((fF w - 10).setWidth 3) (fX w))
    | 15 => k.take true false false (true) (.tbl k.pfx (fD w) (fA w) ((fF w - 10).setWidth 3) (fX w))
    | 16 => k.take true false false (true) (.tbl k.pfx (fD w) (fA w) ((fF w - 10).setWidth 3) (fX w))
    | 17 => k.take true false false (true) (.tbl k.pfx (fD w) (fA w) ((fF w - 10).setWidth 3) (fX w))
    | 18 => k.take true false false (true) (.vote k.pfx (fD w) (fA w) (fX w))
    | 19 => k.take true false false (fA w == 0 && fX w == 0) (.lid k.pfx (fD w))
    | _ => .error .unassigned
  | 0x1C => if k.mod then k.take true true true (true) (.ldc k.pfx (k.memArg w)) else k.take true true false (true) (.ld k.pfx (k.memArg w))
  | 0x1D => if k.mod then k.take true true true (true) (.stc k.pfx (k.memArg w)) else k.take true true false (true) (.st k.pfx (k.memArg w))
  | 0x1E => if k.mod then k.take true true true (true) (.prf k.pfx (k.memArg w)) else k.take true true false (true) (.lds k.pfx (k.memArg w))
  | 0x1F => if k.mod then k.take true true true (true) (.inv k.pfx (k.memArg w)) else k.take true true false (true) (.sts k.pfx (k.memArg w))
  | 0x20 => if k.mod then k.take true false true (!fU w) (.ssub k.pfx (fD w) (fA w) (fB w)) else k.take true false false (!fU w) (.sadd k.pfx (fD w) (fA w) (fB w))
  | 0x21 => if k.mod then k.take true false true (!fU w) (.smulh k.pfx (fD w) (fA w) (fB w)) else k.take true false false (!fU w) (.smul k.pfx (fD w) (fA w) (fB w))
  | 0x22 => if k.mod then k.take true false true (!fU w) (.sor k.pfx (fD w) (fA w) (fB w)) else k.take true false false (!fU w) (.sand k.pfx (fD w) (fA w) (fB w))
  | 0x23 => if k.mod then k.take true false true (!fU w) (.sshl k.pfx (fD w) (fA w) (fB w)) else k.take true false false (!fU w) (.sxor k.pfx (fD w) (fA w) (fB w))
  | 0x24 => if k.mod then k.take true true true (true) (.sst k.pfx (fD w) (fA w) (k.imm9 w)) else k.take true true false (true) (.sld k.pfx (fD w) (fA w) (k.imm9 w))
  | 0x25 => if k.mod then k.take true true true (fA w == 0) (.slui k.pfx (fD w) (k.imm9 w)) else k.take true true false (fA w == 0) (.sli k.pfx (fD w) (k.imm9 w))
  | 0x26 => if k.mod then k.take true true true (true) (.sandImm k.pfx (fD w) (fA w) (k.imm9 w)) else k.take true true false (true) (.saddImm k.pfx (fD w) (fA w) (k.imm9 w))
  | 0x27 => if k.mod then k.take true true true (true) (.sshrImm k.pfx (fD w) (fA w) (k.imm9 w)) else k.take true true false (true) (.sshlImm k.pfx (fD w) (fA w) (k.imm9 w))
  | 0x28 => if k.mod then k.take true true true (fD w == 0) (.rcv k.pfx (k.off w)) else if fD w == 0 then k.take true true false (fD w == 0) (.br k.pfx (k.off w)) else k.take true true false (true) (.call k.pfx (fD w) (k.off w))
  | 0x29 => if k.mod then k.take true true true (true) (.bc k.pfx (fD w) (k.off w)) else k.take true true false (w.extractLsb' 12 3 == 0) (.bl k.pfx (dLo w) (w.getLsbD 11) (k.off w))
  | 0x2A =>
    match (fF w).toNat with
    | 0 => k.take false false false (fD w == 0 && fA w == 0 && fX w == 0) (.nop)
    | 1 => k.take false false false (fD w == 0 && fA w == 0 && fX w == 0) (.exit)
    | 2 => k.take false false false (fD w == 0 && fA w == 0 && fX w == 0) (.yield)
    | 3 => k.take false false false (fD w == 0 && fA w == 0 && fX w == 0) (.rgn)
    | 4 => k.take false false false (fD w == 0 && fA w == 0 && fX w == 0) (.run)
    | 6 => k.take false false false (fD w == 0 && fA w == 0) (.take (fX w))
    | 7 => k.take false false false (fD w == 0 && fX w == 0) (.jmp (fA w))
    | 8 => k.take false false false (fD w == 0 && fX w == 0) (.ret (fA w))
    | 9 => k.take false false false (fD w == 0) (.brk (fA w) (fX w))
    | _ => .error .unassigned
  | 0x2B =>
    match (fF w).toNat with
    | 0 => k.take false false false (fX w == 0) (.smov (fD w) (fA w))
    | 1 => k.take false false false (fX w == 0) (.sshr (fD w) (fA w))
    | 2 => k.take false false false (fX w == 0) (.ssra (fD w) (fA w))
    | 3 => k.take false false false (fX w == 0) (.smin (fD w) (fA w))
    | 4 => k.take false false false (fX w == 0) (.smax (fD w) (fA w))
    | 5 => k.take false false false (fX w == 0) (.sminu (fD w) (fA w))
    | 6 => k.take false false false (fX w == 0) (.smaxu (fD w) (fA w))
    | 7 => k.take false false false (true) (.scmp (fD w) (fA w) (fX w))
    | 8 => k.take false false false (true) (.ssel (fD w) (fA w) (fX w))
    | _ => .error .unassigned
  | 0x2C =>
    match (fF w).toNat with
    | 0 => k.take true false false (fD w == 0 && fX w == 0) (.acq k.pfx (fA w))
    | 1 => k.take true false false (fD w == 0 && fX w == 0) (.rel k.pfx (fA w))
    | 2 => k.take false false false (fD w == 0 && fA w == 0) (.fence (fX w))
    | 3 => k.take false false false (fD w == 0 && fA w == 0 && fX w == 0) (.bar)
    | 4 => k.take false false false (fD w == 0 && fA w == 0 && fX w == 0) (.cbar)
    | 5 => k.take false false false (fD w == 0) (.tlw (fA w) (fX w))
    | 6 => k.take false false false (fA w == 0) (.tlr (fD w) (fX w))
    | _ => .error .unassigned
  | 0x2D =>
    match (fF w).toNat with
    | 0 => k.take false false false (fF w == 0) (.wait (w.extractLsb' 7 4) (w.extractLsb' 11 4) (w.extractLsb' 15 4) (w.extractLsb' 19 4) (fX w))
    | _ => .error .unassigned
  | 0x30 => k.take true false false (true) (.rop k.pfx (fD w) (fA w) (w.extractLsb' 28 1 ++ fF w) (w.extractLsb' 29 3))
  | 0x31 => k.take true false false (true) (.ropr k.pfx (fD w) (fA w) (w.extractLsb' 28 1 ++ fF w) (w.extractLsb' 29 3))
  | 0x32 => k.take true false false (true) (.ropw k.pfx (fD w) (fA w) (w.extractLsb' 28 1 ++ fF w) (w.extractLsb' 29 3))
  | 0x33 =>
    match (fF w).toNat with
    | 0 => k.take false false false (fX w == 0) (.rdef (fD w) (fA w))
    | 1 => k.take false false false (fA w == 0 && fX w == 0) (.rdel (fD w))
    | 2 => if w.getLsbD 28 then k.take false false false (fA w == 0 && fX w == 1) (.rstatStat (fD w)) else k.take false false false (fX w == 0) (.rstat (fD w) (fA w))
    | 3 => k.take false false false (fX w == 0) (.board (fD w) (fA w))
    | 4 => k.take false false false (fX w == 0) (.alight (fD w) (fA w))
    | 5 => k.take false false false (fX w == 0) (.catch (fD w) (fA w))
    | 6 => k.take false false false (true) (.rwr (fD w) (fA w) (fX w))
    | 7 => k.take false false false (true) (.rwrR (fD w) (fA w) (fX w))
    | 8 => k.take false false false (fA w == 0 && fX w == 0) (.mstone (fD w))
    | _ => .error .unassigned
  | 0x34 =>
    match (fF w).toNat with
    | 0 => k.take true false false (w.extractLsb' 8 7 == 0) (.mld k.pfx (w.getLsbD 7) (fX w) (w.extractLsb' 20 3) (w.extractLsb' 15 5))
    | 1 => k.take true false false (fD w == 0 && fA w == 0 && fX w == 0) (.mswp k.pfx)
    | 2 => k.take true false false (!w.getLsbD 14) (.mmul k.pfx (w.extractLsb' 7 6) (w.getLsbD 13) (fX w) (w.extractLsb' 20 3) (w.extractLsb' 15 5))
    | 3 => k.take true false false (w.extractLsb' 13 2 == 0 && fA w == 0 && fX w == 0) (.mzero k.pfx (w.extractLsb' 7 6))
    | 4 => k.take true false false (!w.getLsbD 14) (.mdrain k.pfx (w.extractLsb' 7 6) (w.getLsbD 13) (w.extractLsb' 20 3) (fX w) (w.extractLsb' 15 5))
    | 5 => k.take true false false (w.extractLsb' 13 2 == 0) (.mrsum k.pfx (w.extractLsb' 7 6) (fX w) (w.extractLsb' 20 3) (w.extractLsb' 15 5))
    | 6 => k.take true false false (fX w == 0) (.msave k.pfx (w.extractLsb' 13 2) (w.extractLsb' 7 6) (fA w))
    | 7 => k.take true false false (fX w == 0) (.mrest k.pfx (w.extractLsb' 13 2) (w.extractLsb' 7 6) (fA w))
    | 8 => k.take true false false (fA w == 0 && fX w == 0) (.mstat k.pfx (fD w))
    | _ => .error .unassigned
  | 0x38 =>
    match (fF w).toNat with
    | 0 => k.take true false false (w.extractLsb' 29 2 == 0) (.skd k.pfx (fD w) (fA w) (w.getLsbD 28) (w.getLsbD 31))
    | 1 => k.take true false false (w.extractLsb' 29 2 == 0) (.skh k.pfx (fD w) (fA w) (w.getLsbD 28) (w.getLsbD 31))
    | 2 => k.take true false false (w.extractLsb' 28 3 == 0) (.skq k.pfx (fD w) (fA w) (w.getLsbD 31))
    | 3 => k.take true false false (!w.getLsbD 30) (.skm k.pfx (fD w) (fA w) (w.extractLsb' 28 2) (w.getLsbD 31))
    | 4 => k.take true false false (w.extractLsb' 28 3 == 0) (.skqv k.pfx (fD w) (fA w) (w.getLsbD 31))
    | 5 => k.take true false false (w.extractLsb' 28 3 == 0) (.skest k.pfx (fD w) (fA w) (w.getLsbD 31))
    | 6 => k.take true false false (w.extractLsb' 28 3 == 0) (.sktop k.pfx (fD w) (fA w) (w.getLsbD 31))
    | 7 => k.take true false false (!w.getLsbD 30) (.sksd k.pfx (fD w) (fA w) (w.extractLsb' 28 2) (w.getLsbD 31))
    | _ => .error .unassigned
  | 0x39 =>
    match (fF w).toNat with
    | 0 => k.take true false false (w.extractLsb' 29 2 == 0) (.xadd k.pfx (fD w) (fA w) (w.getLsbD 28) (w.getLsbD 31))
    | 1 => k.take true false false (w.extractLsb' 29 2 == 0) (.xrnd k.pfx (fD w) (fA w) (w.getLsbD 28) (w.getLsbD 31))
    | 2 => k.take true false false (fD w == 0 && w.extractLsb' 29 2 == 0) (.xclr k.pfx (fA w) (w.getLsbD 28) (w.getLsbD 31))
    | _ => .error .unassigned
  | 0x3B =>
    match (fF w).toNat with
    | 0 => if w.getLsbD 28 then k.take true false false (w.extractLsb' 11 4 == 0 && fX w == 1) (.xcpFill k.pfx (dLo w) (fA w)) else k.take true false false (w.extractLsb' 11 4 == 0 && w.extractLsb' 19 4 == 0 && fX w == 0) (.xcp k.pfx (dLo w) (aLo w))
    | 1 => k.take true false false (fA w == 0 && fX w == 0) (.bat k.pfx (fD w))
    | 2 => k.take false false false (fD w == 0 && fX w == 0) (.wbat (fA w))
    | 3 => k.take false false false (true) (.push (fD w) (fA w) (fX w))
    | 4 => k.take true false false (w.extractLsb' 11 4 == 0) (.dld k.pfx (dLo w) (fA w) (fX w))
    | 5 => k.take true false false (w.extractLsb' 10 5 == 0) (.fmt k.pfx (w.extractLsb' 7 3) (fA w) (fX w))
    | _ => .error .unassigned
  | 0x3C =>
    match (fF w).toNat with
    | 0 => k.take false false false (fD w == 0 && fX w == 0) (.emit (fA w))
    | 1 => k.take false false false (true) (.emitx (fD w) (fA w) (fX w))
    | 2 => k.take false false false (fD w == 0 && w.extractLsb' 30 2 == 0) (.ecl (fA w) (w.extractLsb' 28 2))
    | 3 => k.take false false false (w.extractLsb' 30 2 == 0) (.ecln (fD w) (fA w) (w.extractLsb' 28 2))
    | 4 => k.take false false false (fA w == 0 && w.extractLsb' 30 2 == 0) (.eqfree (fD w) (w.extractLsb' 28 2))
    | _ => .error .unassigned
  | 0x3D =>
    match (fF w).toNat with
    | 0 => k.take false false false (true) (.csrr (fD w) (fA w) (fX w))
    | 1 => k.take false false false (true) (.csrw (fD w) (fA w) (fX w))
    | 2 => k.take false false false (fD w == 0 && fA w == 0 && fX w == 0) (.tret)
    | 3 => k.take false false false (fD w == 0 && fA w == 0) (.prio (fX w))
    | 4 => k.take false false false (fD w == 0 && fA w == 0) (.hint (fX w))
    | _ => .error .unassigned
  | _ => .error .unassigned

/-- A 16-bit word (R318, R347): op in [4:1], vd in [10:5], vb or imm5 in [15:11]. -/
def decode16 (k : Pk) (h : BitVec 16) : Except BadWord Instr :=
  let vd : BitVec 6 := h.extractLsb' 5 6
  let vb : BitVec 5 := h.extractLsb' 11 5
  match (h.extractLsb' 1 4 : BitVec 4).toNat with
  | 0 => k.take true false false true (.add16 k.pfx vd vb)
  | 1 => k.take true false false true (.addImm16 k.pfx vd vb)
  | 2 => k.take true false false true (.sub16 k.pfx vd vb)
  | 3 => k.take true false false true (.mul16 k.pfx vd vb)
  | 4 => k.take true false false true (.and16 k.pfx vd vb)
  | 5 => k.take true false false true (.or16 k.pfx vd vb)
  | 6 => k.take true false false true (.xor16 k.pfx vd vb)
  | 7 => k.take true false false true (.shl16 k.pfx vd vb)
  | 8 => k.take true false false true (.shr16 k.pfx vd vb)
  | 9 => k.take true false false true (.sra16 k.pfx vd vb)
  | 10 => k.take true false false true (.min16 k.pfx vd vb)
  | 11 => k.take true false false true (.max16 k.pfx vd vb)
  | 12 => k.take true false false true (.minu16 k.pfx vd vb)
  | 13 => k.take true false false true (.maxu16 k.pfx vd vb)
  | 14 => k.take true false false true (.fadd16 k.pfx vd vb)
  | _ => k.take true false false true (.fmul16 k.pfx vd vb)

/-- One more prefix word (R326, R327): at most one of each kind; PK 2 and PK 3 are unassigned. -/
def Pk.add (k : Pk) (w : BitVec 32) : Except BadWord Pk :=
  match (w.extractLsb' 7 2 : BitVec 2).toNat with
  | 0 =>
    if k.pfx.pk0 then .error .badPrefix
    else if w.extractLsb' 19 13 != 0 then .error .reserved
    else .ok { k with pfx := { pk0 := true, mask := w.extractLsb' 9 4, ty := w.extractLsb' 13 3,
                               rm := w.extractLsb' 16 2 }, mod := w.getLsbD 18 }
  | 1 => if k.immh.isSome then .error .badPrefix else .ok { k with immh := .some (w.extractLsb' 9 23) }
  | _ => .error .unassigned

/-- `rend` with its trailer words (R328): ceil(n / 4) of them for n up to 8, none above. -/
def decodeRend (w : BitVec 32) (len : Nat) (rest : List (BitVec 16)) : Decoded :=
  if fD w != 0 || fA w != 0 then .bad .reserved
  else
    let n := (fX w).toNat
    if n = 0 || 8 < n then .ok (.rend (fX w) 0 0) len
    else match rest with
      | l0 :: h0 :: rest1 =>
        if n ≤ 4 then .ok (.rend (fX w) (h0 ++ l0) 0) (len + 2)
        else match rest1 with
          | l1 :: h1 :: _ => .ok (.rend (fX w) (h0 ++ l0) (h1 ++ l1)) (len + 4)
          | _ => .truncated
      | _ => .truncated

/-- What `decode32` or `decode16` found, with the instruction's length. -/
def Decoded.of (len : Nat) : Except BadWord Instr → Decoded
  | .ok i => .ok i len
  | .error e => .bad e

/-- The instruction at the head of a stream of halfwords, `len` halfwords of prefixes already read
(R317): bit 0 of a halfword selects a 16-bit or a 32-bit word. -/
def decodeFrom (k : Pk) (len : Nat) : List (BitVec 16) → Decoded
  | [] => .truncated
  | [h] => if h.getLsbD 0 then .truncated else Decoded.of (len + 1) (decode16 k h)
  | h :: h2 :: t =>
    if h.getLsbD 0 then
      let w : BitVec 32 := h2 ++ h
      if fMajor w == 0x3E then
        match k.add w with
        | .ok k' => decodeFrom k' (len + 2) t
        | .error e => .bad e
      else if fMajor w == 0x2A && fF w == 5 then
        if k.pfx.pk0 || k.immh.isSome then .bad .pfxBeforeRend else decodeRend w (len + 2) t
      else Decoded.of (len + 2) (decode32 k w)
    else Decoded.of (len + 1) (decode16 k h)

/-- The instruction at the head of a list of halfwords. -/
def decodeHalves (hs : List (BitVec 16)) : Decoded := decodeFrom Pk.none 0 hs

/-- Little-endian halfwords of a byte stream (R5, R317). -/
def halvesOf : List Byte → List (BitVec 16)
  | b0 :: b1 :: t => (b1 ++ b0) :: halvesOf t
  | _ => []

/-- The instruction at the head of a byte stream. -/
def decode (bs : List Byte) : Decoded := decodeHalves (halvesOf bs)

/-- The low `n` bytes of a number, least significant first (R5). -/
def bytesOfNat : Nat → Nat → List Byte
  | 0, _ => []
  | n + 1, w => BitVec.ofNat 8 w :: bytesOfNat n (w / 256)

/-- The instruction the decoder reads from a table word of `nbits` bits, bit 0 the least significant
bit of the first word; every later bit of the instruction is 0 (trailer words included). -/
def decodeTableWord (nbits w : Nat) : Option Instr :=
  match decode (bytesOfNat 12 (w % 2 ^ nbits)) with
  | .ok i _ => some i
  | _ => none

/-- A PK 0 prefix word (R326). -/
def encPk0 (p : Pfx) (mod : Bool) : BitVec 32 :=
  (0#13 ++ BitVec.ofBool mod ++ p.rm ++ p.ty ++ p.mask ++ 0#2 ++ 0x3E#6 ++ 1#1)

/-- A PK 1 prefix word (R326). -/
def encPk1 (h : BitVec 23) : BitVec 32 := (h ++ 1#2 ++ 0x3E#6 ++ 1#1)

/-- Formats L3 and U3 (R320). -/
def encL3 (major : BitVec 6) (d a b : BitVec 8) (u : Bool) : BitVec 32 :=
  (BitVec.ofBool u ++ b ++ a ++ d ++ major ++ 1#1)

/-- Formats LI and UI. -/
def encLI (major : BitVec 6) (d a : BitVec 8) (i : BitVec 9) : BitVec 32 := (i ++ a ++ d ++ major ++ 1#1)

/-- Formats LX and S. -/
def encS (major : BitVec 6) (func : BitVec 5) (d a : BitVec 8) (x : BitVec 4) : BitVec 32 :=
  (x ++ func ++ a ++ d ++ major ++ 1#1)

/-- Format B. -/
def encB (major : BitVec 6) (c : BitVec 8) (o : BitVec 17) : BitVec 32 := (o ++ c ++ major ++ 1#1)

/-- Format M. -/
def encM (major : BitVec 6) (m : MemArg) : BitVec 32 :=
  (BitVec.ofBool m.sx ++ BitVec.ofBool m.scale ++ m.size ++ m.base ++ m.a ++ m.d ++ major ++ 1#1)

/-- A 16-bit word (R318). -/
def encH (op : BitVec 4) (vd : BitVec 6) (vb : BitVec 5) : BitVec 16 := (vb ++ vd ++ op ++ 0#1)

/-- The two halfwords of a 32-bit word, low half first (R317). -/
def halves32 (w : BitVec 32) : List (BitVec 16) := [w.extractLsb' 0 16, w.extractLsb' 16 16]

/-- A 32-bit word behind its PK 0 prefix, if it has one. -/
def enc0 (p : Pfx) (mod : Bool) (w : BitVec 32) : List (BitVec 16) :=
  (if p.pk0 then halves32 (encPk0 p mod) else []) ++ halves32 w

/-- A word behind its PK 0 prefix and its PK 1 prefix, in this order (R333). -/
def enc01 (p : Pfx) (mod : Bool) (h : Option (BitVec 23)) (w : BitVec 32) : List (BitVec 16) :=
  (if p.pk0 then halves32 (encPk0 p mod) else []) ++
    (match h with
     | .some h => halves32 (encPk1 h)
     | .none => []) ++ halves32 w

/-- The high part of a long immediate. -/
def Imm.high : Imm → Option (BitVec 23)
  | .short _ => .none
  | .long h _ => .some h
/-- The 9 bits in the word. -/
def Imm.low : Imm → BitVec 9
  | .short i => i
  | .long _ i => i
/-- The high part of a long offset. -/
def Off.high : Off → Option (BitVec 23)
  | .short _ => .none
  | .long h _ => .some h
/-- The 17 bits in the word. -/
def Off.low : Off → BitVec 17
  | .short o => o
  | .long _ o => o

/-- The halfwords of an instruction (R317-R328, R347-R361), PK 0 first. A row without an encoding has none. -/
def encode : Instr → List (BitVec 16)
  | .add16 p vd vb => (if p.pk0 then halves32 (encPk0 p false) else []) ++ [encH 0 vd vb]
  | .addImm16 p vd vb => (if p.pk0 then halves32 (encPk0 p false) else []) ++ [encH 1 vd vb]
  | .sub16 p vd vb => (if p.pk0 then halves32 (encPk0 p false) else []) ++ [encH 2 vd vb]
  | .mul16 p vd vb => (if p.pk0 then halves32 (encPk0 p false) else []) ++ [encH 3 vd vb]
  | .and16 p vd vb => (if p.pk0 then halves32 (encPk0 p false) else []) ++ [encH 4 vd vb]
  | .or16 p vd vb => (if p.pk0 then halves32 (encPk0 p false) else []) ++ [encH 5 vd vb]
  | .xor16 p vd vb => (if p.pk0 then halves32 (encPk0 p false) else []) ++ [encH 6 vd vb]
  | .shl16 p vd vb => (if p.pk0 then halves32 (encPk0 p false) else []) ++ [encH 7 vd vb]
  | .shr16 p vd vb => (if p.pk0 then halves32 (encPk0 p false) else []) ++ [encH 8 vd vb]
  | .sra16 p vd vb => (if p.pk0 then halves32 (encPk0 p false) else []) ++ [encH 9 vd vb]
  | .min16 p vd vb => (if p.pk0 then halves32 (encPk0 p false) else []) ++ [encH 10 vd vb]
  | .max16 p vd vb => (if p.pk0 then halves32 (encPk0 p false) else []) ++ [encH 11 vd vb]
  | .minu16 p vd vb => (if p.pk0 then halves32 (encPk0 p false) else []) ++ [encH 12 vd vb]
  | .maxu16 p vd vb => (if p.pk0 then halves32 (encPk0 p false) else []) ++ [encH 13 vd vb]
  | .fadd16 p vd vb => (if p.pk0 then halves32 (encPk0 p false) else []) ++ [encH 14 vd vb]
  | .fmul16 p vd vb => (if p.pk0 then halves32 (encPk0 p false) else []) ++ [encH 15 vd vb]
  | .add p d a b u => enc0 p false (encL3 0x00 d a b u)
  | .sub p d a b u => enc0 p false (encL3 0x01 d a b u)
  | .and p d a b u => enc0 p false (encL3 0x02 d a b u)
  | .or p d a b u => enc0 p false (encL3 0x03 d a b u)
  | .xor p d a b u => enc0 p false (encL3 0x04 d a b u)
  | .shl p d a b u => enc0 p false (encL3 0x05 d a b u)
  | .shr p d a b u => enc0 p false (encL3 0x06 d a b u)
  | .sra p d a b u => enc0 p true (encL3 0x06 d a b u)
  | .mul p d a b u => enc0 p false (encL3 0x07 d a b u)
  | .mad p d a b u => enc0 p true (encL3 0x07 d a b u)
  | .mulh p d a b u => enc0 p false (encL3 0x08 d a b u)
  | .mulhu p d a b u => enc0 p true (encL3 0x08 d a b u)
  | .min p d a b u => enc0 p false (encL3 0x09 d a b u)
  | .minu p d a b u => enc0 p true (encL3 0x09 d a b u)
  | .max p d a b u => enc0 p false (encL3 0x0A d a b u)
  | .maxu p d a b u => enc0 p true (encL3 0x0A d a b u)
  | .bfx p d a b u => enc0 p false (encL3 0x0B d a b u)
  | .bfi p d a b u => enc0 p true (encL3 0x0B d a b u)
  | .cmp p c m a b u => enc0 p false (encL3 0x0C (c ++ m) a b u)
  | .fcmp p c m a b u => enc0 p true (encL3 0x0C (c ++ m) a b u)
  | .fadd p d a b u => enc0 p false (encL3 0x0D d a b u)
  | .fsub p d a b u => enc0 p true (encL3 0x0D d a b u)
  | .fmul p d a b u => enc0 p false (encL3 0x0E d a b u)
  | .ffma p d a b u => enc0 p true (encL3 0x0E d a b u)
  | .fmin p d a b u => enc0 p false (encL3 0x0F d a b u)
  | .fmax p d a b u => enc0 p true (encL3 0x0F d a b u)
  | .addImm p d a imm => enc01 p false imm.high (encLI 0x10 d a imm.low)
  | .mulImm p d a imm => enc01 p false imm.high (encLI 0x11 d a imm.low)
  | .andImm p d a imm => enc01 p false imm.high (encLI 0x12 d a imm.low)
  | .orImm p d a imm => enc01 p false imm.high (encLI 0x13 d a imm.low)
  | .xorImm p d a imm => enc01 p false imm.high (encLI 0x14 d a imm.low)
  | .shlImm p d a imm => enc01 p false imm.high (encLI 0x15 d a imm.low)
  | .shrImm p d a imm => enc01 p false imm.high (encLI 0x16 d a imm.low)
  | .sraImm p d a imm => enc01 p true imm.high (encLI 0x16 d a imm.low)
  | .cmpImm p c m a imm => enc01 p false imm.high (encLI 0x17 (c ++ m) a imm.low)
  | .rcp p d a => enc0 p false (encS 0x18 0 d a 0)
  | .rsq p d a => enc0 p false (encS 0x18 1 d a 0)
  | .sqrt p d a => enc0 p false (encS 0x18 2 d a 0)
  | .exp2 p d a => enc0 p false (encS 0x18 3 d a 0)
  | .log2 p d a => enc0 p false (encS 0x18 4 d a 0)
  | .sin p d a => enc0 p false (encS 0x18 5 d a 0)
  | .cos p d a => enc0 p false (encS 0x18 6 d a 0)
  | .tanh p d a => enc0 p false (encS 0x18 7 d a 0)
  | .fabs p d a => enc0 p false (encS 0x18 8 d a 0)
  | .fneg p d a => enc0 p false (encS 0x18 9 d a 0)
  | .fclass p d a => enc0 p false (encS 0x18 10 d a 0)
  | .frnd p d a => enc0 p false (encS 0x18 11 d a 0)
  | .fcvt p d a x => enc0 p false (encS 0x18 12 d a x)
  | .not p d a => enc0 p false (encS 0x19 0 d a 0)
  | .abs p d a => enc0 p false (encS 0x19 1 d a 0)
  | .neg p d a => enc0 p false (encS 0x19 2 d a 0)
  | .pop p d a => enc0 p false (encS 0x19 3 d a 0)
  | .clz p d a => enc0 p false (encS 0x19 4 d a 0)
  | .sel p d a x => enc0 p false (encS 0x19 5 d a x)
  | .mand p d a k => enc0 p false (encS 0x1A 0 (0#4 ++ d) (0#4 ++ a) k)
  | .mor p d a k => enc0 p false (encS 0x1A 1 (0#4 ++ d) (0#4 ++ a) k)
  | .mxor p d a k => enc0 p false (encS 0x1A 2 (0#4 ++ d) (0#4 ++ a) k)
  | .mnot p d a => enc0 p false (encS 0x1A 3 (0#4 ++ d) (0#4 ++ a) 0)
  | .mmov p d a => enc0 p false (encS 0x1A 4 (0#4 ++ d) (0#4 ++ a) 0)
  | .mpop p d a => enc0 p false (encS 0x1A 5 d (0#4 ++ a) 0)
  | .mfirst p d a => enc0 p false (encS 0x1A 6 (0#4 ++ d) (0#4 ++ a) 0)
  | .mset p d a => enc0 p false (encS 0x1A 7 (0#4 ++ d) a 0)
  | .shfUp p d a x => enc0 p false (encS 0x1B 0 d a x)
  | .shfDn p d a x => enc0 p false (encS 0x1B 1 d a x)
  | .shfXor p d a x => enc0 p false (encS 0x1B 2 d a x)
  | .shfRot p d a x => enc0 p false (encS 0x1B 3 d a x)
  | .shfIdx p d a => enc0 p false (encS 0x1B 4 d a 0)
  | .sct p d a => enc0 p false (encS 0x1B 5 d a 0)
  | .bcst p d a => enc0 p false (encS 0x1B 6 d a 0)
  | .lred p d a x => enc0 p false (encS 0x1B 7 d a x)
  | .scan p d a x => enc0 p false (encS 0x1B 8 d a x)
  | .scanEx p d a x => enc0 p false (encS 0x1B 9 d a x)
  | .tbl p d a n fill => enc0 p false (encS 0x1B (10 + n.setWidth 5) d a fill)
  | .vote p d a x => enc0 p false (encS 0x1B 18 d a x)
  | .lid p d => enc0 p false (encS 0x1B 19 d 0 0)
  | .ld p m => enc01 p false m.disp (encM 0x1C m)
  | .ldc p m => enc01 p true m.disp (encM 0x1C m)
  | .st p m => enc01 p false m.disp (encM 0x1D m)
  | .stc p m => enc01 p true m.disp (encM 0x1D m)
  | .lds p m => enc01 p false m.disp (encM 0x1E m)
  | .prf p m => enc01 p true m.disp (encM 0x1E m)
  | .sts p m => enc01 p false m.disp (encM 0x1F m)
  | .inv p m => enc01 p true m.disp (encM 0x1F m)
  | .sadd p d a b => enc0 p false (encL3 0x20 d a b false)
  | .ssub p d a b => enc0 p true (encL3 0x20 d a b false)
  | .smul p d a b => enc0 p false (encL3 0x21 d a b false)
  | .smulh p d a b => enc0 p true (encL3 0x21 d a b false)
  | .sand p d a b => enc0 p false (encL3 0x22 d a b false)
  | .sor p d a b => enc0 p true (encL3 0x22 d a b false)
  | .sxor p d a b => enc0 p false (encL3 0x23 d a b false)
  | .sshl p d a b => enc0 p true (encL3 0x23 d a b false)
  | .sld p d a imm => enc01 p false imm.high (encLI 0x24 d a imm.low)
  | .sst p d a imm => enc01 p true imm.high (encLI 0x24 d a imm.low)
  | .sli p d imm => enc01 p false imm.high (encLI 0x25 d 0 imm.low)
  | .slui p d imm => enc01 p true imm.high (encLI 0x25 d 0 imm.low)
  | .saddImm p d a imm => enc01 p false imm.high (encLI 0x26 d a imm.low)
  | .sandImm p d a imm => enc01 p true imm.high (encLI 0x26 d a imm.low)
  | .sshlImm p d a imm => enc01 p false imm.high (encLI 0x27 d a imm.low)
  | .sshrImm p d a imm => enc01 p true imm.high (encLI 0x27 d a imm.low)
  | .smov d a => halves32 (encS 0x2B 0 d a 0)
  | .sshr d a => halves32 (encS 0x2B 1 d a 0)
  | .ssra d a => halves32 (encS 0x2B 2 d a 0)
  | .smin d a => halves32 (encS 0x2B 3 d a 0)
  | .smax d a => halves32 (encS 0x2B 4 d a 0)
  | .sminu d a => halves32 (encS 0x2B 5 d a 0)
  | .smaxu d a => halves32 (encS 0x2B 6 d a 0)
  | .scmp d a x => halves32 (encS 0x2B 7 d a x)
  | .ssel d a x => halves32 (encS 0x2B 8 d a x)
  | .br p off => enc01 p false off.high (encB 0x28 0 off.low)
  | .call p l off => enc01 p false off.high (encB 0x28 l off.low)
  | .rcv p off => enc01 p true off.high (encB 0x28 0 off.low)
  | .bl p m sense off => enc01 p false off.high (encB 0x29 (0#3 ++ BitVec.ofBool sense ++ m) off.low)
  | .bc p c off => enc01 p true off.high (encB 0x29 c off.low)
  | .nop => halves32 (encS 0x2A 0 0 0 0)
  | .exit => halves32 (encS 0x2A 1 0 0 0)
  | .yield => halves32 (encS 0x2A 2 0 0 0)
  | .rgn => halves32 (encS 0x2A 3 0 0 0)
  | .run => halves32 (encS 0x2A 4 0 0 0)
  | .rend n t0 t1 => halves32 (encS 0x2A 5 0 0 n) ++ (if n.toNat = 0 || 8 < n.toNat then [] else if n.toNat ≤ 4 then halves32 t0 else halves32 t0 ++ halves32 t1)
  | .take x => halves32 (encS 0x2A 6 0 0 x)
  | .jmp a => halves32 (encS 0x2A 7 0 a 0)
  | .ret a => halves32 (encS 0x2A 8 0 a 0)
  | .brk a x => halves32 (encS 0x2A 9 0 a x)
  | .acq p a => enc0 p false (encS 0x2C 0 0 a 0)
  | .rel p a => enc0 p false (encS 0x2C 1 0 a 0)
  | .fence x => halves32 (encS 0x2C 2 0 0 x)
  | .bar => halves32 (encS 0x2C 3 0 0 0)
  | .cbar => halves32 (encS 0x2C 4 0 0 0)
  | .tlw a x => halves32 (encS 0x2C 5 0 a x)
  | .tlr d x => halves32 (encS 0x2C 6 d 0 x)
  | .wait l st c t r => halves32 (encS 0x2D 0 (st ++ l) (t ++ c) r)
  | .rop p d a id ng => enc0 p false (encS 0x30 (id.extractLsb' 0 5) d a (ng ++ id.extractLsb' 5 1))
  | .ropr p d a id ng => enc0 p false (encS 0x31 (id.extractLsb' 0 5) d a (ng ++ id.extractLsb' 5 1))
  | .ropw p d a id ng => enc0 p false (encS 0x32 (id.extractLsb' 0 5) d a (ng ++ id.extractLsb' 5 1))
  | .rdef d a => halves32 (encS 0x33 0 d a 0)
  | .rdel d => halves32 (encS 0x33 1 d 0 0)
  | .rstat d a => halves32 (encS 0x33 2 d a 0)
  | .rstatStat d => halves32 (encS 0x33 2 d 0 1)
  | .board d a => halves32 (encS 0x33 3 d a 0)
  | .alight d a => halves32 (encS 0x33 4 d a 0)
  | .catch d a => halves32 (encS 0x33 5 d a 0)
  | .rwr d a x => halves32 (encS 0x33 6 d a x)
  | .rwrR d a x => halves32 (encS 0x33 7 d a x)
  | .mstone d => halves32 (encS 0x33 8 d 0 0)
  | .mld p front r f o => enc0 p false (encS 0x34 0 (0#7 ++ BitVec.ofBool front) (f ++ o) r)
  | .mswp p => enc0 p false (encS 0x34 1 0 0 0)
  | .mmul p t z r f o => enc0 p false (encS 0x34 2 (0#1 ++ BitVec.ofBool z ++ t) (f ++ o) r)
  | .mzero p t => enc0 p false (encS 0x34 3 (0#2 ++ t) 0 0)
  | .mdrain p t clr code r o => enc0 p false (encS 0x34 4 (0#1 ++ BitVec.ofBool clr ++ t) (code ++ o) r)
  | .mrsum p t r f o => enc0 p false (encS 0x34 5 (0#2 ++ t) (f ++ o) r)
  | .msave p obj t a => enc0 p false (encS 0x34 6 (obj ++ t) a 0)
  | .mrest p obj t a => enc0 p false (encS 0x34 7 (obj ++ t) a 0)
  | .mstat p d => enc0 p false (encS 0x34 8 d 0 0)
  | .skd p d a w sp => enc0 p false (encS 0x38 0 d a (BitVec.ofBool sp ++ 0#2 ++ BitVec.ofBool w))
  | .skh p d a w sp => enc0 p false (encS 0x38 1 d a (BitVec.ofBool sp ++ 0#2 ++ BitVec.ofBool w))
  | .skq p d a sp => enc0 p false (encS 0x38 2 d a (BitVec.ofBool sp ++ 0#3))
  | .skm p d a kind sp => enc0 p false (encS 0x38 3 d a (BitVec.ofBool sp ++ 0#1 ++ kind))
  | .skqv p d a sp => enc0 p false (encS 0x38 4 d a (BitVec.ofBool sp ++ 0#3))
  | .skest p d a sp => enc0 p false (encS 0x38 5 d a (BitVec.ofBool sp ++ 0#3))
  | .sktop p d a sp => enc0 p false (encS 0x38 6 d a (BitVec.ofBool sp ++ 0#3))
  | .sksd p d a kind sp => enc0 p false (encS 0x38 7 d a (BitVec.ofBool sp ++ 0#1 ++ kind))
  | .xadd p d a w sp => enc0 p false (encS 0x39 0 d a (BitVec.ofBool sp ++ 0#2 ++ BitVec.ofBool w))
  | .xrnd p d a w sp => enc0 p false (encS 0x39 1 d a (BitVec.ofBool sp ++ 0#2 ++ BitVec.ofBool w))
  | .xclr p a v sp => enc0 p false (encS 0x39 2 0 a (BitVec.ofBool sp ++ 0#2 ++ BitVec.ofBool v))
  | .xcp p d a => enc0 p false (encS 0x3B 0 (0#4 ++ d) (0#4 ++ a) 0)
  | .xcpFill p d a => enc0 p false (encS 0x3B 0 (0#4 ++ d) a 1)
  | .bat p d => enc0 p false (encS 0x3B 1 d 0 0)
  | .wbat a => halves32 (encS 0x3B 2 0 a 0)
  | .push d a x => halves32 (encS 0x3B 3 d a x)
  | .dld p d a k => enc0 p false (encS 0x3B 4 (0#4 ++ d) a k)
  | .fmt p d a k => enc0 p false (encS 0x3B 5 (0#5 ++ d) a k)
  | .emit a => halves32 (encS 0x3C 0 0 a 0)
  | .emitx d a x => halves32 (encS 0x3C 1 d a x)
  | .ecl a q => halves32 (encS 0x3C 2 0 a (0#2 ++ q))
  | .ecln d a q => halves32 (encS 0x3C 3 d a (0#2 ++ q))
  | .eqfree d q => halves32 (encS 0x3C 4 d 0 (0#2 ++ q))
  | .csrr d a x => halves32 (encS 0x3D 0 d a x)
  | .csrw d a x => halves32 (encS 0x3D 1 d a x)
  | .tret => halves32 (encS 0x3D 2 0 0 0)
  | .prio x => halves32 (encS 0x3D 3 0 0 x)
  | .hint x => halves32 (encS 0x3D 4 0 0 x)
  | _ => []

/-- The bytes of an instruction, as the hardware stores them (R5). -/
def encodeBytes (i : Instr) : List Byte :=
  (encode i).flatMap fun h => [h.extractLsb' 0 8, h.extractLsb' 8 8]

end Sys2Proof
end

