-- ==== Sys2Proof/Machine/Bits.lean ====
section
/-!
DEFINITION. Bit-field, sign-extension and byte-order helpers (R5, R7): the helpers of the manual's
pseudocode over words, naturals and byte lists.
-/

namespace Sys2Proof.Machine

/-- A byte list as a number, least significant byte first (R5). -/
def leNat : List Byte → Nat
  | [] => 0
  | b :: t => b.toNat + 256 * leNat t

/-- The low `n` bytes of a number, least significant first (R5). -/
def leBytes : Nat → Nat → List Byte
  | 0, _ => []
  | n + 1, x => BitVec.ofNat 8 x :: leBytes n (x / 256)

/-- Bits [lo + n - 1 : lo] of a number. -/
def bits (x lo n : Nat) : Nat := x / 2 ^ lo % 2 ^ n

/-- Bit `i` of a number. -/
def bit (x i : Nat) : Bool := x / 2 ^ i % 2 == 1

/-- `n` bytes of a byte list from offset `o`; bytes past the end read 0. -/
def slice (bs : List Byte) (o n : Nat) : List Byte :=
  let t := (bs.drop o).take n
  t ++ List.replicate (n - t.length) 0

/-- The number in `n` bytes at offset `o` (R5). -/
def field (bs : List Byte) (o n : Nat) : Nat := leNat (slice bs o n)

/-- Put bytes `xs` over a byte list at offset `o`, keeping its length. -/
def splice (bs : List Byte) (o : Nat) (xs : List Byte) : List Byte :=
  bs.take o ++ xs.take (bs.length - o) ++ bs.drop (o + xs.length)

/-- SignExt of the low `n` bits of a number, as an integer (R7). -/
def signNat (x n : Nat) : Int :=
  let y := x % 2 ^ n
  if 2 ^ n ≤ 2 * y then (y : Int) - 2 ^ n else y

/-- An integer modulo 2^n, as a number. -/
def wrap (x : Int) (n : Nat) : Nat := (x % (2 ^ n : Int)).toNat

/-- SatS of R7, as an integer. -/
def satS (x : Int) (n : Nat) : Int :=
  if x < -(2 ^ (n - 1) : Int) then -(2 ^ (n - 1) : Int)
  else if (2 ^ (n - 1) : Int) - 1 < x then 2 ^ (n - 1) - 1 else x

/-- SatU of R7, as an integer. -/
def satU (x : Int) (n : Nat) : Int :=
  if x < 0 then 0 else if (2 ^ n : Int) - 1 < x then 2 ^ n - 1 else x

/-- The largest power of two, at most 2^`f`, that divides `n`. -/
def twoPart : Nat → Nat → Nat
  | 0, _ => 1
  | f + 1, n => if n % 2 = 0 then 2 * twoPart f (n / 2) else 1

/-- Every byte of the list is 0. -/
def zeros (bs : List Byte) : Bool := bs.all (· == 0)

/-- Apply `f` to the elements that satisfy `p`. -/
def mapIf {α : Type} (p : α → Bool) (f : α → α) (l : List α) : List α :=
  l.map fun x => if p x then f x else x

/-- Apply `f` to element `i`. -/
def modAt {α : Type} (l : List α) (i : Nat) (f : α → α) : List α :=
  match l, i with
  | [], _ => []
  | x :: t, 0 => f x :: t
  | x :: t, i + 1 => x :: modAt t i f

/-- ceil(a / b) for b above 0. -/
def ceilDiv (a b : Nat) : Nat := (a + b - 1) / b

/-- The numbers from `lo` to `lo + n - 1`. -/
def upto (lo : Nat) : Nat → List Nat
  | 0 => []
  | n + 1 => lo :: upto (lo + 1) n

/-- The lanes of a mask, in increasing order (R118). -/
def lanesOf (m : LaneMask) : List Nat := (upto 0 64).filter fun i => m.getLsbD i

/-- The mask of a list of lanes. -/
def maskOf (l : List Nat) : LaneMask := l.foldl (fun m i => m ||| (1#64 <<< i)) 0

/-- The lane number of an access that belongs to no lane: `maskOf` gives it no bit. -/
def noLane : Nat := 64

/-- How many bits are set. -/
def popCount (m : LaneMask) : Nat := (lanesOf m).length

/-- A Bool as a bit. -/
def b2n (b : Bool) : Nat := if b then 1 else 0

end Sys2Proof.Machine
end

