-- ==== Sys2Proof/Machine/Float.lean ====
section
/-!
DEFINITION. Binary floating point (R211-R214): values as sign, magnitude and power of two, exact sums and
products, one rounding at the end under the modes of R213, comparisons, and conversions.
-/

namespace Sys2Proof.Machine

/-- A binary format by its exponent and fraction widths (R211). -/
structure Fmt where
  ew : Nat
  mw : Nat
  deriving DecidableEq, Repr

/-- FP32, FP16 and BF16 (R211). -/
def fp32 : Fmt := { ew := 8, mw := 23 }
def fp16 : Fmt := { ew := 5, mw := 10 }
def bf16 : Fmt := { ew := 8, mw := 7 }

/-- The bias, and the power of two of the smallest subnormal. -/
def Fmt.bias (f : Fmt) : Int := 2 ^ (f.ew - 1) - 1
def Fmt.qmin (f : Fmt) : Int := 1 - f.bias - f.mw
/-- The all-ones exponent field. -/
def Fmt.emax (f : Fmt) : Nat := 2 ^ f.ew - 1
/-- The sign bit's weight. -/
def Fmt.sign (f : Fmt) : Nat := 2 ^ (f.ew + f.mw)
/-- ∞, the canonical NaN and the largest finite encoding of a format (R211). -/
def Fmt.inf (f : Fmt) : Nat := f.emax * 2 ^ f.mw
def Fmt.nan (f : Fmt) : Nat := f.inf + 2 ^ (f.mw - 1)
def Fmt.big (f : Fmt) : Nat := f.inf - 1

/-- A value: NaN, an infinity, or (-1)^neg × m × 2^e. -/
inductive FVal where
  | nan
  | inf (neg : Bool)
  | fin (neg : Bool) (m : Nat) (e : Int)
  deriving DecidableEq, Repr

/-- Read an encoding (R211). -/
def Fmt.dec (f : Fmt) (x : Nat) : FVal :=
  let neg := bit x (f.ew + f.mw)
  let e := bits x f.mw f.ew
  let m := bits x 0 f.mw
  if e = f.emax then (if m = 0 then .inf neg else .nan)
  else if e = 0 then .fin neg m f.qmin
  else .fin neg (m + 2 ^ f.mw) (f.qmin + e - 1)

/-- m × 2^d for an integer d, the bits below the point dropped. -/
def shiftNat (m : Nat) (d : Int) : Nat := if 0 ≤ d then m * 2 ^ d.toNat else m / 2 ^ (-d).toNat

/-- Whether rounding goes up in magnitude: `lsb` of the kept part, the discarded part compared with one half
(0 exact, 1 below, 2 equal, 3 above), the sign (R213). -/
def roundUp (rm : Nat) (neg : Bool) (lsb : Bool) (rest : Nat) : Bool :=
  if rest = 0 then false
  else if rm = 0 then rest == 3 || (rest == 2 && lsb)
  else if rm = 1 then false
  else if rm = 2 then !neg
  else neg

/-- Drop `d` low bits of `m` (with `sticky` for bits already lost below) and round. -/
def roundAt (rm : Nat) (neg : Bool) (m d : Nat) (sticky : Bool) : Nat :=
  let k := m / 2 ^ d
  let r := m % 2 ^ d
  let rest :=
    if d = 0 then (if sticky then 1 else 0)
    else
      let h := 2 ^ (d - 1)
      if r < h then (if r = 0 && !sticky then 0 else 1)
      else if r = h && !sticky then 2 else 3
  if roundUp rm neg (k % 2 == 1) rest then k + 1 else k

/-- Round (-1)^neg × (m + ε) × 2^e into a format, ε standing for lost bits when `sticky` (R213); m is not 0. -/
def Fmt.pack (f : Fmt) (rm : Nat) (neg : Bool) (m : Nat) (e : Int) (sticky : Bool) : Nat :=
  let s := if neg then f.sign else 0
  let q := max f.qmin (e + (Nat.log2 m : Int) - f.mw)
  let k := if e < q then roundAt rm neg m (q - e).toNat sticky else m * 2 ^ (e - q).toNat
  let (k, q) := if k = 2 ^ (f.mw + 1) then (2 ^ f.mw, q + 1) else (k, q)
  if k < 2 ^ f.mw then s + k
  else
    let x := (q - f.qmin).toNat + 1
    if f.emax ≤ x then
      s + (if rm = 0 || (rm = 2 && !neg) || (rm = 3 && neg) then f.inf else f.big)
    else s + x * 2 ^ f.mw + (k - 2 ^ f.mw)

/-- Round a value into a format (R212, R213). -/
def Fmt.enc (f : Fmt) (rm : Nat) : FVal → Nat
  | .nan => f.nan
  | .inf neg => (if neg then f.sign else 0) + f.inf
  | .fin neg m e => if m = 0 then (if neg then f.sign else 0) else f.pack rm neg m e false

/-- The signed integer of a magnitude. -/
def signed (neg : Bool) (m : Nat) : Int := if neg then -(m : Int) else m

/-- The exact sum (R213); an exact zero from opposite signs is -0 under RD only. -/
def FVal.add (rm : Nat) : FVal → FVal → FVal
  | .nan, _ => .nan
  | _, .nan => .nan
  | .inf a, .inf b => if a = b then .inf a else .nan
  | .inf a, _ => .inf a
  | _, .inf b => .inf b
  | .fin a m x, .fin b n y =>
    if m = 0 && n = 0 then .fin (if a = b then a else rm == 3) 0 0
    else
      let e := min x y
      let s := signed a (m * 2 ^ (x - e).toNat) + signed b (n * 2 ^ (y - e).toNat)
      if s = 0 then .fin (rm == 3) 0 0 else .fin (s < 0) s.natAbs e

/-- The exact product (R223, R402). -/
def FVal.mul : FVal → FVal → FVal
  | .nan, _ => .nan
  | _, .nan => .nan
  | .inf a, .inf b => .inf (a != b)
  | .inf a, .fin b m _ => if m = 0 then .nan else .inf (a != b)
  | .fin a m _, .inf b => if m = 0 then .nan else .inf (a != b)
  | .fin a m x, .fin b n y => .fin (a != b) (m * n) (x + y)

/-- The opposite value. -/
def FVal.neg : FVal → FVal
  | .nan => .nan
  | .inf a => .inf (!a)
  | .fin a m x => .fin (!a) m x

/-- Whether a value is NaN. -/
def FVal.isNan : FVal → Bool
  | .nan => true
  | _ => false

/-- The order of two values that are not NaN, ±0 equal. -/
def FVal.lt : FVal → FVal → Bool
  | .nan, _ => false
  | _, .nan => false
  | .inf a, .inf b => a && !b
  | .inf a, .fin _ _ _ => a
  | .fin _ _ _, .inf b => !b
  | .fin a m x, .fin b n y =>
    let e := min x y
    signed a (m * 2 ^ (x - e).toNat) < signed b (n * 2 ^ (y - e).toNat)

/-- Equality of values, ±0 equal; NaN equals nothing. -/
def FVal.eq (a b : FVal) : Bool := !a.isNan && !b.isNan && !a.lt b && !b.lt a

/-- The sign of a value. -/
def FVal.isNeg : FVal → Bool
  | .nan => false
  | .inf a => a
  | .fin a _ _ => a

/-- Minimum and maximum: one NaN yields the other operand, -0 orders below +0 (R402). -/
def FVal.min (a b : FVal) : FVal :=
  if a.isNan then b else if b.isNan then a
  else if a.lt b then a else if b.lt a then b else if a.isNeg then a else b

def FVal.max (a b : FVal) : FVal :=
  if a.isNan then b else if b.isNan then a
  else if a.lt b then b else if b.lt a then a else if a.isNeg then b else a

/-- Rounded arithmetic in a format: operands and results are encodings. -/
def Fmt.fadd (f : Fmt) (rm a b : Nat) : Nat := f.enc rm ((f.dec a).add rm (f.dec b))
def Fmt.fsub (f : Fmt) (rm a b : Nat) : Nat := f.enc rm ((f.dec a).add rm (f.dec b).neg)
def Fmt.fmul (f : Fmt) (rm a b : Nat) : Nat := f.enc rm ((f.dec a).mul (f.dec b))
def Fmt.ffma (f : Fmt) (rm a b d : Nat) : Nat := f.enc rm (((f.dec a).mul (f.dec b)).add rm (f.dec d))
def Fmt.fmin (f : Fmt) (a b : Nat) : Nat := f.enc 0 ((f.dec a).min (f.dec b))
def Fmt.fmax (f : Fmt) (a b : Nat) : Nat := f.enc 0 ((f.dec a).max (f.dec b))
def Fmt.fneg (f : Fmt) (a : Nat) : Nat := f.enc 0 (f.dec a).neg
def Fmt.fabs (f : Fmt) (a : Nat) : Nat :=
  f.enc 0 (match f.dec a with
    | .nan => .nan
    | .inf _ => .inf false
    | .fin _ m e => .fin false m e)

/-- A finite value rounded to an integer under a mode; the magnitude (R213, R404). -/
def roundInt (rm : Nat) (neg : Bool) (m : Nat) (e : Int) : Nat :=
  if 0 ≤ e then m * 2 ^ e.toNat else roundAt rm neg m (-e).toNat false

/-- `frnd` (R404): an integral value in the same format; a zero keeps the sign. -/
def Fmt.frnd (f : Fmt) (rm a : Nat) : Nat :=
  match f.dec a with
  | .nan => f.nan
  | .inf n => (if n then f.sign else 0) + f.inf
  | .fin n m e =>
    let k := roundInt rm n m e
    f.enc 0 (.fin n k 0)

/-- Float to an integer of `n` bits, signed or not (R214): NaN gives 0, ±∞ the limits. -/
def Fmt.toInt (f : Fmt) (rm : Nat) (sgn : Bool) (n a : Nat) : Int :=
  let sat := fun (x : Int) => if sgn then satS x n else satU x n
  match f.dec a with
  | .nan => 0
  | .inf neg => sat (if neg then -(2 ^ (2 * n) : Int) else 2 ^ (2 * n))
  | .fin neg m e => sat (signed neg (roundInt rm neg m e))

/-- Integer to float (R214). -/
def Fmt.ofInt (f : Fmt) (rm : Nat) (x : Int) : Nat :=
  if x = 0 then 0 else f.pack rm (x < 0) x.natAbs 0 false

/-- One float format to another (R214). -/
def Fmt.conv (f g : Fmt) (rm a : Nat) : Nat := g.enc rm (f.dec a)

/-- The class mask of `fclass` (R404). -/
def Fmt.fclass (f : Fmt) (a : Nat) : Nat :=
  let neg := bit a (f.ew + f.mw)
  let e := bits a f.mw f.ew
  let m := bits a 0 f.mw
  if e = f.emax then
    if m = 0 then (if neg then 1 else 128)
    else if bit m (f.mw - 1) then 512 else 256
  else if e = 0 then
    if m = 0 then (if neg then 8 else 16) else (if neg then 4 else 32)
  else (if neg then 2 else 64)

end Sys2Proof.Machine
end

