-- ==== Sys2Proof/Config.lean ====
section
/-!
DEFINITION. What the JL4 fixes and what the manual leaves open. The figures are those of R1; the
opaque constants are the free values (nothing in Lean can say what they are), each named in the
assumption log.
-/

namespace Sys2Proof.Config

/-- Lanes per group (R12, R117). -/
def gwidth : Nat := 64
/-- Cores of the package (R1). -/
def cores : Nat := 2048
/-- Pool units of a core (R140). -/
def poolUnits : Nat := 24
/-- Group slots and team slots of a core (R90, R117). -/
def groupSlots : Nat := 16
def teamSlots : Nat := 4
/-- Ring positions of the Tideway, and slots (R255). -/
def ringSlots : Nat := 2176
/-- The translations that the lease translation store holds (R72). -/
def storeSize : Nat := 65536
/-- CAP0 and CAP1 (R40). -/
def cap0 : BitVec 64 := 0x3FFF
def cap1 : BitVec 64 := 0
/-- Saved registers of the context save area begin here (R311). -/
def saveBase : Nat := 0x00FF000000000000
def saveEnd : Nat := 0x00FF0FFFFFFFFFFF

/-- Which of several steps that may come next does come next: candidate number `freePick tick mod n`.
The manual orders agents only where a rule does. -/
opaque freePick : Nat → Nat
/-- A free byte: what a line written under one key reads as under another (R45). The first argument is the free counter of the
state, the second the address. -/
opaque freeByte : Nat → Nat → Byte
/-- The set of its slice that a line is in, modulo 4,096 (R155): the manual does not give the index. -/
opaque l2Set : Nat → Nat
/-- The way of a full set that a slice evicts (R155), by free counter. -/
opaque l2Victim : Nat → Nat
/-- The L1 way that pseudo-LRU replaces (R150): which of the set's lines goes, by free counter. -/
opaque l1Victim : Nat → Nat
/-- The signature of the root of trust over a record (R62, R65): r then s, each 384 bits. The device
identity key is not given. -/
opaque signature : List Byte → BitVec 768
/-- The length of the certificate chain, which CERT_READ reports in four bytes (R43). -/
opaque certificateLen : BitVec 32
/-- The bytes of the certificate chain. The manual does not give them. -/
opaque certificateByte : Nat → Byte
/-- The certificate chain that CERT_READ returns (R43, R65). -/
def certificate : List Byte := (List.range certificateLen.toNat).map certificateByte
/-- What a 64-bit element, which the manual would have widened to 32 bits, returns (R427). -/
opaque narrowElem : BitVec 64 → BitVec 32
/-- The mean power per placed team of a launch, in mW, as measured over a power window (R95), by free counter and launch; and whether
the package stood above 2,000 W for the whole window (R17). -/
opaque meanPower : Nat → Nat → Nat
opaque windowHot : Nat → Bool
/-- How many bytes a copy chunk moves (R280, R281), and how many frames an arriving frame acknowledges (R21). -/
opaque freeDelay : Nat → Nat

end Sys2Proof.Config
end

