-- ==== Sys2Proof/Machine/Sparse.lean ====
section
/-!
DEFINITION. Sparse storage in one canonical form: a list of (key, value) pairs with strictly rising
keys and no entry of value 0, an unlisted key reading as 0. Device memory, host memory, register
files, tiles and scratchpads are all held this way, so that equal contents are equal data.
-/

namespace Sys2Proof.Machine

/-- Sparse storage of `w`-bit cells. -/
abbrev Sparse (w : Nat) := List (Nat × BitVec w)

/-- The value under key `k`; 0 where no entry stands. -/
def sget {w : Nat} : Sparse w → Nat → BitVec w
  | [], _ => 0
  | (a, x) :: t, k => if k = a then x else sget t k

/-- Put an entry before the first entry of a greater key. -/
def sinsert {w : Nat} : Sparse w → Nat → BitVec w → Sparse w
  | [], k, v => [(k, v)]
  | (a, x) :: t, k, v => if k < a then (k, v) :: (a, x) :: t else (a, x) :: sinsert t k v

/-- Write `v` under key `k`, keeping the canonical form: an old entry of the key goes, and a new one stands only for a value
that an unlisted key does not read as. -/
def sset {w : Nat} (m : Sparse w) (k : Nat) (v : BitVec w) : Sparse w :=
  let rest := m.filter fun e => e.1 != k
  if v = 0 then rest else sinsert rest k v

/-- Write a list of (key, value) pairs, the later ones over the earlier. -/
def ssets {w : Nat} (m : Sparse w) : List (Nat × BitVec w) → Sparse w
  | [] => m
  | (k, v) :: t => ssets (sset m k v) t

/-- Every key of `m` is above `lo`, the keys rise strictly and no value is 0. -/
def swfFrom {w : Nat} : Nat → Sparse w → Bool
  | _, [] => true
  | lo, (a, x) :: t => lo ≤ a && x != 0 && swfFrom (a + 1) t

/-- The canonical form. -/
def swf {w : Nat} (m : Sparse w) : Bool := swfFrom 0 m

/-- `n` consecutive values from key `k`. -/
def sgets {w : Nat} (m : Sparse w) (k : Nat) : Nat → List (BitVec w)
  | 0 => []
  | n + 1 => sget m k :: sgets m (k + 1) n

/-- The pairs that put a list of values at consecutive keys from `k`. -/
def pairsFrom {w : Nat} (k : Nat) : List (BitVec w) → List (Nat × BitVec w)
  | [] => []
  | v :: t => (k, v) :: pairsFrom (k + 1) t

/-- Drop every entry whose key does not satisfy `p`. -/
def skeep {w : Nat} (m : Sparse w) (p : Nat → Bool) : Sparse w := m.filter fun e => p e.1

/-- Memory of one address space: byte cells by address. -/
abbrev Memory := List Host.Cell

/-- The canonical form of a memory: rising addresses, no byte equal to what an unlisted one reads as. -/
def Memory.wf (m : Memory) : Bool := swf m

end Sys2Proof.Machine
end

