-- ==== Sys2Proof/Machine/State.lean ====
section
/-!
DEFINITION. The state of one JL4 package as plain data, and its state after reset: the package's
management block and links, the host functions, contexts, the lease translation store, launches,
placed teams with their groups, pilot and handler slot, the cores, memory, the requests on their way,
the Tideway, the memory channels and the events that stand ready. What stops a step is at the end.
-/

namespace Sys2Proof.Machine

/-! ### Groups, pilots and handler slots -/

/-- STATE of a split-table entry (R121). -/
inductive EntryState where
  | free | active | waiting
  deriving DecidableEq, Repr

/-- Why an active fragment, a pilot or a handler does not issue (R99, R170, R175-R178, R183, R376,
R380, R434). The instruction acts again at wake-up, or the event that ends the wait finishes it. -/
inductive Park where
  /-- a wait until the unit's counters are at or below limits: `rel`, `exit`, `push`, `tret` (R171, R375, R393, R443), and with
  `wait` the instruction of that name (R175) -/
  | counters (l st c t r : Nat) (wait : Bool)
  /-- `take` on an empty queue (R380) -/
  | take (q : Nat)
  /-- the pilot at `ecl` on a full queue (R385) -/
  | ecl (q : Nat)
  /-- `fence`, `bar` or `cbar` while its fence at a scope is not over (R176, R434) -/
  | fence (scope : Nat)
  /-- an acquire or a release on its way (R170, R171): its request, and the address after it -/
  | sync (req : Nat) (next : U64)
  /-- `bar` (false) or `cbar` (true), with the address after it (R434) -/
  | bar (cluster : Bool) (next : U64)
  /-- `tlw`: the engine context and the number waited for (R178) -/
  | timeline (eng : Nat) (n : U64)
  /-- `wbat` (R177) -/
  | batch (n : BitVec 32)
  /-- a Tideway operation that holds its group (R447) -/
  | tide (op : Nat)
  /-- an access that met a draining page of MIG 1, at an address (R83) -/
  | migrating (va : Nat)
  /-- parked at `yield` with PREQ set (R376) -/
  | yielded
  /-- waits for a record, a definition, a summary or a pilot access (R368, R429, R442, R460, R467) -/
  | read (pend : Nat)
  /-- the pilot in `hint` QWAIT or a fragment in SPIN, until this clk (R392) -/
  | spin (till : Nat) (qwait : Bool)
  deriving DecidableEq, Repr

/-- An entry of the split table (R121). -/
structure Entry where
  st     : EntryState
  mask   : LaneMask
  pc     : U64
  join   : Option U64
  pend   : Option U64
  parent : Option Nat
  srec   : Option Nat
  loss   : Nat
  park   : Option Park
  deriving DecidableEq, Repr

/-- A free entry. -/
def Entry.none : Entry :=
  { st := .free, mask := 0, pc := 0, join := .none, pend := .none, parent := .none, srec := .none,
    loss := 0, park := .none }

/-- A record of the serial pool (R121, R125). -/
structure Serial where
  used  : Bool
  entry : Nat
  smask : LaneMask
  pmask : LaneMask
  ppc   : U64
  sjoin : Option U64
  link  : Option Nat
  deriving DecidableEq, Repr

/-- An unused serial record. -/
def Serial.none : Serial :=
  { used := false, entry := 0, smask := 0, pmask := 0, ppc := 0, sjoin := .none, link := .none }

/-- A run as the pilot builds it and a queue holds it (R133, R135, R314): its words (with their
lengths), trailer, the pilot PC of the close, its sequence number and the clk of the close (R381). `overLong`
marks it over-long (R383). -/
structure RunRec where
  words   : List (Bool × BitVec 32)
  trailer : List Byte
  pc      : U64
  seq     : BitVec 32
  overLong : Bool
  born    : Nat
  deriving DecidableEq, Repr

/-- The empty open run. -/
def RunRec.none : RunRec := { words := [], trailer := [], pc := 0, seq := 0, overLong := false, born := 0 }

/-- The run a group is in (R107, R128-R131, R296): the fragment that runs it, the emitted run if it
came from a queue, the index of the next body word, w0-w7 (key 64 x index + lane), the replay point with
its copy of w0-w7, and for a static run the address of body word 0; `born` is the number that the next piece of work had when the run
began. -/
structure RunCtx where
  entry   : Nat
  emitted : Option RunRec
  idx     : Nat
  w       : Sparse 32
  point   : Nat
  pointPc : U64
  wCopy   : Sparse 32
  port    : Nat
  born    : Nat
  deriving DecidableEq, Repr

/-- A pending ROP report (R208, R315): FROP, ADDR and IPC, with the provenance of the run and the split entry that
issued the op. -/
structure RopReport where
  status : BitVec 8
  ropid  : BitVec 6
  gen    : BitVec 8
  fpol   : BitVec 2
  lane   : BitVec 6
  gidx   : BitVec 3
  gdone  : BitVec 4
  unit   : BitVec 10
  ukind  : Bool
  more   : BitVec 8
  addr   : BitVec 56
  ipc    : U64
  emitted : Bool
  seq    : BitVec 32
  epc    : U64
  widx   : Option (BitVec 5)
  entry  : Nat
  deriving DecidableEq, Repr

/-- Whether a group, pilot or handler executes. -/
inductive UnitState where
  | live      -- executes
  | stopped   -- stopped by a trap, its image written (R300, R303)
  | saved     -- its save image is written (R110)
  | gone      -- exited, or there is none (R126, R132, R138)
  deriving DecidableEq, Repr

/-- A register context with a split table: a group; also the handler slot, which has v0-v63, s0-s63 and
m0-m3 (R301), and the pilot, whose p0-p31 stand in `s` (R132). Vector lanes are keyed 64 x register + lane. -/
structure Grp where
  st     : UnitState
  split  : List Entry
  serial : List Serial
  v      : Sparse 32
  s      : Sparse 64
  m      : Sparse 64
  f      : Sparse 256
  d      : Sparse 512
  prio   : BitVec 4
  wdog   : BitVec 32
  wdcnt  : Nat
  preq   : Bool
  rgnc   : U64
  rgnPc  : U64
  drain  : Bool
  notag  : Bool
  batch  : BitVec 32
  run    : Option RunCtx
  rop    : Option RopReport
  age    : Nat
  stopAt : Option Nat      -- the clk of its forced stop, until its image is written (R310)
  deriving DecidableEq, Repr

/-- A register context that does not execute. -/
def Grp.none : Grp :=
  { st := .gone, split := [], serial := [], v := [], s := [], m := [], f := [], d := [], prio := 0,
    wdog := 0, wdcnt := 0, preq := false, rgnc := 0, rgnPc := 0, drain := false, notag := false,
    batch := 0, run := .none, rop := .none, age := 0, stopAt := .none }

/-- The fault registers of the handler slot (R307, R308). -/
structure FaultRegs where
  fcause : U64
  fpc    : U64
  faddr  : U64
  flanes : U64
  fprov  : U64
  fepc   : U64
  frop   : U64
  fimg   : U64
  frgn   : U64
  deriving DecidableEq, Repr

/-- All fault registers at their reset value (R307). -/
def FaultRegs.zero : FaultRegs :=
  { fcause := 0, fpc := 0, faddr := 0, flanes := 0, fprov := 0, fepc := 0, frop := 0, fimg := 0, frgn := 0 }

/-- A trap held behind the one in the handler, or entered (R303): the unit that raised it (a GID, or 17
for the pilot), the fault registers it loads, the split entry that trapped and the clk of the trap; once it has entered the
handler, the group's PREQ and TWST.NOTAG as they were then (R394). -/
structure Trapped where
  unit : Nat
  regs : FaultRegs
  entry : Nat
  born : Nat
  preq : Bool
  notag : Bool
  deriving DecidableEq, Repr

/-! ### Engines -/

/-- A command that an engine context has accepted (R270, R271). -/
structure Cmd where
  n      : Nat
  launch : Nat
  team   : Nat
  bytes  : List Byte
  deriving DecidableEq, Repr

/-- STATE of a copy's cursor block (R280). -/
inductive CopyPhase where
  | running | stopped
  deriving DecidableEq, Repr

/-- A node of a collective graph (R283). -/
structure Node where
  kind  : BitVec 8
  dep   : Nat
  ctr   : Nat
  peer  : Nat
  succ  : List Nat
  sbuf  : Nat
  dbuf  : Nat
  pctx  : Nat
  peng  : Nat
  rnode : Nat
  thr   : Nat
  soff  : Nat
  doff  : Nat
  len   : Nat
  deriving DecidableEq, Repr

/-- Where a node of a running graph stands (R285-R287). -/
inductive NodePhase where
  | waiting | started | armed | sending | ended
  deriving DecidableEq, Repr

/-- A node while its graph runs: its dependency count, phase, bytes sent or arrived, chunks (by TXN) sent and not yet answered, or taken
and not yet performed, and the failure it met. -/
structure NodeRun where
  d      : Nat
  phase  : NodePhase
  bytes  : Nat
  open_  : List Nat
  fail   : Option (BitVec 8)
  deriving DecidableEq, Repr

/-- A collective credit that is held (R288): its source package, RECV node, context and engine context. -/
structure Credit where
  peer : Nat
  node : Nat
  ctx  : Nat
  eng  : Nat
  deriving DecidableEq, Repr

/-- What an engine context is doing with its running command. `recs` are a copy's records as read at its start, `next` its
next element, `moved` that its cursor block is due; `nodes`, `graph`, `bases` and `ctr` are a graph run's. `fail` is the
first failure met, with its address; `fin` the status that the command completes with, `posted` that its completion block
is written. -/
structure Running where
  cmd   : Cmd
  recs  : List Byte
  next  : Nat
  moved : Bool
  nodes : List NodeRun
  graph : List Node
  bases : List U64
  ctr   : Sparse 32
  fail  : Option (BitVec 8 × Nat)
  fin   : Option (BitVec 8 × Nat)
  posted : Bool
  phase : CopyPhase
  deriving DecidableEq, Repr

/-- An engine context (R269, R271): a copy engine context of a team, a collective one or the seal one of
a context. `done` lists operations above the timeline that have completed. -/
structure Engine where
  id       : Nat
  timeline : Nat
  done     : List Nat
  next     : Nat
  queue    : List Cmd
  running  : Option Running
  graphs   : List (Nat × List Node)
  credits  : List Credit
  deriving DecidableEq, Repr

/-- An engine context as it starts (R269). -/
def Engine.fresh (id : Nat) : Engine :=
  { id := id, timeline := 0, done := [], next := 1, queue := [], running := .none, graphs := [], credits := [] }

/-- Where an instruction was issued (R137, R208): its PC (the `take` PC for a word of an emitted run), whether it is a word of an
emitted run with that run's SEQ and closing PC, its body word index in a run. -/
structure Origin where
  pc   : U64
  emitted : Bool
  seq  : BitVec 32
  epc  : U64
  widx : Option (BitVec 5)
  deriving DecidableEq, Repr

/-- An origin that is no instruction of a group. -/
def Origin.none : Origin := { pc := 0, emitted := false, seq := 0, epc := 0, widx := .none }

/-- A copy that a group issued with `xcp` (R281, R439): the records as read at issue, or a pattern; `rgnc` is RGNC as it was
then, which tells whether a replay can still re-issue the copy (R295). -/
structure GroupCopy where
  id    : Nat
  team  : Nat
  unit  : Nat
  entry : Nat
  rgnc  : U64
  org   : Origin
  src   : Option (BitVec 512)
  pat   : U64
  dst   : BitVec 512
  next  : Nat
  moved : Bool
  batch : Option (BitVec 32)
  deriving DecidableEq, Repr

/-! ### Teams -/

/-- A placed team (R90, R93, R139). -/
structure Team where
  uid     : Nat
  launch  : Nat
  tid     : Nat
  cluster : Nat
  ccol    : Nat
  crow    : Nat
  core    : Nat
  live    : Bool      -- dispatched
  partw   : BitVec 32
  groups  : List Grp
  handler : Grp
  pilot   : Grp
  pexit   : Bool
  openRun : RunRec
  queues  : List (List RunRec)
  taken   : List (Nat × Nat)   -- queue and clk of each run taken in this clk (R381)
  pseq    : BitVec 32
  copy    : Engine
  spad    : Sparse 8
  tiles   : Sparse 32
  index   : Option Nat    -- directory index held (R312)
  inTrap  : Option Trapped
  fregs   : FaultRegs   -- the fault registers as the last trap entry loaded them (R307)
  held    : List Trapped
  power   : Nat           -- power estimate in 100 mW (R95)
  charged : Bool          -- its charges last (R98)
  kept    : Bool          -- exited, scratchpad units kept (R148)
  ended   : Bool          -- exited or saved: holds no group slot any more
  share   : Nat           -- pool units held
  age     : Nat
  forced  : Bool          -- some group was forced (R312)
  resume  : Option Nat    -- the team image that it resumes from at dispatch (R115)
  stopCopy : Bool         -- its copy engine context stops after its chunk, for a save (R281)
  order   : List Nat      -- at a save, its trapped units in the order of their traps (R310)
  slots   : List Nat      -- the core's group slots that its groups hold (R90, R157)
  deriving DecidableEq, Repr

/-! ### Cores -/

/-- A stationary plane of the matrix unit (R314, R452): 8,192 bytes, its owner and recorded formats. -/
structure Plane where
  data  : Sparse 8
  owner : Option Nat
  bfmt  : BitVec 4
  bsgn  : Bool
  bblk  : BitVec 2
  kp    : BitVec 2
  deriving DecidableEq, Repr

/-- An unowned plane. -/
def Plane.none : Plane := { data := [], owner := .none, bfmt := 0, bsgn := false, bblk := 0, kp := 0 }

/-- What a queued tile operation does (R455-R462), with the records, origins and formats as read at issue. -/
inductive TileKind where
  | mld (front : Bool) (tr : BitVec 512) (origin : U64) (f : BitVec 256)
  | mswp
  | mmul (t : Nat) (z : Bool) (tr : BitVec 512) (origin : U64) (f : BitVec 256)
  | mzero (t : Nat)
  | mdrain (t : Nat) (clr : Bool) (code : Nat) (tr : BitVec 512) (origin : U64) (tbl : List Byte)
  | mrsum (t : Nat) (tr : BitVec 512) (origin : U64) (f : BitVec 256) (c : Lane)
  | msave (obj t : Nat) (va : U64)
  | mrest (obj t : Nat) (va : U64)
  deriving DecidableEq, Repr

/-- A tile operation in a core's matrix unit (R451), with RGNC of its group as it was at issue (R295). -/
structure TileOp where
  id    : Nat
  team  : Nat
  unit  : Nat
  entry : Nat
  rgnc  : U64
  org   : Origin
  kind  : TileKind
  batch : Option (BitVec 32)
  deriving DecidableEq, Repr

/-- Kinds of Tideway operation (R260). -/
inductive TideKind where
  | board | alight | catch_ | rwr (code : Nat) (ret : Bool)
  deriving DecidableEq, Repr

/-- An operation in a station's queue (R259, R262); `win` is the clk its window started. -/
structure TideOp where
  id    : Nat
  ctx   : Nat
  launch : Nat
  team  : Nat
  unit  : Nat
  entry : Nat
  kind  : TideKind
  tag   : BitVec 16
  off   : Nat
  x     : List Byte
  regA  : Nat
  regX  : Nat
  win   : Option Nat
  deriving DecidableEq, Repr

/-- What a core holds beside its teams: valid words of its L1 (key: context x 2^54 + VA / 4, bit 32 set) and the lines that
are allocated in it (key / 32, R150, R151), the units waiting to be zeroed, those that a retiring context still holds (context,
units; R46, R164), the station queue, the planes, the pending swap and the tile operations. -/
structure Core where
  l1      : Sparse 33
  lines   : List Nat
  zeroing : List Nat
  held    : List (Nat × Nat)
  station : List TideOp
  front   : Plane
  shadow  : Plane
  swap    : Bool
  tileQ   : List TileOp
  copies  : List GroupCopy
  copyTurn : List Nat   -- the copy engine's rotation: 16 x team for a team's context, 16 x copy + 1 for a group's copy (R281)
  pipes : List Nat      -- the clk from which each vector pipe accepts an instruction (R103)
  ports : List Nat      -- the clk from which each issue port issues again (R105)
  sfu   : Nat           -- the clk from which the SFU accepts an instruction (R408)
  deriving DecidableEq, Repr

/-- A core after reset: its SRAM is zeroed (R33). -/
def Core.fresh : Core :=
  { l1 := [], lines := [], zeroing := [], held := [], station := [], front := Plane.none, shadow := Plane.none, swap := false,
    tileQ := [], copies := [], copyTurn := [], pipes := [0, 0], ports := [0, 0], sfu := 0 }

/-! ### Launches -/

/-- A lease range or an export range: BASE, LENGTH and W (R53, R86). -/
structure Range where
  base : Nat
  len  : Nat
  w    : Bool
  deriving DecidableEq, Repr

/-- An export entry (R86). -/
structure Export where
  range : Range
  peer  : Nat
  ctx   : Nat
  deriving DecidableEq, Repr

/-- The fields of a launch record that outlive its checks (R51). -/
structure LaunchRec where
  progress : Nat
  sealOn   : Bool
  serial   : Bool
  prio     : BitVec 4
  vec      : Nat
  lane     : U64
  pilot    : U64
  trap     : U64
  features : BitVec 128
  gx       : Nat
  gy       : Nat
  gz       : Nat
  groups   : Nat
  clw      : Nat
  clh      : Nat
  partw    : BitVec 32
  deadline : Nat
  wdog     : BitVec 32
  bcores   : Nat
  bpower   : Nat
  bbw      : Nat
  ring     : Nat
  tag      : BitVec 32
  seed     : U64
  args     : U64
  cpl      : Nat
  sealPtr  : U64
  leases   : List Range
  regions  : List (Nat × Nat × Nat)   -- sync object, base, length (R54)
  deriving DecidableEq, Repr

/-- Where a launch stands. -/
inductive LaunchPhase where
  | lease       -- passed its checks, takes its lease (R75)
  | slots       -- waits for Tideway slots, or for their assignment (R56, R258)
  | running     -- its clusters are placed and run
  | parked      -- parked by a host pre-emption (R113)
  | evicted     -- parked, its slots evicted (R267)
  | finishing   -- grid ended, completion under way (R59)
  | done        -- completion record written
  deriving DecidableEq, Repr

/-- A cluster whose save images wait for resumption (R111, R115): its index, its teams' directory indices. -/
structure SavedCluster where
  k     : Nat
  teams : List (Nat × Nat)   -- TID, directory index
  done  : List Nat           -- TIDs of the cluster that had exited
  order : List (Nat × List Nat)  -- TID, its trapped units in the order of their traps (R310)
  since : Nat                -- time since which it waits (R92, R101)
  first : Bool               -- a RESUME places it before unplaced clusters (R115)
  deriving DecidableEq, Repr

/-- A pre-emption in progress (R109-R113): T0, the clusters targeted, whether the host asked (its
function), and what it has saved. -/
structure Preempt where
  t0      : Nat
  host    : Option Nat
  target  : List Nat
  saved   : Nat
  forced  : Nat
  deriving DecidableEq, Repr

/-- A launch (R50-R59). -/
structure Launch where
  id       : Nat
  ctx      : Nat
  fn       : Nat
  q        : Nat
  idx      : Nat
  lr       : LaunchRec
  phase    : LaunchPhase
  nextK    : Nat
  since    : Nat                 -- time since which its next cluster waits (R92)
  parked   : List SavedCluster
  doneN    : Nat                 -- TEAMS_DONE
  status   : BitVec 8
  info     : Nat                 -- FAULTINFO
  resumeTo : LaunchPhase         -- where a parked launch goes on (R113, R115)
  sealed   : Bool                -- its seal step is over (R59)
  sealSeq  : Nat
  block    : Option Nat          -- launch block (R311)
  dir      : List (Nat × Nat × Bool)  -- directory entries in use: index, TID, VALID (R312)
  slots    : List Nat            -- Tideway slots held (R258)
  ringSave : Nat                 -- ring save entries to board again (R267)
  pre      : Option Preempt
  winBytes : Nat                 -- bytes of the current 10 µs window (R94, R97)
  lastBytes : Nat                -- bytes of the last whole window
  deriving DecidableEq, Repr

/-! ### Contexts -/

/-- An entry of a context's opcode table (R188): its definition record and generation. -/
structure OpEntry where
  defn : Option (List Byte)
  gen  : BitVec 8
  deriving DecidableEq, Repr

/-- A resident context (R44, R188, R209, R269). -/
structure Ctx where
  id      : Nat
  fn      : Nat
  retiring : Bool
  retSeq  : Option Nat   -- the SEQ of the void seal its retirement made (R64)
  sweep   : Nat          -- when the slices have swept its lines (R164)
  byMail  : Bool         -- retired by CTX_RETIRE, which waits for the end (R42)
  voidBuf : Nat
  ccores  : Nat
  cpower  : Nat
  cbw     : Nat
  ringq   : Nat
  rootDesc : Nat
  table   : Nat
  exports : List Export
  key     : Nat
  ops     : List (Nat × OpEntry)
  skipped : BitVec 16
  poisoned : BitVec 16
  resets  : BitVec 16
  combined : BitVec 16
  coll    : List Engine
  sealEng : Engine
  deriving DecidableEq, Repr

/-- A seal that has been issued and not finished (R63): a launch's, or that of the pushed command with number `n`. -/
structure SealJob where
  id     : Nat
  ctx    : Nat
  launch : Nat
  cmd    : Bool
  n      : Nat
  desc   : Nat
  tag    : Nat          -- the launch's TAG; 0 for a pushed command
  head   : List Byte    -- the descriptor's first 64 bytes as a retirement finds them (R64)
  deriving DecidableEq, Repr

/-! ### Translation -/

/-- A translation of the lease translation store (R72): page base and log2 of its size, target frame,
leaf attributes, the draining mark (R79) and whether its peer was lost (R88). -/
structure Xlat where
  ctx    : Nat
  va     : Nat
  lg     : Nat
  frame  : Nat
  w      : Bool
  uam    : Bool
  mig    : Bool
  cmb    : Bool
  peer   : Option Nat
  drain  : Bool
  lost   : Bool
  deriving DecidableEq, Repr

/-- Phases of a translation request (R78-R82, R87). -/
inductive TrPhase where
  | queued | acks | confirm | final
  deriving DecidableEq, Repr

/-- A translation request in the part's hands (R78). -/
structure TrReq where
  id     : Nat
  fn     : Nat
  q      : Nat
  ctx    : Nat
  addr   : Nat
  op     : Nat
  vec    : Nat
  base   : Nat
  len    : Nat
  named  : List Nat        -- the peers that PEERS names
  peers  : List Nat        -- those of them that have not acknowledged
  frame  : Nat
  exps   : Option (List Export × List Xlat)  -- what EXPORTS has read and walked at its start (R82, R84)
  phase  : TrPhase
  status : BitVec 8
  deriving DecidableEq, Repr

/-- A CONFIRM that a peer asked of this package (R87). -/
structure PeerConfirm where
  id   : Nat
  peer : Nat
  base : Nat
  len  : Nat
  txn  : BitVec 32
  deriving DecidableEq, Repr

/-! ### Requests on their way -/

/-- Where an access is served (R71, R145, R154, R185). -/
inductive Tgt where
  | home (dpa : Nat) (uam cmb : Bool)
  | peer (p : Nat) (addr : Nat)
  | spad (team : Nat) (off : Nat)
  deriving DecidableEq, Repr

/-- What a request asks of its point of service. -/
inductive ReqKind where
  | fill (secs : List Nat)            -- a merging fill (R152): the offsets of its 32-byte sectors
  | read (secs : List Nat)            -- a read that bypasses L1: the offsets of its 32-byte sectors, or none for all of the span
  | write (bytes : List (Nat × Byte)) -- offsets from the span's start, and bytes
  | xadd (xs : List Lane)             -- X320 additions into a half-line, in order (R473)
  | acq | rel                         -- R170, R171
  deriving DecidableEq, Repr

/-- How far a request is. -/
inductive Phase where
  | sent | waiting | served
  deriving DecidableEq, Repr

/-- One request to one point of service: a span of one line. `tag` names the issued instruction; `out` says that the coalescer
has sent it (R97, R157); `also` are further addresses by which the instruction reads the same span (R231). -/
structure Req where
  id    : Nat
  tag   : Nat
  team  : Nat
  unit  : Nat
  core  : Nat
  ctx   : Nat
  va    : Nat
  also  : List Nat
  n     : Nat
  tgt   : Tgt
  kind  : ReqKind
  clr   : List Nat        -- words of the span that a clear touched since it was sent (R152)
  out   : Bool
  phase : Phase
  data  : List Byte
  deriving DecidableEq, Repr

/-- Counter classes (R174). -/
inductive Cls where
  | load | store | copy | tile | rop | none
  deriving DecidableEq, Repr

/-- Instruction bytes that a peer, or the channel of an update-at-memory line, has sent for a party (R85, R155): the address they were asked for, the request's tag until they have
come, the bytes, and the status of a request that failed. -/
structure FetchBuf where
  team  : Nat
  unit  : Nat
  entry : Nat
  at_   : Nat
  tag   : Nat
  bytes : List Byte
  bad   : BitVec 8
  deriving DecidableEq, Repr

/-- What happens when every request of an instruction has returned. -/
inductive PendAct where
  | lanes (d n : Nat)          -- loads of `n` bytes into v[d]
  | uniform (d : Nat)          -- `sld`
  | stores                     -- stores: nothing but the counter
  | block (d : Nat)            -- `fmt`
  | record (d : Nat)           -- `dld`
  | define (d id : Nat)        -- `rdef`: the record has to be read
  -- `rdef` and `rdel`: units drop the old definition of generation `gen`
  | defining (d id : Nat) (old : Option (List Byte)) (gen : BitVec 8) (result : U64)
  | summary (i : Instr) (mask : LaneMask)  -- a summary instruction whose reads are out
  | table (op : TileOp)               -- `mdrain` with its requantisation table
  | remote (ret : Bool) (d n : Nat)   -- remote ops: counted once per instruction; the registers a return marks
  | prefetch
  | fetch                     -- instruction bytes of a peer page (R85)
  | round (d : Nat) (v : Bool)        -- `xrnd`: half-lines into v[d]
  -- reads from peers that a tile operation or an engine waits for, and the status of one that failed
  | hold (owner : Nat) (err : Option (BitVec 8))
  deriving DecidableEq, Repr

/-- An issued instruction with requests out: its number among those of its group (R157), its class, its per-lane accesses (lane, address) and the
bytes returned so far, by address; `bad` are spans that came back with a status (R88, R204). -/
structure Pend where
  tag   : Nat
  itag  : Nat
  team  : Nat
  unit  : Nat
  entry : Nat
  cls   : Cls
  act   : PendAct
  lanes : List (Nat × Nat)
  got   : Sparse 9            -- byte at an address, bit 8 set
  batch : Option (BitVec 32)
  org   : Origin
  bad   : List (Nat × Nat × BitVec 8)
  deriving DecidableEq, Repr

/-- One granule of a remote-op request (R186). -/
structure Gran where
  va    : Nat
  size  : Nat
  tgt   : Tgt
  x     : List Byte
  src   : Option Tgt          -- the source summary of ids 13-15
  phase : Phase
  sent  : Bool
  txn   : Nat           -- of its message to a peer
  status : BitVec 8
  ret   : List Byte
  arr   : Nat                 -- arrival order at its unit
  deriving DecidableEq, Repr

/-- One lane's remote-op request (R186, R425); `out` says that the coalescer has sent its instruction (R97, R157). -/
structure Rop where
  id    : Nat
  tag   : Nat
  out   : Bool
  team  : Nat
  unit  : Nat
  core  : Nat
  ctx   : Nat
  lane  : Nat
  op    : Nat
  gen   : BitVec 8
  ret   : Bool
  fpol  : Nat
  d     : Nat
  rb    : Nat
  grans : List Gran
  ipc   : U64
  emitted : Bool
  seq   : BitVec 32
  epc   : U64
  widx  : Option (BitVec 5)
  deriving DecidableEq, Repr

/-- A remote op that a peer sent (R210): what the answer needs, and the granule. -/
structure PeerRop where
  id    : Nat
  peer  : Nat
  ctx   : Nat
  op    : Nat
  defn  : List Byte
  ret   : Bool
  txn   : BitVec 32
  addr  : Nat
  gran  : Gran
  deriving DecidableEq, Repr

/-- The first part of a two-part remote op, until the second arrives (R210). -/
structure HalfMsg where
  msg : Msg
  deriving DecidableEq, Repr

/-- A combining-buffer entry or a visitor partial (R196-R199): the slice that holds it and the line. -/
structure Comb where
  id    : Nat
  slice : Nat
  line  : Nat
  ctx   : Nat
  launch : Nat            -- of the request that made it, for the traffic of its merge (R94)
  op    : Nat
  gen   : BitVec 8
  defn  : List Byte       -- the definition it was folded under
  part_ : List Byte
  born  : Nat
  deriving DecidableEq, Repr

/-- An acquire on a peer that a forced stop withdrew before its answer was here (R184): its request, whose it was, the object, and whether
the peer's grant has come since. -/
structure KeptAcq where
  id     : Nat
  launch : Nat
  gid    : Nat
  tid    : Nat
  peer   : Nat
  addr   : Nat
  came   : Bool
  deriving DecidableEq, Repr

/-- A BAR4 access that has arrived and not completed (R39): its function, the context and address that the aperture registers gave
it then, its bytes, what it writes, and whether it has met an uncorrectable error. -/
structure BarReq where
  id   : Nat
  fn   : Nat
  ctx  : Nat
  va   : Nat
  n    : Nat
  wr   : Option (List Byte)
  bad  : Bool
  deriving DecidableEq, Repr

/-! ### Memory and channels -/

/-- Power state of a pseudo-channel (R159). -/
inductive Power where
  | active | powerDown | selfRefresh
  deriving DecidableEq, Repr

/-- Whose requests make a tuple at a pseudo-channel (R158): an issued instruction's, by its tag; or a tuple of its own: an acquire or
a release, a line that is written back, a granule of a CUU or of an update unit, a unit's or an engine's piece of work, a BAR4 access,
a peer's request, a party's instruction fetch, the merge of a held contribution, the tables of a launch record. -/
inductive Asker where
  | instr (tag : Nat)
  | req (id : Nat)
  | line (ctx line : Nat)
  | gran (op k : Nat)
  | work (owner : Nat)
  | bar (id : Nat)
  | peer (p txn : Nat)
  | fetch (team unit entry : Nat)
  | comb (id : Nat)
  | table (fn q : Nat)
  deriving DecidableEq, Repr

/-- A tuple at a pseudo-channel (R157, R158): whose it is; for an instruction's the core, the group's slot and the instruction's
number; the sectors that are bound for the channel. For a tuple of its own, the clk in which it was last asked for, and, where it
fills a slice, the context, the line and the sectors. -/
structure Tuple where
  who   : Asker
  core  : Nat
  gslot : Nat
  itag  : Nat
  nsec  : Nat
  seen  : Nat
  ctx   : Nat
  line  : Nat
  secs  : List Nat
  deriving DecidableEq, Repr

/-- A pseudo-channel and its CUU (R158-R163): the tuples that it serves, in order of their first request's arrival; power
state, the clk its idle timer counts from, a pending entry, the waking time, the remote op in progress with the clk it took
its lock, and the clk of the last commit or end. -/
structure Chan where
  pch    : Nat
  queue  : List Tuple
  power  : Power
  idle   : Nat
  entry  : Option Power
  wake   : Option Nat
  busy   : Option (Nat × Nat × Nat)   -- remote op, granule, clk of the lock
  last   : Nat
  deriving DecidableEq, Repr

/-- A line that its home slice holds (R155): address / 128, the context it is tagged with and that context's key, a valid and a
dirty bit for each 32-byte sector, the 128 bytes, the words (by address / 4) that were poisoned when it was filled, the launch
that wrote it last, and whether it has been evicted and waits to be written back. -/
structure L2Line where
  line  : Nat
  ctx   : Nat
  key   : Nat
  valid : BitVec 4
  dirty : BitVec 4
  data  : List Byte
  bad   : List Nat
  by_   : Nat
  out   : Bool
  deriving DecidableEq, Repr

/-- Memory of the package and of the host: DRAM, the lines in the L2 slices, host memory. `key` gives the key number under which
each listed line was last written (R45); `poison` lists poisoned words by address / 4 (R203). -/
structure Mem where
  dev    : Memory
  key    : List (Nat × Nat)
  poison : List Nat
  l2     : List L2Line
  host   : Memory
  deriving DecidableEq, Repr

/-! ### The Tideway -/

/-- A slot that is assigned (R257, R258): header fields, payload and the launch that holds it. -/
structure Slot where
  n      : Nat
  occ    : Bool
  ctx    : Nat
  tag    : BitVec 16
  payload : BitVec 512
  launch : Nat
  asg    : Bool     -- false until the slot passes the junction
  rel    : Bool     -- released, until it passes a junction
  evict  : Bool     -- to be alighted by the harbour die as it passes a junction (R267)
  deriving DecidableEq, Repr

/-- The ring: its clock t (R256) and the slots that are assigned; RING_EVICT in progress, as function and launch, with the
slots that the harbour die has alighted for it (R267). -/
structure Ring where
  on    : Bool
  t     : Nat
  slots : List Slot
  evicting : List (Nat × Nat)
  alit  : List Slot
  deriving DecidableEq, Repr

/-! ### Package, links and host functions -/

/-- A Ruond link (R20, R21, R27). `unacked` is the replay buffer, `waiting` holds messages that a full replay buffer, or the limit
of class 4, keeps back. -/
structure Link where
  state    : BitVec 2
  farPeer  : BitVec 6
  heard    : Bool              -- a far end has reported FARPEER since reset
  enable   : Bool
  downEv   : Bool
  lostEv   : Bool
  proto    : BitVec 16
  epochs   : BitVec 32
  epoch    : BitVec 32
  sendCnt  : Nat
  recvCnt  : Nat
  unacked  : List (Nat × Msg)
  waiting  : List Msg
  discards : List Nat          -- times of the discards within the last 1 ms
  sentAt   : Nat               -- time of the last frame sent (R28)
  deriving DecidableEq, Repr

/-- A link after reset, with the re-key count `e` that a warm reset keeps (R27, R32). -/
def Link.fresh (e : BitVec 32) : Link :=
  { state := 0, farPeer := 0, heard := false, enable := false, downEv := false, lostEv := false, proto := 0, epochs := e,
    epoch := 0, sendCnt := 0, recvCnt := 0, unacked := [], waiting := [], discards := [], sentAt := 0 }

/-- DEVSTATUS.STATE (R38). -/
inductive DevState where
  | bringUp | ready | recovery | tripped
  deriving DecidableEq, Repr

/-- The package's own registers: DEVSTATUS (R38), the clock (R16, R17), measurement (R34), the seal
counter (R62), peers and links (R24, R27), CHPWR (R161), the scheduler's last die (R91). -/
structure Dev where
  state    : DevState
  failSlot : BitVec 3
  trip     : Bool
  level    : Nat
  gate     : Nat               -- G = 1 / 2^gate
  stepped  : Option Nat        -- the time of the last step of the clock level or of G (R16)
  slots    : List (List Byte)
  extLog   : List (Nat × List Byte)
  loads    : List (BitVec 2 × List Byte)  -- digests of images that firmware has still to load, by slot - 4 (R34)
  sealSeq  : Nat
  keyNext  : Nat               -- key numbers given out (R44)
  peerId   : BitVec 6
  route    : Sparse 16
  links    : List Link
  heard    : List (Nat × Nat)  -- peer, time of the last frame from it (R28)
  lost     : List Nat          -- peers declared lost and not trained again
  pdt      : BitVec 12
  srt      : BitVec 16
  cuurst   : BitVec 16
  lastDie  : Nat
  hold     : Option Nat        -- the launch whose cluster has waited 1 ms (R92)
  deriving DecidableEq, Repr

/-- A queue's register block (R48), the context bound to it, the launches not yet started and its
translation requests come from `Launch` and `TrReq`. -/
structure Queue where
  base   : Nat
  logn   : Nat
  enable : Bool
  head   : Nat
  tail   : Nat
  err    : Bool
  ctx    : Option Nat
  deriving DecidableEq, Repr

/-- A queue after reset (R48). -/
def Queue.fresh : Queue :=
  { base := 0, logn := 0, enable := false, head := 0, tail := 0, err := false, ctx := .none }

/-- A host function: BAR0 registers, mailbox and queues (R37, R39, R42), what a waiting CTX_CREATE has read of its root descriptor
(table, exports, walked pages; R67), and what VF_CONFIG gave it (R43). -/
structure Fn where
  apCtx   : Nat
  apOn    : Bool
  apBase  : Nat
  cmd     : List Byte
  running : Bool
  result  : List Byte
  root    : Option (Nat × List Export × List Xlat)
  queues  : List Queue
  maxCtx  : Nat
  rings   : Nat
  deriving DecidableEq, Repr

/-- A function after reset. -/
def Fn.fresh : Fn :=
  { apCtx := 0, apOn := false, apBase := 0, cmd := List.replicate 64 0, running := false,
    result := List.replicate 64 0, root := .none, queues := List.replicate 16 Queue.fresh, maxCtx := 0, rings := 0 }

/-- What the part has sent to the outside, newest first. -/
inductive Emission where
  /-- a message on a Ruond link (R22, R25) -/
  | link (n : Nat) (m : Msg)
  /-- an acquire or release to a sync object on a peer: request, peer, address, release? -/
  | sync (req peer addr : Nat) (rel : Bool)
  /-- word to a peer that an acquire sent there is withdrawn (R184, R310) -/
  | syncDrop (req peer addr : Nat)
  /-- a request for replay on a link, from a frame counter on (R21) -/
  | replay (n fcnt : Nat)
  /-- at training on a link: this package's peer id, and whether it accepts the far end's (R24) -/
  | training (n : Nat) (peerId : BitVec 6) (accept : Bool)
  /-- an MSI-X message (R60) -/
  | msix (fn vec : Nat)
  /-- the completion of a BAR4 read: data, and whether it is poisoned (R39) -/
  | barData (fn : Nat) (data : List Byte) (ep : Bool)
  /-- Unsupported Request, with an AER log entry (R39) -/
  | unsupported (fn : Nat)
  /-- a configuration request answered (true), or retried (R33) -/
  | config (ok : Bool)
  deriving DecidableEq, Repr

/-! ### Who issues, and what stands ready -/

/-- A party that issues instructions: a team's group (unit 0-15), handler slot (16) or pilot (17), and the
split-table entry. -/
structure Party where
  team  : Nat
  unit  : Nat
  entry : Nat
  deriving DecidableEq, Repr

/-- The instruction being executed: its party, its address, the address after it (for a word of an emitted
run, the address of the `take` and the address after that), how many body words it takes in a run (R128), and its issue port (R103). -/
structure Issuer where
  p    : Party
  at_  : U64
  next : U64
  words : Nat
  port : Nat
  deriving DecidableEq, Repr

/-- An event that stands ready: one of the rows of the step table that have no encoding. `step` runs it
with the same meaning that `exec` gives the row. -/
inductive Ev where
  | coldReset (b : BringUp)
  | warmReset (b : BringUp)
  | functionLevelReset (fn : Nat)
  | thermalTripHold
  | thermtrip (below90 : Bool) (b : BringUp)
  | clockLevelStep (avgW maxTemp : Nat) (windowCool windowHot : Bool)
  | powerWindowEnd (means : List (Nat × Nat)) (hot : Bool)
  | bandwidthWindow
  | pcieConfigRequest
  | registerWrite (fn off : Nat) (val : BitVec 64)
  | bar4Read (fn off n : Nat)
  | bar4Write (fn off : Nat) (data : List (BitVec 8))
  | queueRegisterWrite (fn q off : Nat) (val : BitVec 64)
  | doorbell (fn q off : Nat) (v : BitVec 64)
  | chpwrWrite (val : BitVec 64)
  | linkEnable (n : Nat) (en : Bool)
  | ctxCreate (fn : Nat)
  | ctxCreateResume (fn : Nat)
  | ctxRetire (fn : Nat)
  | queueBind (fn : Nat)
  | vfConfig (fn : Nat)
  | attest (fn : Nat)
  | certRead (fn : Nat)
  | preempt (fn : Nat)
  | resume (fn : Nat)
  | ringEvict (fn : Nat)
  | drain (tr : Nat)
  | confirm (tr : Nat)
  | migrate (tr : Nat)
  | exportsRequest (tr : Nat)
  | translationRequestDone (tr : Nat)
  | linkTraining (n : Nat) (farId : BitVec 6) (farAccepts : Bool)
  | linkFailure (n : Nat)
  | frameDiscard (n : Nat)
  | replayRequest (n fcnt : Nat)
  | rekey (n : Nat)
  | heartbeatTimer (n : Nat)
  | readRequest (m : Msg)
  | writeRequest (m : Msg)
  | readResponse (m : Msg)
  | writeAcknowledgement (m : Msg)
  | remoteOpNoReturn (m : Msg)
  | remoteOpWithReturn (m : Msg)
  | remoteOpResponse (m : Msg)
  | collectiveChunk (m : Msg)
  | collectiveCredit (m : Msg)
  | translationDrain (m : Msg)
  | translationConfirm (m : Msg)
  | peerConfirmComplete (pc : Nat)
  | translationAcknowledgement (m : Msg)
  | resetNotice (m : Msg)
  | powerDownNotice (m : Msg)
  | heartbeat (m : Msg)
  | peerLossTimeout (peer : Nat)
  | launchRecord (fn q : Nat)
  | takeLease (l : Nat)
  | slotAssignment (l : Nat)
  | clusterPlacement (l : Nat)
  | oldestClusterHold
  | poolZeroing (core : Nat)
  | dispatch (team : Nat)
  | parallelPreemption (l : Nat)
  | cooperativeSave (team g : Nat)
  | forcedSave (team g : Nat)
  | gridCompletion (l : Nat)
  | sealRecord (sl : Nat)
  | watchdog (team g : Nat)
  | waitingEntryActivation (team g e : Nat)
  | serialStep (team g e : Nat)
  | homeAccess (op : Nat)
  | mergingFillReturn (op : Nat)
  | loadCompletion (op : Nat)
  | storePerformed (op : Nat)
  | tileOpCompletion (core : Nat)
  | migrating (team g : Nat)
  | replay (team g : Nat)
  | softError (team g : Nat)
  | memUncorrectable (l : Nat)
  | taskEnd (l : Nat) (why : TaskEnd)
  | remoteOpApply (op k : Nat) (resid : Nat)
  | ropStatusReturn (op k : Nat)
  | combiningAgeOut (e : Nat)
  | lockLapse (pch : Nat)
  | cuuWatchdog (pch : Nat)
  | idleTimer (pch : Nat)
  | channelPowerEntry (pch : Nat)
  | channelWake (pch : Nat)
  | slotPass (core : Nat)
  | junctionPass (slot : Nat)
  | notag (core tid : Nat)
  | copy (eng : Nat)
  | fill (eng : Nat)
  | chunkEnd (eng : Nat)
  | gload (eng : Nat)
  | grun (eng : Nat)
  | nodeCompletion (eng node : Nat)
  | seal (eng : Nat)
  | acquireGrant (op : Nat)
  | releaseAcknowledged (op : Nat)
  | barrierCompletion (team : Nat) (cluster : Bool)
  | timelineReached (team g e : Nat)
  | batchComplete (team g e : Nat)
  | counterWaitEnd (team g e : Nat)
  | takeWake (team g e : Nat)
  | eclStallEnd (team : Nat)
  | unassignedEncoding (why : BadWord)
  | forcedSaveReplay (team g : Nat)
  | rdefCompletion (op : Nat)
  | retirementSweepEnd (ctx : Nat)
  | recordReadReturn (op : Nat)
  deriving DecidableEq, Repr

/-- Events that stand ready. `now` come first, in order, as consequences of the step before; `issue` are
parties selected in this clk, with
their ports; `due` may come in any order; `inputs` are the outside's, in order;
`later` become `now` at the next clk edge; `issued` are the cores and pilots that have issued in this clk. -/
structure Events where
  now    : List Ev
  issue  : List (Party × Nat)
  due    : List Ev
  inputs : List Ev
  later  : List Ev
  issued : List Nat
  pilots : List Nat
  deriving DecidableEq, Repr

/-- The whole package. `time` counts real time in units of 16 / (3 × 720720) ns, which divide the clk period
of every clock level of R16; `tick` counts steps, and `free` the free values used up. -/
structure State where
  dev      : Dev
  fns      : List Fn
  ctxs     : List Ctx
  xl       : List Xlat
  trs      : List TrReq
  pcs      : List PeerConfirm
  launches : List Launch
  seals    : List SealJob
  teams    : List Team
  cores    : List (Nat × Core)
  mem      : Mem
  reqs     : List Req
  pends    : List Pend
  fetches  : List FetchBuf
  kept     : List KeptAcq        -- acquires on peers that were withdrawn (R184)
  bwWait   : List (Nat × Bool)    -- requests that a window's bandwidth holds (R97), by tag or piece of work, and whether they may go
  bars     : List BarReq
  rops     : List Rop
  peerRops : List PeerRop
  halves   : List HalfMsg
  inbox    : List Msg            -- requests of peers that have arrived and wait (R83)
  combs    : List Comb
  chans    : List Chan
  ring     : Ring
  out      : List Emission
  ev       : Events
  cur      : Option Issuer
  clk      : Nat
  time     : Nat
  tick     : Nat
  nextId   : Nat
  free     : Nat
  deriving DecidableEq, Repr

/-- A pseudo-channel after reset: active, its timer at 0. -/
def Chan.fresh (pch : Nat) : Chan :=
  { pch := pch, queue := [], power := .active, idle := 0, entry := .none, wake := .none, busy := .none, last := 0 }

/-- The package's registers at the release of a reset that keeps THERMTRIP and the re-key counts, before
step 1 of the bring-up of R33. -/
def Dev.fresh (trip : Bool) (epochs : List (BitVec 32)) : Dev :=
  { state := .bringUp, failSlot := 0, trip := trip, level := 0, gate := 0, stepped := none,
    slots := List.replicate 8 (List.replicate 48 0), extLog := [], loads := [], sealSeq := 1, keyNext := 0, peerId := 0,
    route := [], links := epochs.map Link.fresh, heard := [], lost := [], pdt := 16, srt := 256, cuurst := 0,
    lastDie := 3, hold := none }

/-- No event stands ready. -/
def Events.none : Events :=
  { now := [], issue := [], due := [], inputs := [], later := [], issued := [], pilots := [] }

/-- The package at the release of a cold reset (R32, R38): every register at the value the manual gives for
reset, nothing resident, no program loaded, the bring-up of R33 still to come. Only the physical function
is there; it may hold all 64 contexts and all Tideway slots. -/
def State.reset : State :=
  { dev := Dev.fresh false (List.replicate 16 0),
    fns := { Fn.fresh with maxCtx := 64, rings := 2176 } :: [],
    ctxs := [], xl := [], trs := [], pcs := [], launches := [], seals := [], teams := [], cores := [],
    mem := { dev := [], key := [], poison := [], l2 := [], host := [] },
    reqs := [], pends := [], fetches := [], kept := [], bwWait := [], bars := [], rops := [], peerRops := [], halves := [], inbox := [], combs := [],
    chans := (List.range 512).map Chan.fresh, ring := { on := false, t := 0, slots := [], evicting := [], alit := [] },
    out := [], ev := Events.none, cur := .none, clk := 0, time := 0, tick := 0, nextId := 1, free := 0 }

/-- Why the machine stops with a fault. -/
inductive Fault where
  /-- raised by the meaning of an encoded instruction when no live party of the state is issuing it: the
  model's own, no step of a run reaches it. Safe. -/
  | noIssuer
  deriving DecidableEq, Repr

/-- Why an instruction is refused. -/
inductive Refusal where
  /-- raised by `exec` for a row of the step table that has no meaning yet. Safe. -/
  | notModelled (mnemonic : String)
  deriving DecidableEq, Repr

/-- The outcome of one step. -/
abbrev Out := Host.Outcome State Fault Refusal

end Sys2Proof.Machine
end

