-- ==== Sys2Proof/Machine/Access.lean ====
section
/-!
DEFINITION. Reading and updating the parts of the state by name: teams and their register contexts,
split-table entries, cores, contexts, launches, functions, channels; fresh numbers, free values, events
and emissions.
-/

namespace Sys2Proof.Machine

/-- The team with a uid. -/
def State.team? (s : State) (u : Nat) : Option Team := s.teams.find? (·.uid == u)

/-- Update the team with a uid. -/
def State.updTeam (s : State) (u : Nat) (f : Team → Team) : State :=
  { s with teams := mapIf (·.uid == u) f s.teams }

/-- The register context of a unit of a team: a group (0-15), the handler slot (16), the pilot (17). -/
def Team.grp (t : Team) (unit : Nat) : Grp :=
  if unit = 16 then t.handler else if unit = 17 then t.pilot else t.groups.getD unit Grp.none

/-- Update the register context of a unit. -/
def Team.updGrp (t : Team) (unit : Nat) (f : Grp → Grp) : Team :=
  if unit = 16 then { t with handler := f t.handler }
  else if unit = 17 then { t with pilot := f t.pilot }
  else { t with groups := modAt t.groups unit f }

/-- The register context of a unit of the team with a uid. -/
def State.grp (s : State) (u unit : Nat) : Grp :=
  match s.team? u with
  | some t => t.grp unit
  | none => Grp.none

/-- Update it. -/
def State.updGrp (s : State) (u unit : Nat) (f : Grp → Grp) : State := s.updTeam u (·.updGrp unit f)

/-- Entry `e` of a split table (R121); free where the table has none. -/
def Grp.entry (g : Grp) (e : Nat) : Entry := g.split.getD e Entry.none

/-- Update entry `e`. -/
def Grp.updEntry (g : Grp) (e : Nat) (f : Entry → Entry) : Grp := { g with split := modAt g.split e f }

/-- The split-table entry of a party. -/
def State.entry (s : State) (p : Party) : Entry := (s.grp p.team p.unit).entry p.entry

/-- Update the split-table entry of a party. -/
def State.updEntry (s : State) (p : Party) (f : Entry → Entry) : State :=
  s.updGrp p.team p.unit (·.updEntry p.entry f)

/-- Move a party's PC. -/
def State.setPc (s : State) (p : Party) (pc : U64) : State := s.updEntry p fun e => { e with pc := pc }

/-- Park a party, or wake it. -/
def State.setPark (s : State) (p : Party) (k : Option Park) : State := s.updEntry p fun e => { e with park := k }

/-- A core; a core that nothing has touched is fresh. -/
def State.core (s : State) (c : Nat) : Core :=
  match s.cores.find? (·.1 == c) with
  | some e => e.2
  | none => Core.fresh

/-- Put a core's new contents into the list, which is kept in order of core number. -/
def putCore : List (Nat × Core) → Nat → Core → List (Nat × Core)
  | [], c, x => [(c, x)]
  | (a, y) :: t, c, x =>
    if c < a then (c, x) :: (a, y) :: t else if c = a then (c, x) :: t else (a, y) :: putCore t c x

/-- Update a core. -/
def State.updCore (s : State) (c : Nat) (f : Core → Core) : State :=
  { s with cores := putCore s.cores c (f (s.core c)) }

/-- The context with an id. -/
def State.ctx? (s : State) (c : Nat) : Option Ctx := s.ctxs.find? (·.id == c)

/-- Update a context. -/
def State.updCtx (s : State) (c : Nat) (f : Ctx → Ctx) : State := { s with ctxs := mapIf (·.id == c) f s.ctxs }

/-- The key number of a context's memory key (R44). -/
def State.keyOf (s : State) (c : Nat) : Nat :=
  match s.ctx? c with
  | some x => x.key
  | none => 0

/-- The launch with an id. -/
def State.launch? (s : State) (l : Nat) : Option Launch := s.launches.find? (·.id == l)

/-- Update a launch. -/
def State.updLaunch (s : State) (l : Nat) (f : Launch → Launch) : State :=
  { s with launches := mapIf (·.id == l) f s.launches }

/-- The launch of a team. -/
def State.launchOf (s : State) (u : Nat) : Option Launch :=
  match s.team? u with
  | some t => s.launch? t.launch
  | none => none

/-- The context id of a team; 0 when there is no such team. -/
def State.ctxOf (s : State) (u : Nat) : Nat :=
  match s.launchOf u with
  | some l => l.ctx
  | none => 0

/-- The id of a team's launch; 0 when there is no such team. -/
def State.launchIdOf (s : State) (u : Nat) : Nat :=
  match s.team? u with
  | some t => t.launch
  | none => 0

/-- The core of a team. -/
def State.coreOf (s : State) (u : Nat) : Nat :=
  match s.team? u with
  | some t => t.core
  | none => 0

/-- A host function. -/
def State.fn (s : State) (f : Nat) : Fn := s.fns.getD f Fn.fresh

/-- Update a host function. -/
def State.updFn (s : State) (f : Nat) (g : Fn → Fn) : State := { s with fns := modAt s.fns f g }

/-- A queue of a function. -/
def State.queue (s : State) (f q : Nat) : Queue := (s.fn f).queues.getD q Queue.fresh

/-- Update a queue. -/
def State.updQueue (s : State) (f q : Nat) (g : Queue → Queue) : State :=
  s.updFn f fun x => { x with queues := modAt x.queues q g }

/-- A pseudo-channel. -/
def State.chan (s : State) (p : Nat) : Chan := s.chans.getD p (Chan.fresh p)

/-- Update a pseudo-channel. -/
def State.updChan (s : State) (p : Nat) (f : Chan → Chan) : State := { s with chans := modAt s.chans p f }

/-- A link. -/
def State.link (s : State) (n : Nat) : Link := s.dev.links.getD n (Link.fresh 0)

/-- Update a link. -/
def State.updLink (s : State) (n : Nat) (f : Link → Link) : State :=
  { s with dev := { s.dev with links := modAt s.dev.links n f } }

/-- Take a fresh number for a request, a team or another piece of work. -/
def State.bump (s : State) : State := { s with nextId := s.nextId + 1 }

/-- Use up `n` free values. -/
def State.draw (s : State) (n : Nat) : State := { s with free := s.free + n }

/-- Events that follow at once, after those already there. -/
def State.post (s : State) (es : List Ev) : State := { s with ev := { s.ev with now := s.ev.now ++ es } }

/-- Events that may come from now on, in any order. -/
def State.pending (s : State) (es : List Ev) : State := { s with ev := { s.ev with due := s.ev.due ++ es } }

/-- Events that follow at the next clk edge. -/
def State.nextClk (s : State) (es : List Ev) : State := { s with ev := { s.ev with later := s.ev.later ++ es } }

/-- Send something to the outside. -/
def State.emit (s : State) (e : Emission) : State := { s with out := e :: s.out }

/-- The outcome of a step that goes on. -/
def ok (s : State) : Out := .next s

/-- The trapped unit in the handler of a team, if any. -/
def State.inTrap (s : State) (u : Nat) : Option Trapped :=
  match s.team? u with
  | some t => t.inTrap
  | none => none

/-- The lanes of a group that have not exited (R126): the lanes of its entries and of their serial records. -/
def Grp.lanes (g : Grp) : LaneMask :=
  let a := g.split.foldl (fun m e => match e.st with
    | .free => m
    | _ => m ||| e.mask) (0 : LaneMask)
  g.serial.foldl (fun m r => if r.used then m ||| r.smask else m) a

end Sys2Proof.Machine
end

