-- ==== Sys2Proof/Machine/Mem.lean ====
section
/-!
DEFINITION. Address translation and raw memory: page-table walks in host memory (R66-R69), the lease
translation store (R72), leases and their misses (R75, R76), homes and pseudo-channels (R154), device
memory under context keys (R45).
-/

namespace Sys2Proof.Machine

/-! ### Homes -/

/-- The die of a device physical address (R154). -/
def dieOf (dpa : Nat) : Nat := bits dpa 37 2

/-- The pseudo-channel, and CUU, of a device physical address (R154). -/
def pchOf (dpa : Nat) : Nat :=
  let c7 := bits dpa 10 7 ^^^ bits dpa 17 7
  (dieOf dpa * 2 + c7 / 64) * 64 + c7 % 64

/-- The slice index within a die (R154). -/
def s7Of (dpa : Nat) : Nat := bits dpa 7 7 ^^^ bits dpa 14 7 ^^^ bits dpa 21 7

/-- The home slice (R154). -/
def homeOf (dpa : Nat) : Nat := dieOf dpa * 128 + s7Of dpa

/-! ### Device memory under keys -/

/-- The key number under which a line was last written. -/
def keyAt : List (Nat × Nat) → Nat → Option Nat
  | [], _ => none
  | (a, k) :: t, l => if l = a then some k else if l < a then none else keyAt t l

/-- Record that a line is written under a key. -/
def putKey : List (Nat × Nat) → Nat → Nat → List (Nat × Nat)
  | [], l, k => [(l, k)]
  | (a, x) :: t, l, k =>
    if l < a then (l, k) :: (a, x) :: t else if l = a then (l, k) :: t else (a, x) :: putKey t l k

/-- The byte that a line written under key `k0` reads as under key `k` (R45): it is ciphertext, so free. -/
def foreignByte (k0 k dpa : Nat) : Byte := Config.freeByte (k0 * 4294967296 + k) dpa

/-- One byte of device memory as key `k` reads it. -/
def Mem.byte (m : Mem) (k dpa : Nat) : Byte :=
  match keyAt m.key (dpa / 128) with
  | none => sget m.dev dpa
  | some k0 => if k0 = k then sget m.dev dpa else foreignByte k0 k dpa

/-- `n` bytes of device memory as key `k` reads them. -/
def Mem.read (m : Mem) (k dpa : Nat) : Nat → List Byte
  | 0 => []
  | n + 1 => m.byte k dpa :: m.read k (dpa + 1) n

/-- Take a line over for key `k`: under a new key its bytes become what that key reads. -/
def Mem.own (m : Mem) (k line : Nat) : Mem :=
  match keyAt m.key line with
  | some k0 =>
    if k0 = k then m
    else { m with dev := ssets m.dev (pairsFrom (line * 128) (m.read k (line * 128) 128)),
                  key := putKey m.key line k }
  | none => { m with key := putKey m.key line k }

/-- Write one byte of device memory under key `k`. -/
def Mem.put (m : Mem) (k dpa : Nat) (b : Byte) : Mem :=
  let m := m.own k (dpa / 128)
  { m with dev := sset m.dev dpa b }

/-- Write bytes of device memory under key `k`. -/
def Mem.write (m : Mem) (k dpa : Nat) : List Byte → Mem
  | [] => m
  | b :: t => (m.put k dpa b).write k (dpa + 1) t

/-- Record that `n` lines from `lo` are written under key `k`. -/
def putKeys (keys : List (Nat × Nat)) (lo n k : Nat) : List (Nat × Nat) :=
  (keys.filter fun e => e.1 < lo) ++ (upto lo n).map (fun l => (l, k)) ++ keys.filter fun e => lo + n ≤ e.1

/-- Empty the bytes from `dpa` over `n` bytes, and take their lines over for key `k`. -/
def Mem.clear (m : Mem) (k dpa n : Nat) : Mem :=
  if n = 0 then m else
  let lo := dpa / 128
  let hi := (dpa + n - 1) / 128
  let m := (m.own k lo).own k hi
  { m with dev := skeep m.dev (fun a => !(dpa ≤ a && a < dpa + n)), key := putKeys m.key lo (hi - lo + 1) k }

/-- The non-zero bytes from `dpa` over `n` bytes as key `k` reads them, by offset. -/
def Mem.span (m : Mem) (k dpa n : Nat) : Sparse 8 :=
  let inside := fun a => dpa ≤ a && a < dpa + n
  let foreign := (m.key.filter fun e => e.2 != k && dpa < (e.1 + 1) * 128 && e.1 * 128 < dpa + n).map (·.1)
  let own := (m.dev.filter fun e => inside e.1 && !foreign.contains (e.1 / 128)).map fun e => (e.1 - dpa, e.2)
  ssets own (foreign.flatMap fun l =>
    ((pairsFrom (l * 128) (m.read k (l * 128) 128)).filter fun e => inside e.1).map fun e => (e.1 - dpa, e.2))

/-- Whether one of the words from `dpa` over `n` bytes is poisoned (R203). -/
def Mem.poisoned (m : Mem) (dpa n : Nat) : Bool :=
  m.poison.any fun w => dpa ≤ w * 4 + 3 && w * 4 < dpa + n

/-- Poison the words from `dpa` over `n` bytes (R204). -/
def Mem.taint (m : Mem) (dpa n : Nat) : Mem :=
  { m with poison := m.poison ++ ((upto (dpa / 4) (ceilDiv n 4)).filter fun w => !m.poison.contains w) }

/-- Clear the poison of the words that lie wholly in a written span (R204). -/
def Mem.cure (m : Mem) (dpa n : Nat) : Mem :=
  { m with poison := m.poison.filter fun w => !(dpa ≤ w * 4 && w * 4 + 4 ≤ dpa + n) }

/-! ### Host memory -/

/-- `n` bytes of host memory. -/
def State.hostRead (s : State) (a n : Nat) : List Byte := sgets s.mem.host a n

/-- Write bytes of host memory. -/
def State.hostWrite (s : State) (a : Nat) (bs : List Byte) : State :=
  { s with mem := { s.mem with host := ssets s.mem.host (pairsFrom a bs) } }

/-- A number of `n` bytes in host memory (R5). -/
def State.hostNat (s : State) (a n : Nat) : Nat := leNat (s.hostRead a n)

/-! ### Walks -/

/-- The leaf `e` found for `va` at a page of 2^`lg` bytes, or a failed walk (R68-R70). -/
def leafOf (s : State) (ctx va e lg : Nat) : Option Xlat :=
  let peer := bit e 6
  let frame := bits e 16 40 * 65536
  let pid := bits e 8 6
  if bit e 7 || bits e 14 2 != 0 || bits e 56 8 != 0 then none
  else if !peer && pid != 0 then none
  else if frame % 2 ^ lg != 0 then none
  else if !peer && 2 ^ 39 ≤ frame then none
  else if peer && (bit e 3 || pid == s.dev.peerId.toNat) then none
  else some { ctx := ctx, va := va / 2 ^ lg * 2 ^ lg, lg := lg, frame := frame, w := bit e 2, uam := bit e 3,
              mig := bit e 4, cmb := bit e 5, peer := if peer then some pid else none, drain := false, lost := false }

/-- The next table's address in a non-leaf entry, which must be aligned to `align` (R68, R69). -/
def nextTable (e align : Nat) : Option Nat :=
  let a := bits e 8 56 * 256
  if bits e 2 6 != 0 || a % align != 0 then none else some a

/-- A walk of a context's tables (R66-R69). -/
def State.walk (s : State) (ctx table va : Nat) : Option Xlat :=
  if 2 ^ 56 ≤ va then none else
  let e3 := s.hostNat (table + 8 * bits va 43 13) 8
  if !bit e3 0 || bit e3 1 then none else
  match nextTable e3 65536 with
  | none => none
  | some t2 =>
    let e2 := s.hostNat (t2 + 8 * bits va 30 13) 8
    if !bit e2 0 then none else if bit e2 1 then leafOf s ctx va e2 30 else
    match nextTable e2 4096 with
    | none => none
    | some t1 =>
      let e1 := s.hostNat (t1 + 8 * bits va 21 9) 8
      if !bit e1 0 then none else if bit e1 1 then leafOf s ctx va e1 21 else
      match nextTable e1 256 with
      | none => none
      | some t0 =>
        let e0 := s.hostNat (t0 + 8 * bits va 16 5) 8
        if !bit e0 0 || !bit e0 1 then none else leafOf s ctx va e0 16

/-- A walk of the tables of the context with an id. -/
def State.walkCtx (s : State) (ctx va : Nat) : Option Xlat :=
  match s.ctx? ctx with
  | some c => s.walk ctx c.table va
  | none => none

/-- Walk every page from `va` to before `stop`; the pages found, or none when one walk fails. -/
def State.walkRange (s : State) (ctx table : Nat) : Nat → Nat → Nat → Option (List Xlat)
  | 0, _, _ => some []
  | fuel + 1, va, stop =>
    if stop ≤ va then some [] else
    match s.walk ctx table va with
    | none => none
    | some x =>
      match s.walkRange ctx table fuel (x.va + 2 ^ x.lg) stop with
      | none => none
      | some l => some (x :: l)

/-- Whether a translation covers an address of its context. -/
def Xlat.covers (x : Xlat) (ctx va : Nat) : Bool := x.ctx == ctx && x.va ≤ va && va < x.va + 2 ^ x.lg

/-- Whether two translations are of one page of one context. -/
def Xlat.same (x y : Xlat) : Bool := x.ctx == y.ctx && x.va == y.va && x.lg == y.lg

/-- The translation that the store holds for an address (R72). -/
def State.stored (s : State) (ctx va : Nat) : Option Xlat := s.xl.find? (·.covers ctx va)

/-- Put translations into the store, one per page (R72). -/
def State.store (s : State) (l : List Xlat) : State :=
  { s with xl := l.foldl (fun xs x => if xs.any (·.same x) then xs else xs ++ [x]) s.xl }

/-- Where an address of a translated page is served (R70, R85). -/
def Xlat.target (x : Xlat) (va : Nat) : Tgt :=
  match x.peer with
  | some p => .peer p (x.frame + (va - x.va))
  | none => .home (x.frame + (va - x.va)) x.uam x.cmb

/-! ### Leases -/

/-- What translating one address of a launch answers (R71, R76, R83, R88). -/
inductive Tr where
  | ok (t : Tgt)
  | miss                -- LEASE_MISS
  | lost                -- PEER_LOST
  | drain (mig : Bool)  -- a draining page
  | double              -- the handler slot's own launch block, where no image can be (R311)
  | absent              -- instruction bytes that have to be brought first (R85, R155)
  | bad (st : BitVec 8) -- instruction bytes that came with a status (R88, R204)
  deriving DecidableEq, Repr

/-- Whether an address lies in a lease range of a launch, writable if asked (R76); the save area is outside every one (R311). -/
def LaunchRec.covers (r : LaunchRec) (va : Nat) (wr : Bool) : Bool :=
  (va < Config.saveBase || Config.saveEnd < va) && r.leases.any fun g => g.base ≤ va && va < g.base + g.len && (!wr || g.w)

/-- The base address of launch block `b` (R311). -/
def blockBase (b : Nat) : Nat := Config.saveBase + b * 2 ^ 36

/-- Whether an address lies in the launch block that a launch holds (R311). -/
def Launch.inBlock (l : Launch) (va : Nat) : Bool :=
  match l.block with
  | some b => blockBase b ≤ va && va < blockBase b + 2 ^ 36
  | none => false

/-- A save-area page as the harbour die walks it (R311): mapped, writable and local. -/
def State.savePage (s : State) (ctx va : Nat) : Option Nat :=
  match s.walkCtx ctx va with
  | none => none
  | some x => if x.w && x.peer.isNone then some (x.frame + (va - x.va)) else none

/-! ### Routes (R25) -/

/-- The links to a peer that are up, in increasing number (R25). -/
def State.linksTo (s : State) (p : Nat) : List Nat :=
  (upto 0 16).filter fun n => (sget s.dev.route p).getLsbD n && (s.link n).state == 2

/-- Whether a peer can be reached: some link is up and it is not lost (R25, R28). -/
def State.peerUp (s : State) (p : Nat) : Bool := !(s.linksTo p).isEmpty && !s.dev.lost.contains p

/-- The translation of an address of a context: the store's, or, where CONFIRM has discarded it, a fresh walk (R72, R80),
which brings back no peer that cannot be reached (R88). -/
def State.lookup (s : State) (ctx va : Nat) : Option Xlat :=
  match s.stored ctx va with
  | some x => some x
  | none => (s.walkCtx ctx va).map fun x =>
      match x.peer with
      | some p => { x with lost := !s.peerUp p }
      | none => x

/-- The pages that the store lacks: a page whose peer was lost comes back with a new walk (R88). -/
def State.newPages (s : State) (pages : List Xlat) : List Xlat := pages.filter fun p => !s.xl.any fun x => x.same p && !x.lost

/-- Whether the store has room for pages (R72, R75); a translation to a lost peer takes none (R88). -/
def State.roomFor (s : State) (pages : List Xlat) : Bool :=
  (s.xl.filter fun x => !x.lost).length + ((s.newPages pages).filter fun x => !x.lost).length ≤ Config.storeSize

/-- A walk of a covered page fills the store (R72), which holds no more than its size. -/
def State.keepXlat (s : State) (x : Xlat) : State := if x.lost || !s.roomFor [x] then s else s.store [x]

/-- Put the walk of an address into the store, if a lease of the launch covers the address and the store lacks it (R72, R80). -/
def State.warm (s : State) (l : Launch) (va : Nat) : State :=
  if 2 ^ 56 ≤ va || !l.lr.covers va false || (s.stored l.ctx va).isSome then s else
  match s.lookup l.ctx va with
  | some x => s.keepXlat x
  | none => s

/-- Translate an address for a launch (R71, R76). -/
def State.translate (s : State) (l : Launch) (va : Nat) (wr : Bool) : Tr :=
  if 2 ^ 56 ≤ va || !l.lr.covers va wr then .miss else
  match s.lookup l.ctx va with
  | none => .miss
  | some x =>
    if x.lost then .lost
    else if x.drain then .drain x.mig
    else if wr && !x.w then .miss
    else .ok (x.target va)

/-- Translate for a party: the handler slot also reaches its launch's block of the save area (R301, R311). -/
def State.translateFor (s : State) (u unit va : Nat) (wr : Bool) : Tr :=
  match s.launchOf u with
  | none => .miss
  | some l =>
    if unit == 16 && l.inBlock va then
      match s.savePage l.ctx va with
      | some dpa => .ok (.home dpa false false)
      | none => .double
    else s.translate l va wr

end Sys2Proof.Machine
end

