-- ==== Sys2Proof/Machine/Sfu.lean ====
section
/-!
DEFINITION. The special functions (R406, R407): each result is the exact mathematical value rounded once.
Algebraic functions are computed from exact quotients and square roots; transcendental ones from series in
fixed point with 640 fraction bits, far past the point where any FP32 input could still be in doubt.
-/

namespace Sys2Proof.Machine

/-- Fraction bits of the fixed-point series. -/
def fxP : Nat := 640
/-- 1, π and ln 2 in that fixed point. -/
def fxOne : Int := 2 ^ fxP
def fxPi : Int := 0x3243F6A8885A308D313198A2E03707344A4093822299F31D0082EFA98EC4E6C89452821E638D01377BE5466CF34E90C6CC0AC29B7C97C50DD3F84D5B5B54709179216D5D98979FB1BD1310BA698DFB5AC
def fxLn2 : Int := 0xB17217F7D1CF79ABC9E3B39803F2F6AF40F343267298B62D8A0D175B8BAAFA2BE7B876206DEBAC98559552FB4AFA1B10ED2EAE35C138214427573B291169B8253E96CA16224AE8C51ACBDA11317C387E

/-- Product and quotient in fixed point. -/
def fxMul (a b : Int) : Int := a * b / fxOne
def fxDiv (a b : Int) : Int := a * fxOne / b

/-- The sum of a series: `t` is the next term, `k` its number, `f` makes the term after it. -/
def series (f : Nat → Int → Int) : Nat → Nat → Int → Int → Int
  | 0, _, _, acc => acc
  | fuel + 1, k, t, acc => if t = 0 then acc else series f fuel (k + 1) (f k t) (acc + t)

/-- e^x in fixed point, for |x| below 1. -/
def fxExp (x : Int) : Int := series (fun k t => fxMul t x / (k + 1)) 200 0 fxOne 0

/-- sin x and cos x in fixed point, for |x| below 1. -/
def fxSin (x : Int) : Int :=
  let x2 := fxMul x x
  series (fun k t => -(fxMul t x2 / ((2 * k + 2) * (2 * k + 3)))) 200 0 x 0
def fxCos (x : Int) : Int :=
  let x2 := fxMul x x
  series (fun k t => -(fxMul t x2 / ((2 * k + 1) * (2 * k + 2)))) 200 0 fxOne 0

/-- The odd powers of z over their exponents: atanh z, for z up to 1/3. -/
def fxAtanh (z : Int) : Int :=
  let z2 := fxMul z z
  (upto 0 220).foldl (fun (p : Int × Int) (k : Nat) => (p.1 + p.2 / (2 * (k : Nat) + 1), fxMul p.2 z2)) (0, z) |>.1

/-- floor √n, one bit of the root at a time from bit `b` down. -/
def isqrtFrom (n : Nat) : Nat → Nat → Nat
  | 0, r => r
  | b + 1, r =>
    let c := r + 2 ^ b
    isqrtFrom n b (if c * c ≤ n then c else r)

/-- floor √n. -/
def isqrt (n : Nat) : Nat := isqrtFrom n (Nat.log2 n / 2 + 1) 0

/-- Round a fixed-point result that is not exact: x × 2^(-P) × 2^e with more bits below (x is not 0). -/
def Fmt.ofFx (f : Fmt) (x : Int) (e : Int) : Nat :=
  if x < 0 then f.pack 0 true (x.natAbs - 1) (e - fxP) true else f.pack 0 false x.natAbs (e - fxP) true

/-- A value just below (-1)^neg × m × 2^e in magnitude, and one just above. -/
def Fmt.below (f : Fmt) (neg : Bool) (m : Nat) (e : Int) : Nat := f.pack 0 neg (m * 2 ^ 64 - 1) (e - 64) true
def Fmt.above (f : Fmt) (neg : Bool) (m : Nat) (e : Int) : Nat := f.pack 0 neg (m * 2 ^ 64) (e - 64) true

/-- The power of two of a magnitude m × 2^e: its leading bit stands at 2^this. -/
def topExp (m : Nat) (e : Int) : Int := e + Nat.log2 m

/-- m × 2^e in fixed point, bits below dropped. -/
def toFx (neg : Bool) (m : Nat) (e : Int) : Int := signed neg (shiftNat m (e + fxP))

/-- 1 / a. -/
def Fmt.rcp (f : Fmt) (a : Nat) : Nat :=
  match f.dec a with
  | .nan => f.nan
  | .inf n => if n then f.sign else 0
  | .fin n m e =>
    if m = 0 then (if n then f.sign else 0) + f.inf
    else
      let k := 2 ^ (Nat.log2 m + 80)
      f.pack 0 n (k / m) (-(Nat.log2 m + 80 : Nat) - e) (k % m != 0)

/-- √a. -/
def Fmt.sqrt (f : Fmt) (a : Nat) : Nat :=
  match f.dec a with
  | .nan => f.nan
  | .inf n => if n then f.nan else f.inf
  | .fin n m e =>
    if m = 0 then (if n then f.sign else 0) else if n then f.nan
    else
      let (m, e) := if e % 2 = 0 then (m, e) else (2 * m, e - 1)
      let x := m * 2 ^ 80
      let r := isqrt x
      f.pack 0 false r (e / 2 - 40) (r * r != x)

/-- 1 / √a. -/
def Fmt.rsq (f : Fmt) (a : Nat) : Nat :=
  match f.dec a with
  | .nan => f.nan
  | .inf n => if n then f.nan else 0
  | .fin n m e =>
    if m = 0 then (if n then f.sign else 0) + f.inf else if n then f.nan
    else
      let (m, e) := if e % 2 = 0 then (m, e) else (2 * m, e - 1)
      let k := 2 * (Nat.log2 m + 60)
      let r := isqrt (2 ^ k / m)
      f.pack 0 false r (-(e / 2) - (k / 2 : Nat)) (r * r * m != 2 ^ k)

/-- 2^x for a fixed-point x that is not an integer: 2^floor x × e^(frac x × ln 2). -/
def Fmt.pow2Fx (f : Fmt) (x : Int) : Nat :=
  let k := x / fxOne
  f.ofFx (fxExp (fxMul (x % fxOne) fxLn2)) k

/-- 2^a. -/
def Fmt.exp2 (f : Fmt) (a : Nat) : Nat :=
  match f.dec a with
  | .nan => f.nan
  | .inf n => if n then 0 else f.inf
  | .fin n m e =>
    if m = 0 then f.enc 0 (.fin false 1 0)
    else if 12 ≤ topExp m e then (if n then 0 else f.inf)
    else if topExp m e < -60 then (if n then f.below false 1 0 else f.above false 1 0)
    else
      let x := toFx n m e
      if x % fxOne = 0 then f.pack 0 false 1 (x / fxOne) false else f.pow2Fx x

/-- log2 a. -/
def Fmt.log2 (f : Fmt) (a : Nat) : Nat :=
  match f.dec a with
  | .nan => f.nan
  | .inf n => if n then f.nan else f.inf
  | .fin n m e =>
    if m = 0 then f.sign + f.inf else if n then f.nan
    else
      let t := topExp m e
      if m = 2 ^ Nat.log2 m then f.ofInt 0 t
      else
        let y := toFx false m (-(Nat.log2 m : Int))
        let l := fxDiv (2 * fxAtanh (fxDiv (y - fxOne) (y + fxOne))) fxLn2
        f.ofFx (l + t * fxOne) 0

/-- The remainder of x by π/2 nearest to 0, in fixed point, and the quadrant; x = m × 2^e with a sign. -/
def reduce (neg : Bool) (m : Nat) (e : Int) : Int × Int :=
  -- exact x scaled by 2^(P); π is extended by scaling x instead: both are taken at P bits below the point
  let half := fxPi / 2
  let x := toFx neg m e
  let q := (2 * x + half) / (2 * half)
  (x - q * half, q % 4)

/-- sin and cos through the remainder by π/2: `shift` is 0 for sin and 1 for cos. -/
def Fmt.trig (f : Fmt) (neg : Bool) (m : Nat) (e : Int) (shift : Int) : Nat :=
  let (r, q) := reduce neg m e
  let q := (q + shift) % 4
  let y := if q % 2 = 0 then fxSin r else fxCos r
  f.ofFx (if 2 ≤ q then -y else y) 0

/-- sin a, in radians. -/
def Fmt.sin (f : Fmt) (a : Nat) : Nat :=
  match f.dec a with
  | .nan => f.nan
  | .inf _ => f.nan
  | .fin n m e =>
    if m = 0 then a % (2 * f.sign)
    else if topExp m e < -40 then f.below n m e else f.trig n m e 0

/-- cos a. -/
def Fmt.cos (f : Fmt) (a : Nat) : Nat :=
  match f.dec a with
  | .nan => f.nan
  | .inf _ => f.nan
  | .fin n m e =>
    if m = 0 then f.enc 0 (.fin false 1 0)
    else if topExp m e < -40 then f.below false 1 0 else f.trig n m e 1

/-- tanh a. -/
def Fmt.tanh (f : Fmt) (a : Nat) : Nat :=
  match f.dec a with
  | .nan => f.nan
  | .inf n => f.enc 0 (.fin n 1 0)
  | .fin n m e =>
    if m = 0 then a % (2 * f.sign)
    else if topExp m e < -40 then f.below n m e
    else if 5 ≤ topExp m e then f.below n 1 0
    else
      let t := fxDiv (2 * toFx false m e) fxLn2
      let y := fxExp (fxMul (t % fxOne) fxLn2) * 2 ^ (t / fxOne).toNat
      let r := fxDiv (y - fxOne) (y + fxOne)
      f.ofFx (if n then -r else r) 0

end Sys2Proof.Machine
end

