-- ==== Sys2Proof/Machine/Summary.lean ====
section
/-!
DEFINITION. Mergeable summaries (R232-R254): the key hash, distinct-count registers (DCR), heavy-hitter lists
(HHL) and quantile sketches (QSK), as functions of their bytes.
-/

namespace Sys2Proof.Machine

/-- The kinds of summary (R232). -/
inductive SumKind where
  | dcr | hhl | qsk
  deriving DecidableEq, Repr

/-- The size, and the alignment, of a kind (R232). -/
def SumKind.size : SumKind → Nat
  | .dcr => 256
  | .hhl => 256
  | .qsk => 1024

/-! ### The key hash and the coin (R235, R236) -/

/-- H64 (R235). -/
def h64 (k : BitVec 64) : BitVec 64 :=
  let x := k ^^^ 0x5A3C9E11D24B7F63#64
  let x := (x ^^^ (x >>> 31)) * 0xC2B46E19A5F30D8B#64
  let x := (x ^^^ (x >>> 29)) * 0x8F1D3A674BE9C255#64
  x ^^^ (x >>> 32)

/-- The coin's next state (R236); the bit drawn is its bit 0. -/
def coinStep (s : BitVec 64) : BitVec 64 :=
  let s := s ^^^ (s <<< 13)
  let s := s ^^^ (s >>> 7)
  s ^^^ (s <<< 17)

/-- The coin that a seed gives (R236). -/
def coinSeed (seed : BitVec 64) : BitVec 64 := if h64 seed = 0 then 1 else h64 seed

/-! ### DCR (R237-R240) -/

/-- A bucket as every operation reads it (R233). -/
def bucket (b : Byte) : Nat := min b.toNat 57

/-- The bucket and the rank of a key (R238). -/
def dcrBucket (k : BitVec 64) : Nat := (h64 k).toNat / 2 ^ 56
def dcrRank (k : BitVec 64) : Nat :=
  let x := (h64 k).toNat % 2 ^ 56
  if x = 0 then 57 else 56 - Nat.log2 x

/-- Insert a key (R238); every bucket is written back from 0 to 57 (R233). -/
def dcrInsert (bs : List Byte) (k : BitVec 64) : List Byte :=
  modAt (bs.map fun b => BitVec.ofNat 8 (bucket b)) (dcrBucket k) fun b => BitVec.ofNat 8 (max (bucket b) (dcrRank k))

/-- Merge two DCRs (R239). -/
def dcrMerge (h g : List Byte) : List Byte :=
  List.zipWith (fun a b => BitVec.ofNat 8 (max (bucket a) (bucket b))) h g

/-- ln(256 / v) for v from 1 to 256, rounded to FP32 (R240). -/
def lnRatio (v : Nat) : Nat :=
  if v = 256 then 0
  else
    let t := 8 - Nat.log2 v
    let y := 2 ^ (fxP + Nat.log2 v) / v   -- in (1/2, 1], so that 256 / v = y × 2^t
    let z := fxDiv ((y : Int) - fxOne) ((y : Int) + fxOne)
    fp32.ofFx (2 * fxAtanh z + (t : Int) * fxLn2) 0

/-- The estimate (R240). -/
def dcrEstimate (bs : List Byte) : Nat :=
  let z := bs.foldl (fun z b => fp32.fadd 0 z ((127 - bucket b) * 2 ^ 23)) 0
  let v := (bs.filter (· == 0)).length
  let e := match fp32.dec z with
    | .fin _ m x =>
      if m = 0 then fp32.inf
      else fp32.pack 0 false (47072 * 2 ^ 60 / m) (-60 - x) (47072 * 2 ^ 60 % m != 0)
    | _ => fp32.nan
  if e ≤ 0x44200000 && 0 < v then
    (let l := lnRatio v
     if l = 0 then 0 else l + 8 * 2 ^ 23)
  else e

/-! ### HHL (R241-R244) -/

/-- An entry of an HHL. -/
structure HhlEntry where
  key   : Nat
  count : Nat
  err   : Nat
  deriving DecidableEq, Repr

/-- A heavy-hitter list (R241). -/
structure Hhl where
  total   : Nat
  entries : List HhlEntry
  deriving DecidableEq, Repr

/-- The order of entries: COUNT descending, then KEY ascending (R241). -/
def HhlEntry.before (a b : HhlEntry) : Bool := b.count < a.count || (a.count == b.count && a.key < b.key)

/-- Put an element into its place in a list kept in an order. -/
def insertBy {α : Type} (lt : α → α → Bool) (x : α) : List α → List α
  | [] => [x]
  | y :: t => if lt y x then y :: insertBy lt x t else x :: y :: t

/-- Sort a list; equal elements keep their order. -/
def sortBy {α : Type} (lt : α → α → Bool) (l : List α) : List α := l.foldr (insertBy lt) []

/-- Whether every element stands before the next. -/
def rising {α : Type} (lt : α → α → Bool) : List α → Bool
  | a :: b :: t => lt a b && rising lt (b :: t)
  | _ => true

/-- Sat32 and the saturation of 64-bit totals. -/
def sat32 (x : Nat) : Nat := min x (2 ^ 32 - 1)
def sat64 (x : Nat) : Nat := min x (2 ^ 64 - 1)

/-- Read an HHL; none when it is malformed (R241). -/
def hhlOf (bs : List Byte) : Option Hhl :=
  let n := field bs 1 1
  let es := (upto 0 n).map fun i =>
    { key := field bs (0x10 + 12 * i) 4, count := field bs (0x14 + 12 * i) 4, err := field bs (0x18 + 12 * i) 4 : HhlEntry }
  let keys := sortBy (fun (a b : Nat) => a < b) (es.map (·.key))
  if field bs 0 1 = 2 && n ≤ 20 && field bs 2 6 = 0 && rising HhlEntry.before es &&
      rising (fun (a b : Nat) => a < b) keys && es.all (fun e => 1 ≤ e.count && e.err ≤ e.count) &&
      zeros (bs.drop (0x10 + 12 * n)) then
    some { total := field bs 8 8, entries := es }
  else none

/-- The 256 bytes of an HHL (R241). -/
def Hhl.bytes (h : Hhl) : List Byte :=
  let es := h.entries.flatMap fun e => leBytes 4 e.key ++ leBytes 4 e.count ++ leBytes 4 e.err
  [2, BitVec.ofNat 8 h.entries.length] ++ leBytes 6 0 ++ leBytes 8 h.total ++ es ++ List.replicate (240 - es.length) 0

/-- The least COUNT of a full list, 0 of any other (R243). -/
def Hhl.floor (h : Hhl) : Nat :=
  if h.entries.length = 20 then h.entries.foldl (fun m e => min m e.count) (2 ^ 32) else 0

/-- Insert key `k` with weight `w` (R242). -/
def Hhl.insert (h : Hhl) (k w : Nat) : Hhl :=
  if w = 0 then h else
  let total := sat64 (h.total + w)
  let es :=
    if h.entries.any (·.key == k) then
      mapIf (fun e => e.key == k) (fun e => { e with count := sat32 (e.count + w) }) h.entries
    else if h.entries.length < 20 then h.entries ++ [{ key := k, count := w, err := 0 }]
    else
      let c := h.floor
      let j := (h.entries.filter fun e => e.count == c).foldl (fun m e => min m e.key) (2 ^ 32)
      mapIf (fun e => e.key == j) (fun e => { key := k, count := sat32 (e.count + w), err := e.count }) h.entries
  { total := total, entries := sortBy HhlEntry.before es }

/-- The count and the error of a key as a list knows it (R243). -/
def Hhl.look (h : Hhl) (k : Nat) : Nat × Nat :=
  match h.entries.find? (·.key == k) with
  | some e => (e.count, e.err)
  | none => (h.floor, h.floor)

/-- Merge `g` into `h` (R243). -/
def Hhl.merge (h g : Hhl) : Hhl :=
  let hk := h.entries.map (·.key)
  let keys := hk ++ (g.entries.map (·.key)).filter fun k => !hk.contains k
  let es := keys.map fun k =>
    { key := k, count := sat32 ((h.look k).1 + (g.look k).1), err := sat32 ((h.look k).2 + (g.look k).2) : HhlEntry }
  { total := sat64 (h.total + g.total), entries := (sortBy HhlEntry.before es).take 20 }

/-! ### QSK (R245-R249) -/

/-- CAP and the first slot's offset of a level (R245). -/
def qskCap (l : Nat) : Nat := [64, 48, 36, 28, 22, 18, 16, 16].getD l 0
def qskOff (l : Nat) : Nat := [0x020, 0x120, 0x1E0, 0x270, 0x2E0, 0x338, 0x380, 0x3C0].getD l 0

/-- A quantile sketch: the items of each level as FP32 encodings (R245). -/
structure Qsk where
  nans   : Nat
  n      : Nat
  coin   : BitVec 64
  levels : List (List Nat)
  deriving DecidableEq, Repr

/-- Whether an FP32 encoding is a NaN. -/
def isNan32 (x : Nat) : Bool := fp32.inf < x % 2 ^ 31

/-- Read a QSK; none when it is malformed (R245). -/
def qskOf (bs : List Byte) : Option Qsk :=
  let cnt := fun l => field bs (8 + l) 1
  let levels := (upto 0 8).map fun l => (upto 0 (cnt l)).map fun i => field bs (qskOff l + 4 * i) 4
  if field bs 0 1 = 3 && field bs 1 3 = 0 && (upto 0 8).all (fun l => cnt l < qskCap l &&
        zeros (slice bs (qskOff l + 4 * cnt l) (4 * (qskCap l - cnt l)))) &&
      levels.all (fun l => l.all fun x => !isNan32 x) && field bs 0x10 8 != 0 then
    some { nans := field bs 4 4, n := field bs 0x18 8, coin := BitVec.ofNat 64 (field bs 0x10 8), levels := levels }
  else none

/-- Level `l`. -/
def Qsk.level (h : Qsk) (l : Nat) : List Nat := h.levels.getD l []

/-- The 1,024 bytes of a QSK (R245). -/
def Qsk.bytes (h : Qsk) : List Byte :=
  [3, 0, 0, 0] ++ leBytes 4 h.nans ++ (upto 0 8).map (fun l => BitVec.ofNat 8 (h.level l).length) ++
    leBytes 8 h.coin.toNat ++ leBytes 8 h.n ++
    (upto 0 8).flatMap fun l =>
      let b := (h.level l).flatMap (leBytes 4)
      b ++ List.replicate (4 * qskCap l - b.length) 0

/-- The Sort order of R246 as a number: -∞ first, -0 before +0. -/
def sortKey (x : Nat) : Int := if 2 ^ 31 ≤ x then -(x % 2 ^ 31 : Nat) - 1 else (x : Int)

/-- Every other element of a list, from the first. -/
def evens {α : Type} : List α → List α
  | [] => []
  | [x] => [x]
  | x :: _ :: t => x :: evens t

/-- Append with the compactions it brings (R246); `fuel` is how many levels there are from `l` on. -/
def Qsk.append : Nat → Qsk → Nat → Nat → Qsk
  | 0, h, _, _ => h
  | fuel + 1, h, l, x =>
    let items := h.level l ++ [x]
    if items.length < qskCap l then { h with levels := modAt h.levels l fun _ => items }
    else
      let y := sortBy (fun a b => sortKey a < sortKey b) items
      let c := coinStep h.coin
      let keep := evens (if c.getLsbD 0 then y.drop 1 else y)
      let h := { h with coin := c, levels := modAt h.levels l fun _ => if l < 7 then [] else keep }
      if l < 7 then keep.foldl (fun h x => h.append fuel (l + 1) x) h else h

/-- Insert an FP32 value (R247). -/
def Qsk.insert (h : Qsk) (x : Nat) : Qsk :=
  if isNan32 x then { h with nans := sat32 (h.nans + 1) }
  else { h with n := sat64 (h.n + 1) }.append 8 0 x

/-- Merge `g` into `h` (R248). -/
def Qsk.merge (h g : Qsk) : Qsk :=
  let m := (upto 0 8).foldl (fun h l => (g.level l).foldl (fun h x => h.append (8 - l) l x) h) h
  { m with n := sat64 (h.n + g.n), nans := sat32 (h.nans + g.nans) }

/-- The held items with their weights, in Sort order (R249). -/
def Qsk.items (h : Qsk) : List (Nat × Nat) :=
  sortBy (fun a b => sortKey a.1 < sortKey b.1) ((upto 0 8).flatMap fun l => (h.level l).map fun x => (x, 2 ^ l))

/-- The first item at which the running weight reaches `t` (R249). -/
def reachWeight (t : Nat) : Nat → List (Nat × Nat) → Nat
  | _, [] => fp32.nan
  | acc, (x, w) :: rest => if t ≤ acc + w then x else reachWeight t (acc + w) rest

/-- The quantile at an FP32 q (R249). -/
def Qsk.quantile (h : Qsk) (q : Nat) : Nat :=
  let items := h.items
  let w := items.foldl (fun a e => a + e.2) 0
  match fp32.dec q with
  | .fin neg m e =>
    if w = 0 || (neg && m != 0) || (FVal.fin false 1 0).lt (.fin neg m e) then fp32.nan
    else
      let t := if 0 ≤ e then m * w * 2 ^ e.toNat else ceilDiv (m * w) (2 ^ (-e).toNat)
      reachWeight (max 1 t) 0 items
  | _ => fp32.nan

/-! ### Summaries as bytes -/

/-- Whether bytes are a summary of a kind (R233). -/
def SumKind.good (k : SumKind) (bs : List Byte) : Bool :=
  match k with
  | .dcr => true
  | .hhl => (hhlOf bs).isSome
  | .qsk => (qskOf bs).isSome

/-- Merge the source `g` into the target `h` (R239, R243, R248); none when one is malformed (R233). -/
def SumKind.merge (k : SumKind) (h g : List Byte) : Option (List Byte) :=
  match k with
  | .dcr => some (dcrMerge h g)
  | .hhl =>
    match hhlOf h, hhlOf g with
    | some a, some b => some (a.merge b).bytes
    | _, _ => none
  | .qsk =>
    match qskOf h, qskOf g with
    | some a, some b => some (a.merge b).bytes
    | _, _ => none

/-- An empty summary (R237, R241, R245). -/
def SumKind.empty (k : SumKind) (seed : BitVec 64) : List Byte :=
  match k with
  | .dcr => List.replicate 256 0
  | .hhl => (Hhl.mk 0 []).bytes
  | .qsk => (Qsk.mk 0 0 (coinSeed seed) (List.replicate 8 [])).bytes

end Sys2Proof.Machine
end

