-- ==== Sys2Proof/Machine/X320.lean ====
section
/-!
DEFINITION. X320 half-lines (R226-R229): reading and writing their 64 bytes, adding an FP32 value, merging
and rounding.
-/

namespace Sys2Proof.Machine

/-- The fields of a half-line (R226). -/
structure Half where
  v    : Int
  nan  : Bool
  ovf  : Bool
  pinf : Nat
  ninf : Nat
  deriving DecidableEq, Repr

/-- Whether a half-line has a non-zero reserved bit (R226). -/
def halfBad (bs : List Byte) : Bool :=
  field bs 0x28 1 / 4 != 0 || field bs 0x29 3 != 0 || field bs 0x34 12 != 0

/-- Read a half-line; a malformed one counts as holding NAN (R226). -/
def halfOf (bs : List Byte) : Half :=
  { v := signNat (field bs 0 40) 320, nan := bit (field bs 0x28 1) 0 || halfBad bs, ovf := bit (field bs 0x28 1) 1,
    pinf := field bs 0x2C 4, ninf := field bs 0x30 4 }

/-- The 64 bytes of a half-line, reserved bits 0. -/
def Half.bytes (h : Half) : List Byte :=
  leBytes 40 (wrap h.v 320) ++ leBytes 1 (b2n h.nan + 2 * b2n h.ovf) ++ leBytes 3 0 ++ leBytes 4 h.pinf ++
    leBytes 4 h.ninf ++ leBytes 12 0

/-- Whether an exact sum leaves the 320-bit range. -/
def outOf320 (s : Int) : Bool := s < -(2 ^ 319 : Int) || (2 ^ 319 : Int) ≤ s

/-- X320.addf (R227). -/
def Half.addf (h : Half) (x : Nat) : Half :=
  match fp32.dec x with
  | .nan => { h with nan := true }
  | .inf false => { h with pinf := min (h.pinf + 1) (2 ^ 32 - 1) }
  | .inf true => { h with ninf := min (h.ninf + 1) (2 ^ 32 - 1) }
  | .fin n m e =>
    let s := h.v + signed n (m * 2 ^ (e + 149).toNat)
    { h with ovf := h.ovf || outOf320 s, v := signNat (wrap s 320) 320 }

/-- X320.merge (R228). -/
def Half.merge (h g : Half) : Half :=
  let s := h.v + g.v
  { v := signNat (wrap s 320) 320, ovf := h.ovf || g.ovf || outOf320 s, nan := h.nan || g.nan,
    pinf := min (h.pinf + g.pinf) (2 ^ 32 - 1), ninf := min (h.ninf + g.ninf) (2 ^ 32 - 1) }

/-- X320.round (R229). -/
def Half.round (h : Half) : Nat :=
  if h.nan || h.ovf || (0 < h.pinf && 0 < h.ninf) then fp32.nan
  else if 0 < h.pinf then fp32.inf
  else if 0 < h.ninf then fp32.sign + fp32.inf
  else if h.v = 0 then 0
  else fp32.pack 0 (h.v < 0) h.v.natAbs (-149) false

/-- Add FP32 values into a half-line's bytes, in order. -/
def halfAdds (bs : List Byte) (xs : List Lane) : List Byte :=
  (xs.foldl (fun h x => h.addf x.toNat) (halfOf bs)).bytes

/-- Merge half-line bytes. -/
def halfMerge (a b : List Byte) : List Byte := ((halfOf a).merge (halfOf b)).bytes

end Sys2Proof.Machine
end

