-- ==== Sys2Proof/Machine/Rop.lean ====
section
/-!
DEFINITION. Remote opcodes (R186-R202): the built-in ids, the definition record and its checks, the micro-ops, the
application of one granule, and the merging of partials, as functions of bytes.
-/

namespace Sys2Proof.Machine

/-! ### Element types (R191) -/

/-- The width in bytes of an element type. -/
def etyWidth (t : Nat) : Nat := [1, 1, 4, 4, 8, 8, 2, 2, 4].getD t 4
/-- Whether an element type is a float. -/
def etyFloat (t : Nat) : Bool := 6 ≤ t
/-- Whether an integer type is signed. -/
def etySigned (t : Nat) : Bool := t == 0 || t == 2 || t == 4
/-- The float format of a float type. -/
def etyFmt (t : Nat) : Fmt := if t = 6 then fp16 else if t = 7 then bf16 else fp32

/-- An integer element's value. -/
def etyInt (t x : Nat) : Int := if etySigned t then signNat x (8 * etyWidth t) else (x % 2 ^ (8 * etyWidth t) : Nat)

/-- The encoding of an integer modulo 2^(8w), and clamped to the type (R192). -/
def etyWrap (t : Nat) (x : Int) : Nat := wrap x (8 * etyWidth t)
def etySat (t : Nat) (x : Int) : Nat :=
  etyWrap t (if etySigned t then satS x (8 * etyWidth t) else satU x (8 * etyWidth t))

/-- The greatest and the least encoding of a type in its own order (R196). -/
def etyTop (t : Nat) : Nat :=
  if etyFloat t then (etyFmt t).inf else if etySigned t then 2 ^ (8 * etyWidth t - 1) - 1 else 2 ^ (8 * etyWidth t) - 1
def etyBot (t : Nat) : Nat :=
  if etyFloat t then (etyFmt t).sign + (etyFmt t).inf else if etySigned t then 2 ^ (8 * etyWidth t - 1) else 0

/-- 1 of a type (R192). -/
def etyOne (t : Nat) : Nat := if etyFloat t then (etyFmt t).enc 0 (.fin false 1 0) else 1

/-- Minimum and maximum of two elements (R192, R201). -/
def etyMin (t a b : Nat) : Nat :=
  if etyFloat t then (etyFmt t).fmin a b else if etyInt t b < etyInt t a then b else a
def etyMax (t a b : Nat) : Nat :=
  if etyFloat t then (etyFmt t).fmax a b else if etyInt t a < etyInt t b then b else a

/-! ### The definition record (R190) -/

/-- The header of a definition record, as a number. -/
def defHdr (d : List Byte) : Nat := field d 0 16
def defLen (d : List Byte) : Nat := bits (defHdr d) 0 5
/-- GRAN, and the granule's size. -/
def defGran (d : List Byte) : Nat := bits (defHdr d) 5 3
def granBytes (g : Nat) : Nat := [4, 32, 128, 256, 512].getD g 4
def defTgt (d : List Byte) : Bool := bit (defHdr d) 8
def defComm (d : List Byte) : Bool := bit (defHdr d) 9
def defFpol (d : List Byte) : Nat := bits (defHdr d) 10 2
def defRshape (d : List Byte) : Nat := bits (defHdr d) 12 2
def defEty (d : List Byte) : Nat := bits (defHdr d) 16 4
def defOty (d : List Byte) : Nat := bits (defHdr d) 20 4
def defRreg (d : List Byte) : Nat := bits (defHdr d) 24 3
def defMerge (d : List Byte) : Nat := bits (defHdr d) 27 3
/-- OPSZ, and the operand's bytes per granule. -/
def defOpsz (d : List Byte) : Nat := bits (defHdr d) 32 3
def opszBytes (o : Nat) : Nat := [0, 4, 8, 16, 32, 64, 128].getD o 0
def defVl (d : List Byte) : Nat := bits (defHdr d) 40 5 + 1
/-- K0 and K1. -/
def defK (d : List Byte) (i : Nat) : Nat := field d (8 + 4 * i) 4
/-- Micro-op slot `i`. -/
def defSlot (d : List Byte) (i : Nat) : Nat := field d (16 + 2 * i) 2

/-- The fields of a micro-op (R192). -/
def uop (x : Nat) : Nat := bits x 0 5
def uD (x : Nat) : Nat := bits x 5 3
def uA (x : Nat) : Nat := bits x 8 3
def uB (x : Nat) : Nat := bits x 11 3
def uX (x : Nat) : Nat := bits x 14 2

/-- Whether OP is assigned, its type class matches, and its unused fields are 0 (R192, R195). -/
def uopOk (ety x : Nat) : Bool :=
  let o := uop x
  let only := fun (d a b k : Bool) =>
    (d || uD x == 0) && (a || uA x == 0) && (b || uB x == 0) && (k || uX x == 0)
  if o = 0x01 then only true false false false
  else if o = 0x02 then only false true false false
  else if o = 0x03 || o = 0x05 then only true false true false
  else if o = 0x04 then only false true true false
  else if o = 0x06 then only true false false true
  else if o = 0x07 || o = 0x18 then only true true false false
  else if o = 0x19 then only true true false false && (etyFloat ety || etySigned ety)
  else if o = 0x0E || o = 0x0F || (0x10 ≤ o && o ≤ 0x14) then only true true true false && !etyFloat ety
  else (0x08 ≤ o && o ≤ 0x0D || 0x15 ≤ o && o ≤ 0x17) && only true true true false

/-- RDEF_LEN, RDEF_FOOT and RDEF_OP (R429). -/
def rdefLen : BitVec 8 := 0x38
def rdefFoot : BitVec 8 := 0x39
def rdefOp : BitVec 8 := 0x3A

/-- The header check of R195, step 2. -/
def defHdrOk (d : List Byte) : Bool :=
  let h := defHdr d
  bits h 14 2 == 0 && bits h 30 2 == 0 && bits h 35 5 == 0 && bits h 45 19 == 0 && defGran d ≤ 4 && defFpol d ≤ 2 &&
    defRshape d ≤ 2 && defEty d ≤ 8 && defOty d ≤ 8 && defOpsz d ≤ 6 && (defGran d < 3 || defTgt d) &&
    (defComm d == (defMerge d != 0)) &&
    (!(([1, 2, 5, 6, 7] : List Nat).contains (defMerge d)) || !etyFloat (defEty d)) &&
    (if defOpsz d = 0 then defOty d == 0 else etyFloat (defOty d) == etyFloat (defEty d)) &&
    (defRshape d != 2 || defVl d * etyWidth (defEty d) ≤ 128)

/-- The checks of a record (R195): the first failure, or none. `id` is none where the record came from a peer (R210). -/
def defCheck (d : List Byte) (id : Option Nat) : Option (BitVec 8) :=
  let n := defLen d
  let vw := defVl d * etyWidth (defEty d)
  let g := granBytes (defGran d)
  let slots := (upto 0 24).map (defSlot d)
  if n = 0 || 24 < n || (slots.drop n).any (· != 0) then some rdefLen
  else if !defHdrOk d then some rdefOp
  else if 128 < vw || g < vw then some rdefFoot
  else if (slots.take n).any (fun x => !uopOk (defEty d) x) then some rdefOp
  else if (slots.take n).any (fun x =>
      ((uop x == 0x03 || uop x == 0x04) && g < (uB x + 1) * vw) ||
        (uop x == 0x05 && opszBytes (defOpsz d) < (uB x + 1) * defVl d * etyWidth (defOty d))) then some rdefFoot
  else
    match id with
    | some i => if i < 16 then some rdefOp else none
    | none => none

/-! ### Micro-ops (R192, R193) -/

/-- e0-e7 with elements 0 to VL - 1, and the granule's bytes. -/
structure UState where
  e : List (List Nat)
  s : List Byte
  deriving DecidableEq, Repr

/-- LDO's conversion (R193). -/
def convElem (oty ety x : Nat) : Nat :=
  if etyFloat ety then (etyFmt oty).conv (etyFmt ety) 0 x else etySat ety (etyInt oty x)

/-- The value that LDK gives (R192). -/
def constElem (d : List Byte) (x : Nat) : Nat :=
  let t := defEty d
  if x = 2 then 0 else if x = 3 then etyOne t
  else
    let k := defK d x
    if etyWidth t = 8 then etyWrap t (if etySigned t then signNat k 32 else (k : Int)) else k % 2 ^ (8 * etyWidth t)

/-- One element of a two-operand micro-op (R192, R201): `d0` is the old destination. -/
def elemOp (t o d0 a b : Nat) : Nat :=
  let w := 8 * etyWidth t
  if o = 0x07 then a
  else if o = 0x08 then (if etyFloat t then (etyFmt t).fadd 0 a b else (a + b) % 2 ^ w)
  else if o = 0x09 then (if etyFloat t then (etyFmt t).fsub 0 a b else (a + 2 ^ w - b) % 2 ^ w)
  else if o = 0x0A then (if etyFloat t then (etyFmt t).fmul 0 a b else a * b % 2 ^ w)
  else if o = 0x0B then (if etyFloat t then (etyFmt t).ffma 0 a b d0 else (a * b + d0) % 2 ^ w)
  else if o = 0x0C then etyMin t a b
  else if o = 0x0D then etyMax t a b
  else if o = 0x0E then etySat t (etyInt t a + etyInt t b)
  else if o = 0x0F then etySat t (etyInt t a - etyInt t b)
  else if o = 0x10 then a &&& b
  else if o = 0x11 then a ||| b
  else if o = 0x12 then a ^^^ b
  else if o = 0x13 then a * 2 ^ (b % w) % 2 ^ w
  else if o = 0x14 then (if etySigned t then etyWrap t (etyInt t a / 2 ^ (b % w)) else a / 2 ^ (b % w))
  else if o = 0x15 then
    (if (if etyFloat t then ((etyFmt t).dec a).lt ((etyFmt t).dec b) else etyInt t a < etyInt t b) then etyOne t else 0)
  else if o = 0x16 then
    (if (if etyFloat t then ((etyFmt t).dec a).eq ((etyFmt t).dec b) else a == b) then etyOne t else 0)
  else if o = 0x17 then
    (if (if etyFloat t then d0 % (etyFmt t).sign == 0 else d0 == 0) then b else a)
  else if o = 0x18 then
    (if etyFloat t then (etyFmt t).fabs a else if etySigned t then etySat t (etyInt t a).natAbs else a)
  else (if etyFloat t then (etyFmt t).fneg a else etySat t (-(etyInt t a)))

/-- Put elements of width `w` at a byte offset of the granule. -/
def putElems (s : List Byte) (off w : Nat) (xs : List Nat) : List Byte := splice s off (xs.flatMap (leBytes w))

/-- The elements of width `w` at a byte offset. -/
def getElems (s : List Byte) (off w n : Nat) : List Nat := (upto 0 n).map fun i => field s (off + i * w) w

/-- One micro-op of definition `d` with the window at offset `wo` and operand bytes `x` (R192). -/
def uStep (d : List Byte) (wo : Nat) (x : List Byte) (u : UState) (op : Nat) : UState :=
  let t := defEty d
  let w := etyWidth t
  let n := defVl d
  let reg := fun k => u.e.getD k []
  let set := fun (xs : List Nat) => { u with e := modAt u.e (uD op) fun _ => xs }
  let o := uop op
  if o = 0x01 then set (getElems u.s wo w n)
  else if o = 0x02 then { u with s := putElems u.s wo w (reg (uA op)) }
  else if o = 0x03 then set (getElems u.s (uB op * n * w) w n)
  else if o = 0x04 then { u with s := putElems u.s (uB op * n * w) w (reg (uA op)) }
  else if o = 0x05 then
    set ((getElems x (uB op * n * etyWidth (defOty d)) (etyWidth (defOty d)) n).map (convElem (defOty d) t))
  else if o = 0x06 then set (List.replicate n (constElem d (uX op)))
  else
    let f := fun (p : Nat × Nat × Nat) => elemOp t o p.1 p.2.1 p.2.2
    set (((reg (uD op)).zip ((reg (uA op)).zip (reg (uB op)))).map f)

/-- RSHAPE 1's element, widened to 32 bits (R427). The manual gives no such value for a 64-bit element. -/
def widen (t x : Nat) : Lane :=
  if etyWidth t = 8 then Config.narrowElem (BitVec.ofNat 64 x)
  else if etyFloat t then BitVec.ofNat 32 x
  else BitVec.ofInt 32 (etyInt t x)

/-- Bytes up to a multiple of 4, padded with 0. -/
def pad4 (bs : List Byte) : List Byte := bs ++ List.replicate ((4 - bs.length % 4) % 4) 0

/-- What a definition returns (R427). -/
def defReturn (d : List Byte) (u : UState) : List Byte :=
  let t := defEty d
  let r := u.e.getD (defRreg d) []
  if defRshape d = 0 then []
  else if defRshape d = 1 then leBytes 4 (widen t (r.headD 0)).toNat
  else pad4 (r.flatMap (leBytes (etyWidth t)))

/-- A definition applied to one granule (R194): the new bytes and the return. -/
def defApply (d : List Byte) (wo : Nat) (x s : List Byte) : List Byte × List Byte :=
  let u0 : UState := { e := List.replicate 8 (List.replicate (defVl d) 0), s := s }
  let u := ((upto 0 (defLen d)).map (defSlot d)).foldl (uStep d wo x) u0
  (u.s, defReturn d u)

/-! ### Built-in ids (R189) -/

/-- Footprint, operand bytes and granule of a built-in id. -/
def builtinFoot (id : Nat) : Nat := if id = 1 then 8 else if id ≤ 11 then 4 else if id = 12 then 64 else if id = 15 then 1024 else 256
def builtinOpsz (id : Nat) : Nat := if id = 1 || id = 10 || 13 ≤ id then 8 else 4
def builtinGran (id : Nat) : Nat := if id = 1 then 32 else if id ≤ 11 then 4 else if id = 12 then 128 else builtinFoot id
/-- The kind of summary that ids 13-15 merge. -/
def builtinKind (id : Nat) : SumKind := if id = 13 then .dcr else if id = 14 then .hhl else .qsk

/-- The new value of a word or doubleword under ids 0-11 (R189); `x` is the operand. -/
def builtinNew (id old : Nat) (x : List Byte) : Nat :=
  let v := leNat x
  if id = 0 then (old + v) % 2 ^ 32
  else if id = 1 then (old + v) % 2 ^ 64
  else if id = 2 then etyMin 2 old v
  else if id = 3 then etyMax 2 old v
  else if id = 4 then min old v
  else if id = 5 then max old v
  else if id = 6 then old &&& v
  else if id = 7 then old ||| v
  else if id = 8 then old ^^^ v
  else if id = 9 then v
  else if id = 10 then (if old = field x 0 4 then field x 4 4 else old)
  else fp32.fadd 0 old v

/-- What a unit knows of an opcode: a built-in, or a definition's record. -/
structure Opcode where
  id   : Nat
  defn : List Byte
  deriving DecidableEq, Repr

def Opcode.builtin (o : Opcode) : Bool := o.id < 16
/-- The granule's size (R189, R190). -/
def Opcode.gran (o : Opcode) : Nat := if o.builtin then builtinGran o.id else granBytes (defGran o.defn)
/-- The window from the granule's address (R187). -/
def Opcode.window (o : Opcode) : Nat :=
  if o.builtin then builtinFoot o.id else defVl o.defn * etyWidth (defEty o.defn)
/-- The alignment that an address must have (R187, R189, R232). -/
def Opcode.align (o : Opcode) : Nat := if o.builtin then builtinFoot o.id else etyWidth (defEty o.defn)
/-- Operand bytes per granule. -/
def Opcode.opsz (o : Opcode) : Nat := if o.builtin then builtinOpsz o.id else opszBytes (defOpsz o.defn)
/-- Return bytes per granule (R427); 0 where there is no return form. -/
def Opcode.rb (o : Opcode) : Nat :=
  if o.builtin then (if o.id ≤ 11 then builtinFoot o.id else 0)
  else if defRshape o.defn = 0 then 0 else if defRshape o.defn = 1 then 4
  else ceilDiv (defVl o.defn * etyWidth (defEty o.defn)) 4 * 4
/-- Fault policy (R190, R207): 0 ABORT, 1 SKIP, 2 POISON. -/
def Opcode.fpol (o : Opcode) : Nat := if o.builtin then 0 else defFpol o.defn
/-- Whether the return form of an instruction matches (R187, R428). -/
def Opcode.shapeOk (o : Opcode) (ret : Bool) : Bool :=
  if o.builtin then !ret || o.id ≤ 11 else ret == (defRshape o.defn != 0)
/-- Whether a request may combine, as its id goes (R196). -/
def Opcode.combines (o : Opcode) : Bool :=
  if o.builtin then o.id ≤ 8 || o.id == 12 else defComm o.defn && defGran o.defn ≤ 2
/-- HDR of the entry state (R209). -/
def Opcode.hdr (o : Opcode) : Nat := if o.builtin then 0 else defHdr o.defn % 2 ^ 32

/-- Whether an opcode stores: a definition without STA and STG commits nothing (R194). -/
def Opcode.stores (o : Opcode) : Bool :=
  o.builtin || (upto 0 (defLen o.defn)).any fun i => uop (defSlot o.defn i) == 0x02 || uop (defSlot o.defn i) == 0x04

/-- One granule of a request applied (R194): the granule's new bytes and the return; none for a malformed summary.
`src` is the source summary of ids 13-15. Id 12 adds every FP32 value of its operand (R473). -/
def Opcode.apply (o : Opcode) (wo : Nat) (x src s : List Byte) : Option (List Byte × List Byte) :=
  if o.builtin then
    if o.id ≤ 11 then
      let n := builtinFoot o.id
      some (splice s wo (leBytes n (builtinNew o.id (field s wo n) x)), slice s wo n)
    else if o.id = 12 then
      some (splice s wo (halfAdds (slice s wo 64) ((upto 0 (x.length / 4)).map fun k => BitVec.ofNat 32 (field x (4 * k) 4))), [])
    else
      match (builtinKind o.id).merge s src with
      | some r => some (r, [])
      | none => none
  else some (defApply o.defn wo x s)

/-! ### Partials (R196) -/

/-- The element width and the identity of an opcode's merge; id 12 merges half-lines. -/
def Opcode.elem (o : Opcode) : Nat × Nat :=
  if o.builtin then
    if o.id = 1 then (8, 0)
    else if o.id = 2 then (4, etyTop 2)
    else if o.id = 3 then (4, etyBot 2)
    else if o.id = 4 then (4, etyTop 3)
    else if o.id = 6 then (4, 2 ^ 32 - 1)
    else if o.id = 12 then (64, 0)
    else (4, 0)
  else
    let t := defEty o.defn
    let w := etyWidth t
    if defMerge o.defn = 3 then (w, etyTop t) else if defMerge o.defn = 4 then (w, etyBot t)
    else if defMerge o.defn = 5 then (w, 2 ^ (8 * w) - 1) else (w, 0)

/-- The merge of two elements, the home's first (R196). -/
def Opcode.mergeElem (o : Opcode) (h g : Nat) : Nat :=
  if o.builtin then builtinNew o.id h (leBytes o.elem.1 g)
  else
    let t := defEty o.defn
    let m := defMerge o.defn
    elemOp t (if m = 1 then 0x08 else if m = 2 then 0x0E else if m = 3 then 0x0C else if m = 4 then 0x0D
      else if m = 5 then 0x10 else if m = 6 then 0x11 else 0x12) 0 h g

/-- A partial at its start: every element at the identity. -/
def Opcode.fresh (o : Opcode) : List Byte :=
  (List.replicate (128 / o.elem.1) (leBytes o.elem.1 o.elem.2)).flatten

/-- Fold a request into a partial (R196): the definition applied to the granule that its address names. -/
def Opcode.fold (o : Opcode) (part_ : List Byte) (off : Nat) (x : List Byte) : List Byte :=
  let g := off / o.gran * o.gran
  match o.apply (off - g) x [] (slice part_ g o.gran) with
  | some r => splice part_ g r.1
  | none => part_

/-- Merge a partial into the home line; an element of which some word is `bad` (poisoned) stays (R196, R200). -/
def Opcode.mergeLine (o : Opcode) (bad : Nat → Bool) (line part_ : List Byte) : List Byte :=
  let w := o.elem.1
  (upto 0 (128 / w)).flatMap fun i =>
    let h := slice line (i * w) w
    if (upto (i * w / 4) (max 1 (w / 4))).any bad then h
    else if w = 64 then (if zeros (slice part_ (i * w) w) then h else halfMerge h (slice part_ (i * w) w))
    else
      let g := field part_ (i * w) w
      if g = o.elem.2 then h else leBytes w (o.mergeElem (leNat h) g)

/-- Whether a merge drops a contribution that is not at the identity (R200). -/
def Opcode.drops (o : Opcode) (bad : Nat → Bool) (part_ : List Byte) : Bool :=
  let w := o.elem.1
  (upto 0 (128 / w)).any fun i =>
    (upto (i * w / 4) (max 1 (w / 4))).any bad && field part_ (i * w) w != o.elem.2

end Sys2Proof.Machine
end

