-- ==== Sys2Proof/Machine/L2.lean ====
section
/-!
DEFINITION. The home slices (R155, R156) and the pseudo-channels behind them (R157-R162): lines and their 32-byte sectors, what a
home gives and takes, fills, evictions and write-backs, the tuples of a channel, locked lines, and the
merging of held contributions (R196-R200).
-/

namespace Sys2Proof.Machine

/-! ### Pseudo-channels (R159-R162) -/

/-- The granules that wait at a pseudo-channel's CUU: arrival order, op and granule (R162). -/
def State.cuuQueue (s : State) (pch : Nat) : List (Nat × Nat × Nat) :=
  let at_ := fun (g : Gran) => g.phase == .waiting && (match g.tgt with
    | .home d uam _ => uam && pchOf d == pch
    | _ => false)
  s.rops.flatMap (fun (r : Rop) => (upto 0 r.grans.length).filterMap fun k =>
    match r.grans[k]? with
    | some g => if at_ g then some (g.arr, r.id, k) else none
    | none => none) ++
  s.peerRops.filterMap fun (r : PeerRop) => if at_ r.gran then some (r.gran.arr, r.id, 0) else none

/-- Whether the lock of a channel's CUU covers a line (R162). -/
def State.lockedLine (s : State) (line : Nat) : Bool :=
  let c := s.chan (pchOf (line * 128))
  match c.busy with
  | none => false
  | some (op, k, _) =>
    let gran := match s.rops.find? (·.id == op) with
      | some r => r.grans[k]?
      | none =>
        match s.peerRops.find? fun (r : PeerRop) => r.id == op with
        | some r => some r.gran
        | none => none
    match gran with
    | none => false
    | some g =>
      match g.tgt with
      | .home d _ _ => d / g.size * g.size / 128 ≤ line && line ≤ (d / g.size * g.size + g.size - 1) / 128
      | _ => false

/-- The lines of a span. -/
def linesOf (a n : Nat) : List Nat := if n = 0 then [] else upto (a / 128) ((a + n - 1) / 128 - a / 128 + 1)

/-- Whether a CUU holds a line of a span locked. -/
def State.lockedSpan (s : State) (dpa n : Nat) : Bool := (linesOf dpa n).any s.lockedLine

/-- A request reaches the pseudo-channel of an address (R160): it cancels a pending entry, wakes a channel that is not
active (32 or 1,200 clk), and says whether it can be served now. -/
def State.chanServe (s : State) (dpa : Nat) : State × Bool :=
  let p := pchOf dpa
  let c := s.chan p
  match c.power with
  | .active => (s.updChan p fun c => { c with entry := none, idle := s.clk }, true)
  | .powerDown => (s.updChan p fun c => { c with entry := none, wake := some (c.wake.getD (s.clk + 32)) }, false)
  | .selfRefresh => (s.updChan p fun c => { c with entry := none, wake := some (c.wake.getD (s.clk + 1200)) }, false)

/-- Whether a request is an acquire or a release. -/
def Req.syncs (r : Req) : Bool := r.kind == .acq || r.kind == .rel

/-- The line of a context that its home slice holds. -/
def Mem.line? (m : Mem) (ctx line : Nat) : Option L2Line := m.l2.find? fun x => x.line == line && x.ctx == ctx

/-- Whether a sector of a line is valid. -/
def L2Line.has (x : L2Line) (sec : Nat) : Bool := x.valid.getLsbD sec

/-- Whether the slice holds the sector of an address. -/
def Mem.hasSec (m : Mem) (ctx dpa : Nat) : Bool :=
  match m.line? ctx (dpa / 128) with
  | some x => x.has (dpa % 128 / 32)
  | none => false

/-- The sectors of a line, of those that are needed, which its slice lacks. -/
def State.missing (s : State) (ctx line : Nat) (need : List Nat) : List Nat :=
  need.filter fun c => !s.mem.hasSec ctx (line * 128 + 32 * c)

/-- Whether a tuple still has something for channel `pch` to serve: an instruction's while a request of it is to be served, a line's
until it is written back; any other while it is asked for, at least once in 64 clk (DESIGN CHOICE, log 116), and what it fills is
missing. -/
def State.tupleLive (s : State) (pch : Nat) (t : Tuple) : Bool :=
  match t.who with
  | .instr tag =>
    s.reqs.any fun r => r.tag == tag && r.phase == .sent && !r.syncs && (match r.tgt with
      | .home d _ _ => pchOf d == pch
      | _ => false)
  | .line ctx line => s.mem.l2.any fun x => x.out && x.line == line && x.ctx == ctx
  | _ => decide (s.clk ≤ t.seen + 64) && (t.secs.isEmpty || !(s.missing t.ctx t.line t.secs).isEmpty)

/-- The tuple whose turn it is at a channel (R158): the first in order of arrival that still has a request to be served. -/
def State.turn (s : State) (pch : Nat) : Option Tuple := (s.chan pch).queue.find? (s.tupleLive pch)

/-- Whether requests, or operations of the CUU, wait at a channel (R159). -/
def State.chanQueued (s : State) (pch : Nat) : Bool := (s.turn pch).isSome || !(s.cuuQueue pch).isEmpty

/-- Whether two requests at a channel are of one tuple. -/
def Tuple.same (t x : Tuple) : Bool := t.who == x.who && t.line == x.line && t.ctx == x.ctx

/-- A request of a tuple comes to the channel of an address (R158, R160): the tuple takes its place in the order of arrival, and it
is served when the channel is active and the turn is the tuple's. -/
def State.chanTurn (s : State) (t : Tuple) (dpa : Nat) : State × Bool :=
  let p := pchOf dpa
  let s := s.updChan p fun c =>
    let live := c.queue.filter fun x => s.tupleLive p x
    { c with queue := if live.any t.same then mapIf t.same (fun x => { x with seen := s.clk, secs := t.secs }) live else live ++ [t] }
  let r := s.chanServe dpa
  (r.1, r.2 && (r.1.turn p).any t.same)

/-- A tuple of its own (R158), which moves `nsec` sectors, or fills sectors of a line. -/
def State.alone (s : State) (who : Asker) (nsec : Nat) (ctx line : Nat) (secs : List Nat) : Tuple :=
  { who := who, core := 0, gslot := 0, itag := 0, nsec := nsec, seen := s.clk, ctx := ctx, line := line, secs := secs }

/-- The 32-byte sectors of a span. -/
def secsIn (dpa n : Nat) : Nat := if n = 0 then 0 else (dpa + n - 1) / 32 - dpa / 32 + 1

/-- A request that is a tuple of its own and moves `n` bytes at an address comes to the address's channel. -/
def State.chanAlone (s : State) (who : Asker) (dpa n : Nat) : State × Bool := s.chanTurn (s.alone who (secsIn dpa n) 0 0 []) dpa

/-- A tuple of its own has been served at the channel of an address. -/
def State.chanDone (s : State) (who : Asker) (dpa : Nat) : State :=
  s.updChan (pchOf dpa) fun c => { c with queue := c.queue.filter fun x => x.who != who }

/-- A tuple of its own has been served at the channels of a span. -/
def State.spanDone (s : State) (who : Asker) (dpa n : Nat) : State := (linesOf dpa n).foldl (fun s l => s.chanDone who (l * 128)) s

/-! ### Bandwidth (R94) -/

/-- Charge `n` bytes to a launch (R94). -/
def State.bwCharge (s : State) (l n : Nat) : State := s.updLaunch l fun x => { x with winBytes := x.winBytes + n }

/-! ### Lines of the slices (R155) -/

/-- A byte at its home: the slice's, where the sector is valid, else DRAM's. -/
def Mem.homeByte (m : Mem) (k ctx dpa : Nat) : Byte :=
  match m.line? ctx (dpa / 128) with
  | some x => if x.has (dpa % 128 / 32) then x.data.getD (dpa % 128) 0 else m.byte k dpa
  | none => m.byte k dpa

/-- `n` bytes at their homes. -/
def Mem.homeBytes (m : Mem) (k ctx dpa : Nat) : Nat → List Byte
  | 0 => []
  | n + 1 => m.homeByte k ctx dpa :: m.homeBytes k ctx (dpa + 1) n

/-- Whether a word reads as poisoned at its home (R204): a sector keeps the poison that it was filled with. -/
def Mem.homeBad (m : Mem) (ctx w : Nat) : Bool :=
  match m.line? ctx (w / 32) with
  | some x => if x.has (w % 32 / 8) then x.bad.contains w else m.poison.contains w
  | none => m.poison.contains w

/-- Update a line that its slice holds. -/
def Mem.updLine (m : Mem) (ctx line : Nat) (f : L2Line → L2Line) : Mem :=
  { m with l2 := mapIf (fun x => x.line == line && x.ctx == ctx) f m.l2 }

/-- Fill a sector of a held line from DRAM (R155). -/
def Mem.fillSec (m : Mem) (k ctx line sec : Nat) : Mem :=
  let a := line * 128 + sec * 32
  let bs := m.read k a 32
  let bad := (upto (a / 4) 8).filter m.poison.contains
  m.updLine ctx line fun x =>
    { x with valid := x.valid ||| 1#4 <<< sec, data := splice x.data (32 * sec) bs, bad := x.bad ++ bad }

/-- The sectors of a line's bytes that are not written whole. -/
def partSecs (bs : List (Nat × Byte)) : List Nat :=
  (upto 0 4).filter fun c =>
    bs.any (fun e => e.1 / 32 == c) && !(upto (32 * c) 32).all fun o => bs.any fun e => e.1 == o

/-- Write bytes (offset in the line, byte) of a held line: a sector written in part is filled first (R155). -/
def Mem.lineWrite (m : Mem) (k ctx line launch : Nat) (bs : List (Nat × Byte)) : Mem :=
  let m := ((partSecs bs).filter fun c => !m.hasSec ctx (line * 128 + 32 * c)).foldl (fun m c => m.fillSec k ctx line c) m
  let mark := fun (b : BitVec 4) => (upto 0 4).foldl (fun b c => if bs.any (fun e => e.1 / 32 == c) then b ||| 1#4 <<< c else b) b
  let whole := fun (w : Nat) => (upto (4 * (w % 32)) 4).all fun o => bs.any fun e => e.1 == o
  m.updLine ctx line fun x =>
    { x with valid := mark x.valid, dirty := mark x.dirty, data := bs.foldl (fun d e => splice d e.1 [e.2]) x.data,
             bad := x.bad.filter fun w => !whole w, by_ := launch }

/-- Write a dirty sector of a line back to DRAM, with its poison (R155, R203). -/
def Mem.backSec (m : Mem) (x : L2Line) (sec : Nat) : Mem :=
  let a := x.line * 128 + sec * 32
  let m := m.write x.key a (slice x.data (32 * sec) 32)
  { m with poison := (m.poison.filter fun w => !(a ≤ 4 * w && 4 * w < a + 32)) ++
                     x.bad.filter fun w => a ≤ 4 * w && 4 * w < a + 32 }

/-- The dirty sectors of a line. -/
def L2Line.dirtySecs (x : L2Line) : List Nat := (upto 0 4).filter x.dirty.getLsbD

/-- Write a line's dirty sectors back to DRAM. -/
def Mem.backLine (m : Mem) (x : L2Line) : Mem := x.dirtySecs.foldl (fun m c => m.backSec x c) m

/-- Write back and discard the lines of a span. -/
def Mem.flush (m : Mem) (dpa n : Nat) : Mem :=
  let mine := fun (x : L2Line) => decide (dpa < (x.line + 1) * 128) && decide (x.line * 128 < dpa + n)
  let back := (m.l2.filter mine).foldl (fun (m : Mem) x => m.backLine x) m
  { back with l2 := m.l2.filter fun x => !mine x }

/-- The lines that stand in the set of a line (R155). -/
def State.rivals (s : State) (line : Nat) : List L2Line :=
  if s.mem.l2.length < 12 then [] else
  s.mem.l2.filter fun x => !x.out && homeOf (x.line * 128) == homeOf (line * 128) &&
    Config.l2Set x.line % 4096 == Config.l2Set line % 4096

/-- Give a line a place in its slice; when its 12 ways are taken, one of them is evicted (R155): a line with a dirty sector goes
out by a write-back. -/
def State.allocLine (s : State) (ctx line : Nat) : State :=
  if (s.mem.line? ctx line).isSome then s else
  let fresh : L2Line :=
    { line := line, ctx := ctx, key := s.keyOf ctx, valid := 0, dirty := 0, data := List.replicate 128 0, bad := [], by_ := 0,
      out := false }
  let others := s.rivals line
  let gone := if others.length < 12 then none else others[Config.l2Victim s.free % others.length]?
  let l2 := match gone with
    | none => s.mem.l2
    | some v =>
      if v.dirty = 0 then s.mem.l2.filter fun x => !(x.line == v.line && x.ctx == v.ctx)
      else mapIf (fun (x : L2Line) => x.line == v.line && x.ctx == v.ctx) (fun x => { x with out := true }) s.mem.l2
  let s := if gone.isSome then s.draw 1 else s
  { s with mem := { s.mem with l2 := fresh :: l2 } }

/-- Fill sectors of a line from DRAM; the bytes are charged to a launch (R94). -/
def State.fillLine (s : State) (ctx line launch : Nat) (secs : List Nat) : State :=
  if secs.isEmpty then s else
  let s := s.allocLine ctx line
  let k := s.keyOf ctx
  { s with mem := secs.foldl (fun (m : Mem) c => m.fillSec k ctx line c) s.mem }.bwCharge launch (32 * secs.length)

/-- Bring the sectors of a line that are needed into its slice, unless they are there; false while the channel cannot serve. -/
def State.bring (s : State) (who : Asker) (ctx line launch : Nat) (need : List Nat) : State × Bool :=
  let miss := s.missing ctx line need
  if miss.isEmpty then (s, true)
  else
    let r := s.chanTurn (s.alone who miss.length ctx line miss) (line * 128)
    if r.2 then (r.1.fillLine ctx line launch miss, true) else r

/-- A line that was evicted is written back once its channel takes it, as a tuple of its own (R155, R158); the bytes are
charged to the launch that wrote it (R94). -/
def State.writeBack (s : State) (x : L2Line) : State :=
  let r := s.chanTurn (s.alone (.line x.ctx x.line) x.dirtySecs.length 0 0 []) (x.line * 128)
  if r.2 then
    { r.1 with mem := { r.1.mem.backLine x with l2 := r.1.mem.l2.filter fun y => !(y.line == x.line && y.ctx == x.ctx) } }.bwCharge
      x.by_ (32 * x.dirtySecs.length)
  else r.1

/-! ### Reading and writing at a point of service -/

/-- Write bytes (offset, byte) at their homes under a context's key, through the slices (R155). -/
def State.homeWrite (s : State) (ctx launch dpa : Nat) (bs : List (Nat × Byte)) : State :=
  let k := s.keyOf ctx
  let at_ := bs.map fun e => (dpa + e.1, e.2)
  (at_.foldl (fun l e => if l.contains (e.1 / 128) then l else l ++ [e.1 / 128]) []).foldl (fun s line =>
    let s := s.allocLine ctx line
    let mine := (at_.filter fun e => e.1 / 128 == line).map fun e => (e.1 % 128, e.2)
    { s with mem := s.mem.lineWrite k ctx line launch mine }) s

/-- Write bytes of an update-at-memory line: they go to DRAM past the slice (R155); a word written whole loses its poison
(R204). -/
def State.dramWrite (s : State) (ctx dpa : Nat) (bs : List (Nat × Byte)) : State :=
  let k := s.keyOf ctx
  let m := bs.foldl (fun (m : Mem) (e : Nat × Byte) => m.put k (dpa + e.1) e.2) s.mem
  let offs := bs.map fun e => dpa + e.1
  let m := { m with poison := m.poison.filter fun w => !((upto (4 * w) 4).all offs.contains) }
  { s with mem := m }

/-- Write bytes (offset, byte) at their point of service. -/
def State.pointWrite (s : State) (ctx launch dpa : Nat) (uam : Bool) (bs : List (Nat × Byte)) : State :=
  if uam then s.dramWrite ctx dpa bs else s.homeWrite ctx launch dpa bs

/-- Read bytes at their point of service under a context's key. -/
def State.pointRead (s : State) (ctx dpa : Nat) (uam : Bool) (n : Nat) : List Byte :=
  if uam then s.mem.read (s.keyOf ctx) dpa n else s.mem.homeBytes (s.keyOf ctx) ctx dpa n

/-- Whether a word reads as poisoned at its point of service (R204). -/
def State.wordBad (s : State) (ctx : Nat) (uam : Bool) (w : Nat) : Bool :=
  if uam then s.mem.poison.contains w else s.mem.homeBad ctx w

/-- Whether a span has a poisoned word. -/
def State.spanBad (s : State) (ctx dpa : Nat) (uam : Bool) (n : Nat) : Bool :=
  n != 0 && (upto (dpa / 4) ((dpa + n - 1) / 4 - dpa / 4 + 1)).any (s.wordBad ctx uam)

/-! ### Held contributions (R196-R200) -/

/-- Update the remote statistics of a context (R209), counters saturating at 0xFFFF. -/
def sat16 (x : BitVec 16) (n : Nat) : BitVec 16 := BitVec.ofNat 16 (min 65535 (x.toNat + n))

/-- Merge one held contribution into its home line (R196, R200). -/
def State.mergeComb (s : State) (c : Comb) : State :=
  let s := { s with combs := s.combs.filter fun (x : Comb) => x.id != c.id }
  let at_ := c.line * 128
  let bad := fun i => s.wordBad c.ctx false (at_ / 4 + i)
  let o : Opcode := { id := c.op, defn := c.defn }
  let old := s.pointRead c.ctx at_ false 128
  let line := o.mergeLine bad old c.part_
  let new := (pairsFrom 0 line).filter fun e => !bad (e.1 / 4) && old.getD e.1 0 != e.2
  let s' := s.homeWrite c.ctx c.launch at_ new
  if o.drops bad c.part_ then s'.updCtx c.ctx fun x => { x with poisoned := sat16 x.poisoned 1 } else s'

/-- The contributions that are held to a line. -/
def State.heldOn (s : State) (line : Nat) : List Comb := s.combs.filter fun (c : Comb) => c.line == line

/-- Merge every held contribution to the lines of a span. -/
def State.mergeHeld (s : State) (dpa n : Nat) : State :=
  (linesOf dpa n).foldl (fun s l => (s.heldOn l).foldl (fun s c => s.mergeComb c) s) s

/-! ### What an access waits for -/

/-- The sectors of a line that an access to `n` bytes from `dpa` needs in the slice: those it reads, or writes in part, and all
of them when something is held on the line. -/
def State.needs (s : State) (dpa n line : Nat) (wr : Bool) : List Nat :=
  if !(s.heldOn line).isEmpty then upto 0 4
  else
    (upto 0 4).filter fun c =>
      let a := line * 128 + 32 * c
      decide (dpa < a + 32) && decide (a < dpa + n) && !(wr && dpa ≤ a && a + 32 ≤ dpa + n)

/-- Whether the point of service of a span can serve it now, as a tuple of its own (R155, R158, R160, R162): no line of it is
locked, the turn at the channel of every line is the tuple's for an update-at-memory span, and its slices hold what is needed of
any other. An access that waits for a lock has its place at the channel, before the CUU's next operation. -/
def State.spanReady (s : State) (who : Asker) (ctx launch dpa n : Nat) (uam wr : Bool) : State × Bool :=
  (linesOf dpa n).foldl (fun (a : State × Bool) line =>
    let need := a.1.needs dpa n line wr
    let r := if uam then a.1.chanAlone who (line * 128) (min n 128)
      else if s.lockedLine line then a.1.chanTurn (a.1.alone who need.length ctx line (a.1.missing ctx line need)) (line * 128)
      else a.1.bring who ctx line launch need
    (r.1, a.2 && r.2 && !s.lockedLine line)) (s, true)

/-- The bytes between DRAM and the part that an access moves (R94): all of an update-at-memory span, else the sectors that the
slices lack. -/
def State.dramBytes (s : State) (ctx dpa n : Nat) (uam wr : Bool) : Nat :=
  if uam then n
  else (linesOf dpa n).foldl (fun a line => a + 32 * (s.missing ctx line (s.needs dpa n line wr)).length) 0

/-! ### Instruction fetch (R85, R153, R317) -/

/-- What fetching brings: bytes up to the first that cannot be had, and why it cannot. -/
structure Fetched where
  bytes : List Byte
  stop  : Option Tr
  deriving DecidableEq, Repr

/-- The bytes of a 32-byte sector, of a peer or of an update-at-memory line, that have been asked for on behalf of a party. -/
def State.fetchBuf (s : State) (p : Party) (va : Nat) : Option FetchBuf :=
  s.fetches.find? fun b => b.team == p.team && b.unit == p.unit && b.entry == p.entry && b.at_ == va / 32 * 32

/-- Two bytes of the instruction stream, if they are at hand at their point of service: the line is not locked, nothing is held
on it, and the slice holds the sector; or the channel of an update-at-memory line, or the peer, has sent them. -/
def State.fetchPair (s : State) (p : Party) (ctx va : Nat) (t : Tgt) : Fetched :=
  match t with
  | .home d true _ =>
    (match s.fetchBuf p va with
     | none => { bytes := [], stop := some .absent }
     | some b =>
       if s.wordBad ctx true (d / 4) then { bytes := [], stop := some (.bad 0x12) }
       else { bytes := slice b.bytes (va % 32) 2, stop := none })
  | .home d false _ =>
    if s.lockedLine (d / 128) || !(s.heldOn (d / 128)).isEmpty then { bytes := [], stop := some .absent }
    else if !s.mem.hasSec ctx d then { bytes := [], stop := some .absent }
    else if s.wordBad ctx false (d / 4) then { bytes := [], stop := some (.bad 0x12) }
    else { bytes := s.pointRead ctx d false 2, stop := none }
  | .peer _ _ =>
    (match s.fetchBuf p va with
     | none => { bytes := [], stop := some .absent }
     | some b =>
       if b.tag != 0 then { bytes := [], stop := some .absent }
       else if b.bad != 0 then { bytes := [], stop := some (.bad b.bad) }
       else { bytes := slice b.bytes (va % 32) 2, stop := none })
  | .spad _ _ => { bytes := [], stop := some .miss }

/-- Up to `n` bytes of the instruction stream from `va`, two at a time (R317). -/
def State.fetchFrom (s : State) (p : Party) (ctx : Nat) : Nat → Nat → Fetched
  | 0, _ => { bytes := [], stop := none }
  | n + 1, va =>
    match s.translateFor p.team p.unit va false with
    | .ok t =>
      let f := s.fetchPair p ctx va t
      if f.stop.isSome then f
      else
        let r := s.fetchFrom p ctx n (va + 2)
        { r with bytes := f.bytes ++ r.bytes }
    | e => { bytes := [], stop := some e }

/-- The 12 bytes that the longest instruction can take, from a party's PC. -/
def State.fetch (s : State) (p : Party) (pc : U64) : Fetched := s.fetchFrom p (s.ctxOf p.team) 6 pc.toNat

end Sys2Proof.Machine
end

