-- ==== Sys2Proof/Machine/Image.lean ====
section
/-!
DEFINITION. Save images (R311-R316): the launch block with its fault report and directory, the group
image and the team image as byte layouts, written to and read back from the context save area.
-/

namespace Sys2Proof.Machine

/-! ### Writing and reading the save area (R311) -/

/-- The harbour die reaches the lines of a span in the step that needs them: a channel that sleeps is awake, its pending entry is
cancelled and its timer starts (R160), and a lock of a CUU is given up, its operation to begin again (R162). The time of these waits
is not modelled (DESIGN CHOICE, log 119). -/
def State.reachSpan (s : State) (dpa n : Nat) : State :=
  (linesOf dpa n).foldl (fun s line =>
    let freed := s.lockedLine line
    s.updChan (pchOf (line * 128)) fun c =>
      { c with power := .active, entry := none, wake := none, idle := s.clk, busy := if freed then none else c.busy }) s

/-- Write a span of the save area: `n` bytes from `va`, zero but for the listed (offset, byte) pairs. None
when a page takes no image (R305). `fuel` bounds the 64 KiB pages. What is held on the lines is merged first (R200). The slices take
the bytes and evict the lines at once, so that the write-back of R155 and R156 is part of the step (DESIGN CHOICE, log 120). -/
def State.saveSpan (s : State) (ctx : Nat) : Nat → Nat → Nat → Sparse 8 → Option State
  | 0, _, _, _ => some s
  | fuel + 1, va, n, img =>
    if n = 0 then some s else
    match s.savePage ctx va with
    | none => none
    | some dpa =>
      let len := min n (65536 - va % 65536)
      let k := s.keyOf ctx
      let here := img.filter fun e => e.1 < len
      let s := (s.reachSpan dpa len).mergeHeld dpa len
      let m := (s.mem.flush dpa len).clear k dpa len
      let m := { m with dev := ssets m.dev (here.map fun (e : Nat × Byte) => (dpa + e.1, e.2)) }
      let s := { s with mem := m.cure dpa len }
      s.saveSpan ctx fuel (va + len) (n - len)
        ((img.filter fun e => len ≤ e.1).map fun (e : Nat × Byte) => (e.1 - len, e.2))

/-- Whether memory holds a poisoned word in a span. -/
def Mem.tainted (m : Mem) (dpa n : Nat) : Bool := m.poison.any fun w => dpa < 4 * w + 4 && 4 * w < dpa + n

/-- The non-zero bytes of `n` bytes of the save area, by offset; none when a page is not to be had, or a word of it reads as poisoned
(R204). -/
def State.loadSpan (s : State) (ctx : Nat) : Nat → Nat → Nat → Nat → Option (Sparse 8)
  | 0, _, _, _ => some []
  | fuel + 1, va, n, off =>
    if n = 0 then some [] else
    match s.savePage ctx va with
    | none => none
    | some dpa =>
      let len := min n (65536 - va % 65536)
      let m := (s.mergeHeld dpa len).mem.flush dpa len
      if m.tainted dpa len then none else
      match s.loadSpan ctx fuel (va + len) (n - len) (off + len) with
      | none => none
      | some r => some ((m.span (s.keyOf ctx) dpa len).map (fun e => (e.1 + off, e.2)) ++ r)

/-- The status of a grid whose image could not be loaded: MEM_UNCORRECTABLE for a poisoned word (R204, R291), else DOUBLE_FAULT for a
page that is not to be had (R305). -/
def State.loadStatus (s : State) (ctx : Nat) : Nat → Nat → Nat → BitVec 8
  | 0, _, _ => 0x13
  | fuel + 1, va, n =>
    if n = 0 then 0x13 else
    match s.savePage ctx va with
    | none => 0x13
    | some dpa =>
      let len := min n (65536 - va % 65536)
      if ((s.mergeHeld dpa len).mem.flush dpa len).tainted dpa len then 0x12 else s.loadStatus ctx fuel (va + len) (n - len)

/-- The harbour die reaches the lines of a span of the save area. -/
def State.reachSave (s : State) (ctx : Nat) : Nat → Nat → Nat → State
  | 0, _, _ => s
  | fuel + 1, va, n =>
    if n = 0 then s else
    match s.savePage ctx va with
    | none => s
    | some dpa =>
      let len := min n (65536 - va % 65536)
      (s.reachSpan dpa len).reachSave ctx fuel (va + len) (n - len)

/-- The pairs of a number's `n` bytes at an offset (R5). -/
def numAt (off n x : Nat) : List (Nat × Byte) := pairsFrom off (leBytes n x)

/-- Leave out the zero bytes of a rising list of pairs. -/
def nonzero (l : List (Nat × Byte)) : Sparse 8 := l.filter fun e => e.2 != 0

/-- A number of `n` bytes at an offset of an image. -/
def imgNat (img : Sparse 8) (off n : Nat) : Nat := leNat (sgets img off n)

/-! ### The launch block (R311-R313) -/

/-- The lowest launch block of a context that no other launch of it holds (R311). -/
def State.freeBlock (s : State) (ctx : Nat) : Option Nat :=
  (upto 0 256).find? fun b => !s.launches.any fun l => l.ctx == ctx && l.block == some b

/-- Give a launch its block, if it holds none (R311); none when no block is free. -/
def State.takeBlock (s : State) (l : Nat) : Option (State × Nat) :=
  match s.launch? l with
  | none => none
  | some x =>
    match x.block with
    | some b => some (s, b)
    | none =>
      match s.freeBlock x.ctx with
      | some b => some (s.updLaunch l fun y => { y with block := some b }, b)
      | none => none

/-- The address of team image `i` of block `b` (R312). -/
def imageBase (b i : Nat) : Nat := blockBase b + 0x100000000 + i * 4194304

/-- The address of directory entry `i` of block `b` (R312). -/
def dirAt (b i : Nat) : Nat := blockBase b + 0x100000 + 16 * i

/-- Write a directory entry: TID, VALID, KIND, HELD (R312). -/
def State.writeDir (s : State) (ctx b i tid : Nat) (valid : Bool) (kind : Nat) (held : Bool) : Option State :=
  s.saveSpan ctx 1 (dirAt b i) 16
    (nonzero (numAt 0 4 tid ++ numAt 4 1 (b2n valid) ++ numAt 5 1 kind ++ numAt 6 1 (b2n held)))

/-- The lowest directory index of a launch that is neither valid nor held (R312). -/
def Launch.freeIndex (l : Launch) : Option Nat := (upto 0 8192).find? fun i => !l.dir.any (·.1 == i)

/-- Give a team its directory index, if it holds none, in block `b` (R312); none when the entry's page takes
nothing. -/
def State.takeIndex (s : State) (u b : Nat) : Option (State × Nat) :=
  match s.team? u with
  | none => none
  | some t =>
    match t.index with
    | some i => some (s, i)
    | none =>
      match s.launch? t.launch with
      | none => none
      | some l =>
        let i := l.freeIndex.getD 0
        match s.writeDir l.ctx b i t.tid false 0 true with
        | none => none
        | some s =>
          some ((s.updTeam u fun t => { t with index := some i }).updLaunch l.id
            fun l => { l with dir := (i, t.tid, false) :: l.dir }, i)

/-- A fault report (R313). -/
structure Report where
  gid : Nat
  tid : Nat
  regs : FaultRegs
  deriving DecidableEq, Repr

/-- The 256 bytes of a fault report (R313). -/
def Report.image (r : Report) (status : BitVec 8) (ctx : Nat) : Sparse 8 :=
  nonzero (numAt 0 1 status.toNat ++ numAt 1 1 ctx ++ numAt 2 1 r.gid ++ numAt 8 8 r.regs.fcause.toNat ++
    numAt 16 8 r.tid ++ numAt 24 8 r.regs.fpc.toNat ++ numAt 32 8 r.regs.faddr.toNat ++
    numAt 40 8 r.regs.flanes.toNat ++ numAt 48 8 r.regs.fprov.toNat ++ numAt 56 8 r.regs.fepc.toNat ++
    numAt 64 8 r.regs.frop.toNat ++ numAt 72 8 r.regs.frgn.toNat)

/-! ### The group image (R315) -/

/-- A PC, JOIN or PEND field: 56 bits, with none as bit 56. -/
def optPc : Option U64 → Nat
  | none => 2 ^ 56
  | some p => p.toNat % 2 ^ 56

/-- The reading of such a field. -/
def pcOpt (x : Nat) : Option U64 := if bit x 56 then none else some (BitVec.ofNat 64 (x % 2 ^ 56))

/-- The 64 bytes of a split entry. -/
def Entry.image (e : Entry) (i : Nat) : List (Nat × Byte) :=
  let o := 0x100 + 64 * i
  let st := match e.st with
    | .free => 0
    | .active => 1
    | .waiting => 2
  numAt o 8 e.mask.toNat ++ numAt (o + 8) 8 (e.pc.toNat % 2 ^ 56) ++ numAt (o + 16) 8 (optPc e.join) ++
    numAt (o + 24) 8 (optPc e.pend) ++
    numAt (o + 32) 8 (st + 4 * e.parent.getD 8 + 64 * e.srec.getD 16 + 2048 * e.loss)

/-- The 64 bytes of a serial record. -/
def Serial.image (r : Serial) (i : Nat) : List (Nat × Byte) :=
  let o := 0x300 + 64 * i
  if r.used then
    numAt o 8 r.smask.toNat ++ numAt (o + 8) 8 r.pmask.toNat ++ numAt (o + 16) 8 (r.ppc.toNat % 2 ^ 56) ++
      numAt (o + 24) 8 (optPc r.sjoin) ++ numAt (o + 32) 8 (r.entry + 8 * r.link.getD 16 + 256)
  else []

/-- The pairs of the entries of a sparse file of `n`-byte cells from an offset. -/
def sparseAt {w : Nat} (off n : Nat) (m : Sparse w) : List (Nat × Byte) :=
  m.flatMap fun e => numAt (off + n * e.1) n e.2.toNat

/-- FROP of a pending report (R307). -/
def RopReport.frop (r : RopReport) : Nat :=
  r.status.toNat + r.ropid.toNat * 2 ^ 8 + r.gen.toNat * 2 ^ 14 + r.fpol.toNat * 2 ^ 22 + r.lane.toNat * 2 ^ 24 +
    r.gidx.toNat * 2 ^ 30 + r.gdone.toNat * 2 ^ 33 + r.unit.toNat * 2 ^ 37 + b2n r.ukind * 2 ^ 47 + r.more.toNat * 2 ^ 48

/-- The fault registers in the layout of bytes 0x80-0xBF of a group image (R315). -/
def FaultRegs.image (r : FaultRegs) (off : Nat) : List (Nat × Byte) :=
  numAt off 8 r.fcause.toNat ++ numAt (off + 8) 8 r.fpc.toNat ++ numAt (off + 16) 8 r.faddr.toNat ++
    numAt (off + 24) 8 r.flanes.toNat ++ numAt (off + 32) 8 r.fprov.toNat ++ numAt (off + 40) 8 r.fepc.toNat ++
    numAt (off + 48) 8 r.frop.toNat ++ numAt (off + 56) 8 r.frgn.toNat

/-- What a group image says beside the group's registers: KIND, TENT, RESUMEPC and a trap's registers. -/
structure ImgHead where
  kind : Nat
  gid  : Nat
  tent : Nat
  pc   : U64
  regs : FaultRegs
  deriving DecidableEq, Repr

/-- A group image (R315), as its non-zero bytes. Unlisted split fields of a group are 0. -/
def Grp.image (g : Grp) (h : ImgHead) : Sparse 8 :=
  nonzero (numAt 0 2 1 ++ numAt 2 1 h.kind ++ numAt 3 1 h.gid ++ numAt 4 1 h.tent ++ numAt 8 8 h.pc.toNat ++
    numAt 16 8 g.rgnPc.toNat ++ numAt 24 8 g.rgnc.toNat ++ numAt 32 4 g.batch.toNat ++ numAt 36 1 g.prio.toNat ++
    numAt 40 4 g.wdog.toNat ++ numAt 48 8 (b2n g.drain) ++ numAt 56 8 (b2n g.notag) ++
    (match g.rop with
     | .none => []
     | some r => numAt 64 8 r.frop ++ numAt 72 8 r.addr.toNat ++ numAt 80 8 r.ipc.toNat) ++
    (if h.kind = 3 then h.regs.image 0x80 else []) ++
    (upto 0 8).flatMap (fun i => (g.entry i).image i) ++
    (upto 0 16).flatMap (fun j => (g.serial.getD j Serial.none).image j) ++
    sparseAt 0x700 8 g.m ++ sparseAt 0x800 32 g.f ++ sparseAt 0x900 64 g.d ++ sparseAt 0x1000 8 g.s ++
    sparseAt 0x2000 4 g.v)

/-- The size of a group image's place in the team image (R314). -/
def grpImageSize : Nat := 0x14000

/-- The offset of group image `g` in a team image (R314). -/
def grpImageAt (g : Nat) : Nat := 0x4000 + g * grpImageSize

/-- The offsets of a group image that belong to a field (R315), for `vregs` vector registers. -/
def imgField (vregs o : Nat) : Bool :=
  o < 5 || (8 ≤ o && o < 0x25) || (0x28 ≤ o && o < 0x2C) || (0x30 ≤ o && o < 0x58) || (0x80 ≤ o && o < 0xC0) ||
    (0x100 ≤ o && o < 0x300 && o % 64 < 35) || (0x300 ≤ o && o < 0x700 && o % 64 < 34) ||
    (0x708 ≤ o && o < 0x780) || (0x800 ≤ o && o < 0xD00) || (0x1000 ≤ o && o < 0x1800) ||
    (0x2000 ≤ o && o < 0x2000 + 256 * vregs)

/-- A sparse file of `n`-byte cells read back from an image. -/
def sparseFrom (w : Nat) (img : Sparse 8) (off n count : Nat) : Sparse w :=
  (img.filter fun e => off ≤ e.1 && e.1 < off + n * count).foldl
    (fun m e =>
      let k := (e.1 - off) / n
      sset m k (sget m k ||| (BitVec.ofNat w (e.2.toNat * 2 ^ (8 * ((e.1 - off) % n)))))) []

/-- A split entry read back. -/
def entryFrom (img : Sparse 8) (i : Nat) : Entry :=
  let o := 0x100 + 64 * i
  let x := imgNat img (o + 32) 8
  { st := if x % 4 = 1 then .active else if x % 4 = 2 then .waiting else .free,
    mask := BitVec.ofNat 64 (imgNat img o 8), pc := BitVec.ofNat 64 (imgNat img (o + 8) 8 % 2 ^ 56),
    join := pcOpt (imgNat img (o + 16) 8), pend := pcOpt (imgNat img (o + 24) 8),
    parent := if bit x 5 then none else some (bits x 2 3),
    srec := if bit x 10 then none else some (bits x 6 4), loss := bits x 11 7, park := none }

/-- A serial record read back. -/
def serialFrom (img : Sparse 8) (j : Nat) : Serial :=
  let o := 0x300 + 64 * j
  let x := imgNat img (o + 32) 8
  if bit x 8 then
    { used := true, entry := bits x 0 3, smask := BitVec.ofNat 64 (imgNat img o 8),
      pmask := BitVec.ofNat 64 (imgNat img (o + 8) 8), ppc := BitVec.ofNat 64 (imgNat img (o + 16) 8),
      sjoin := pcOpt (imgNat img (o + 24) 8), link := if bit x 7 then none else some (bits x 3 4) }
  else Serial.none

/-- The pending ROP report read back (R310, R315). -/
def ropFrom (img : Sparse 8) : Option RopReport :=
  let f := imgNat img 64 8
  let a := imgNat img 72 8
  let i := imgNat img 80 8
  if f = 0 && a = 0 && i = 0 then none else
  some { status := BitVec.ofNat 8 f, ropid := BitVec.ofNat 6 (f / 2 ^ 8), gen := BitVec.ofNat 8 (f / 2 ^ 14),
         fpol := BitVec.ofNat 2 (f / 2 ^ 22), lane := BitVec.ofNat 6 (f / 2 ^ 24), gidx := BitVec.ofNat 3 (f / 2 ^ 30),
         gdone := BitVec.ofNat 4 (f / 2 ^ 33), unit := BitVec.ofNat 10 (f / 2 ^ 37), ukind := bit f 47,
         more := BitVec.ofNat 8 (f / 2 ^ 48), addr := BitVec.ofNat 56 a, ipc := BitVec.ofNat 64 i, emitted := false, seq := 0, epc := 0,
         widx := none, entry := imgNat img 4 1 }

/-- The group that an image describes, over the group as it stood (R304, R315). -/
def Grp.reload (g : Grp) (img : Sparse 8) (vregs : Nat) : Grp :=
  { g with
    st := .live
    split := (upto 0 8).map (entryFrom img)
    serial := (upto 0 16).map (serialFrom img)
    v := sparseFrom 32 img 0x2000 4 (64 * vregs)
    s := sparseFrom 64 img 0x1000 8 256
    m := (sparseFrom 64 img 0x700 8 16).filter fun e => e.1 != 0
    f := sparseFrom 256 img 0x800 32 8
    d := sparseFrom 512 img 0x900 64 16
    rgnPc := BitVec.ofNat 64 (imgNat img 16 8)
    rgnc := BitVec.ofNat 64 (imgNat img 24 8)
    batch := BitVec.ofNat 32 (imgNat img 32 4)
    prio := BitVec.ofNat 4 (imgNat img 36 1)
    wdog := BitVec.ofNat 32 (imgNat img 40 4)
    wdcnt := 0
    drain := bit (imgNat img 48 8) 0
    notag := bit (imgNat img 56 8) 0
    rop := ropFrom img }

/-- The PARENT chain from entry `i` ends within 8 steps (R393). -/
def chainEnds (l : List Entry) : Nat → Nat → Bool
  | 0, _ => false
  | fuel + 1, i =>
    match (l.getD i Entry.none).parent with
    | none => true
    | some j => chainEnds l fuel j

/-- Whether a trap image can be resumed (R393): FORMAT, KIND and GID as written, RESUMEPC even, TENT at most 7,
no reserved byte set, an active entry and no PARENT cycle. -/
def imageOk (img : Sparse 8) (gid vregs : Nat) : Bool :=
  let sp := (upto 0 8).map (entryFrom img)
  imgNat img 0 2 == 1 && imgNat img 2 1 == 3 && imgNat img 3 1 == gid && imgNat img 4 1 ≤ 7 &&
    imgNat img 8 8 % 2 == 0 && img.all (fun e => imgField vregs e.1) && sp.any (fun e => e.st == .active) &&
    (upto 0 8).all fun i => (sp.getD i Entry.none).st == .free || chainEnds sp 9 i

/-! ### The team image (R314) -/

/-- A run record (R314). -/
def RunRec.image (r : RunRec) (off : Nat) : List (Nat × Byte) :=
  let ws := (r.words.take 24).map (·.2)
  let body := ws.flatMap fun w => leBytes 4 w.toNat
  let tr := r.trailer ++ List.replicate (8 - r.trailer.length) 0xFF
  pairsFrom off (body ++ List.replicate (96 - body.length) 0) ++ pairsFrom (off + 0x60) (tr.take 8) ++
    numAt (off + 0x68) 8 r.pc.toNat ++ numAt (off + 0x70) 4 r.seq.toNat ++
    numAt (off + 0x74) 1 (if r.overLong then 25 else r.words.length)

/-- A run record read back. -/
def runFrom (img : Sparse 8) (off : Nat) : RunRec :=
  let n := imgNat img (off + 0x74) 1
  if n = 0 then RunRec.none else
  { words := (upto 0 (min n 24)).map fun i =>
      let w := imgNat img (off + 4 * i) 4
      (bit w 0, BitVec.ofNat 32 w)
    trailer := ((sgets img (off + 0x60) 8).takeWhile (· != 0xFF))
    pc := BitVec.ofNat 64 (imgNat img (off + 0x68) 8), seq := BitVec.ofNat 32 (imgNat img (off + 0x70) 4),
    overLong := n == 25, born := 0 }

/-- Whether a pilot's area can be resumed (R393): FORMAT as written, the pilot PC even, no reserved byte set. -/
def pilotOk (img : Sparse 8) : Bool :=
  imgNat img 0 2 == 1 && imgNat img 0x20 8 % 2 == 0 && (sgets img 0x1C 4 ++ sgets img 0x28 24 ++ sgets img 0x80 128 ++
    sgets img 0x275 11).all (· == 0)

/-- A plane header (R314) for team `u`. -/
def Plane.image (p : Plane) (u off : Nat) : List (Nat × Byte) :=
  numAt off 1 p.bfmt.toNat ++ numAt (off + 1) 1 (b2n p.bsgn) ++ numAt (off + 2) 1 p.bblk.toNat ++
    numAt (off + 3) 1 (b2n (p.owner == some u)) ++ numAt (off + 4) 1 p.kp.toNat

/-- The header page of a team image: header, p0-p31, open run, queues and copy engine context (R314). `gone`
is the exited-group mask; `regs` the fault registers of a pilot-level trap. -/
def Team.headImage (t : Team) (gone : Nat) (regs : Option FaultRegs) : Sparse 8 :=
  let cmd := fun (c : Cmd) => c.bytes
  nonzero (numAt 0 2 1 ++ numAt 2 1 t.groups.length ++ numAt 3 1 (b2n t.pexit) ++ numAt 4 4 t.tid ++
    numAt 8 8 t.partw.toNat ++ numAt 16 8 gone ++ numAt 24 4 t.pseq.toNat ++ numAt 0x20 8 (t.pilot.entry 0).pc.toNat ++
    (match regs with
     | some r => r.image 0x40
     | none => []) ++
    sparseAt 0x100 8 t.pilot.s ++
    t.openRun.image 0x200 ++
    (upto 0 4).flatMap (fun q => (upto 0 8).flatMap fun r =>
      match (t.queues.getD q [])[r]? with
      | some x => x.image (0x400 + 1024 * q + 128 * r)
      | none => []) ++
    numAt 0x2000 8 t.copy.timeline ++ numAt 0x2008 8 t.copy.next ++
    numAt 0x2010 8 (match t.copy.running with
      | some r => r.next
      | none => 0) ++ numAt 0x2018 1 t.copy.queue.length ++
    (match t.copy.running with
     | some r => pairsFrom 0x2040 (cmd r.cmd)
     | none => []) ++
    pairsFrom 0x2080 (t.copy.queue.flatMap cmd))

/-- The byte offset of p-registers' area, which a pilot-level trap names in FIMG (R300, R307): the team image. -/
def pilotArea (b i : Nat) : Nat := imageBase b i

end Sys2Proof.Machine
end

