-- ==== Sys2Proof/Machine/Ops.lean ====
section
/-!
DEFINITION. The operations over the state that instructions and events share: outstanding-operation
counters (R174), region entries (R294), divergence and reconvergence (R121-R126), the end of groups,
teams and grids (R126, R138, R148, R306), taking a trap (R300-R303), a double fault (R305) and the return
from a trap (R393).
-/

namespace Sys2Proof.Machine

/-! ### Outstanding operations (R174) -/

/-- Whether a tile operation counts in the tile class (R451). -/
def TileKind.counts : TileKind → Bool
  | .mswp => false
  | .mzero _ => false
  | _ => true

/-- Whether an issued instruction counts in a class. -/
def Pend.counts (p : Pend) (c : Cls) : Bool :=
  p.cls == c || (c == .load && (match p.act with
    | .remote r _ _ => r
    | _ => false))

/-- The outstanding-operation counter of a class for a unit of a team (R174). -/
def State.count (s : State) (u unit : Nat) (c : Cls) : Nat :=
  let k := s.core (s.coreOf u)
  (s.pends.filter fun p => p.team == u && p.unit == unit && p.counts c).length +
  (match c with
   | .copy => (k.copies.filter fun x => x.team == u && x.unit == unit).length
   | .tile => (k.tileQ.filter fun x => x.team == u && x.unit == unit && x.kind.counts).length
   | _ => 0)

/-- The limit of a class (R174). -/
def Cls.limit : Cls → Nat
  | .load => 32
  | .store => 63
  | .copy => 16
  | .tile => 16
  | .rop => 63
  | .none => 1000000

/-- Whether one more operation of a class would pass its limit (R174). -/
def State.full (s : State) (u unit : Nat) (c : Cls) : Bool := c != .none && c.limit ≤ s.count u unit c

/-- Whether the five counters are at or below limits, an immediate of 15 waiting for nothing (R175). -/
def State.within (s : State) (u unit l st c t r : Nat) : Bool :=
  (l == 15 || s.count u unit .load ≤ l) && (st == 15 || s.count u unit .store ≤ st) &&
    (c == 15 || s.count u unit .copy ≤ c) && (t == 15 || s.count u unit .tile ≤ t) &&
    (r == 15 || s.count u unit .rop ≤ r)

/-- Whether the five counters are 0 (R110). -/
def State.idle (s : State) (u unit : Nat) : Bool := s.within u unit 0 0 0 0 0

/-- Whether a group has an operation in its station's queue (R259). -/
def State.tideBusy (s : State) (u unit : Nat) : Bool :=
  (s.core (s.coreOf u)).station.any fun o => o.team == u && o.unit == unit

/-- Whether an operation holds its group until it completes (R183). -/
def TideOp.returns (o : TideOp) : Bool :=
  match o.kind with
  | .rwr _ ret => ret
  | _ => true

/-- Withdraw a unit's Tideway operation that holds it (R266): it is issued again when the unit goes on. -/
def State.withdrawTide (s : State) (u unit : Nat) : State :=
  s.updCore (s.coreOf u) fun c =>
    { c with station := c.station.filter fun o => !(o.team == u && o.unit == unit && o.returns) }

/-! ### Regions (R294) -/

/-- A region entry at an address. -/
def Grp.regionAt (g : Grp) (pc : U64) : Grp := { g with rgnPc := pc, rgnc := g.rgnc + 1 }

/-- A region entry where fragment `e` now stands. In a run it is the replay point too, with its copy of w0-w7 (R296); the address
of a word of an emitted run is that of the `take` (R380). -/
def Grp.regionHere (g : Grp) (e : Nat) : Grp :=
  let pc := (g.entry e).pc
  match g.run with
  | .none => g.regionAt pc
  | .some r => { g.regionAt pc with run := .some { r with point := r.idx, pointPc := pc, wCopy := r.w } }

/-! ### Divergence and reconvergence (R121-R126) -/

/-- Free entries of the split table, lowest first (R123). -/
def Grp.freeEntries (g : Grp) : List Nat := (upto 0 8).filter fun i => (g.entry i).st == .free && i < g.split.length

/-- The lowest unused serial record. -/
def Grp.freeSerial (g : Grp) : Option Nat := (upto 0 16).find? fun j => !(g.serial.getD j Serial.none).used

/-- Update serial record `j`. -/
def Grp.updSerial (g : Grp) (j : Nat) (f : Serial → Serial) : Grp := { g with serial := modAt g.serial j f }

/-- A fresh active entry (R123). -/
def freshEntry (mask : LaneMask) (pc : U64) (join : Option U64) (parent : Option Nat) : Entry :=
  { st := .active, mask := mask, pc := pc, join := join, pend := .none, parent := parent, srec := .none, loss := 0,
    park := .none }

/-- SerialStart (R125); none when all 16 records are in use. -/
def Grp.serialStart (g : Grp) (e : Nat) (c : LaneMask) (t n : U64) (a : Option U64) : Option Grp :=
  match g.freeSerial with
  | .none => .none
  | .some j =>
    let x := g.entry e
    .some ((g.updSerial j fun _ =>
      { used := true, entry := e, smask := x.mask, pmask := x.mask &&& ~~~c, ppc := n, sjoin := a, link := x.srec }).updEntry e
        fun x => { x with srec := .some j, mask := c, pc := t })

/-- A lane-conditional branch of entry `e` whose condition holds on `c` (R123); none when the split is too deep. -/
def Grp.diverge (g : Grp) (e : Nat) (c : LaneMask) (t n : U64) : Option Grp :=
  let x := g.entry e
  let a := match x.pend with
    | .some p => .some p
    | .none => x.join
  let g := g.updEntry e fun x => { x with pend := .none }
  if c = 0 then .some (g.updEntry e fun x => { x with pc := n })
  else if c = x.mask then .some (g.updEntry e fun x => { x with pc := t })
  else
    let fr := g.freeEntries
    let sib := a == x.join && x.srec.isNone
    match fr with
    | f :: rest =>
      if sib then
        .some ((g.updEntry f fun _ => freshEntry c t a x.parent).updEntry e fun x => { x with mask := x.mask &&& ~~~c, pc := n })
      else
        match rest with
        | y :: _ =>
          .some (((g.updEntry f fun _ => freshEntry c t a (.some e)).updEntry y fun _ =>
            freshEntry (x.mask &&& ~~~c) n a (.some e)).updEntry e fun x =>
              { x with st := .waiting, pc := a.getD 0 })
        | [] => g.serialStart e c t n a
    | [] => g.serialStart e c t n a

/-- Whether some entry names entry `i` as its parent. -/
def Grp.hasChild (g : Grp) (i : Nat) : Bool := g.split.any fun e => e.st != .free && e.parent == .some i

/-- Free entry `i`; a waiting parent whose last child it was is freed too when no lane of it is left (R124, R126). -/
def Grp.freeEntry (g : Grp) : Nat → Nat → Grp
  | 0, _ => g
  | fuel + 1, i =>
    let p := (g.entry i).parent
    let g := g.updEntry i fun _ => Entry.none
    match p with
    | .none => g
    | .some j =>
      let x := g.entry j
      if x.st == .waiting && !g.hasChild j && x.mask == 0 && x.srec.isNone then g.freeEntry fuel j else g

/-- Waiting entries that no entry names as parent (R124). -/
def Grp.ripe (g : Grp) : List Nat := (upto 0 8).filter fun i => (g.entry i).st == .waiting && !g.hasChild i

/-- Remove lanes by `exit` from every entry and serial record (R126); an active entry left empty is freed unless
a serial step applies. -/
def Grp.exitLanes (g : Grp) (l : LaneMask) : Grp :=
  let g := { g with split := g.split.map (fun e => { e with mask := e.mask &&& ~~~l }),
                    serial := g.serial.map fun r => { r with smask := r.smask &&& ~~~l, pmask := r.pmask &&& ~~~l } }
  (upto 0 8).foldl (fun g i =>
    let e := g.entry i
    if e.st == .active && e.mask == 0 && e.srec.isNone then g.freeEntry 9 i else g) g

/-- Whether every entry of the table is free: the group has exited (R126). -/
def Grp.empty (g : Grp) : Bool := g.split.all fun e => e.st == .free

/-- The serial step of entry `e` (R125). -/
def Grp.serialStep (g : Grp) (e : Nat) : Grp :=
  let x := g.entry e
  match x.srec with
  | .none => g
  | .some j =>
    let r := g.serial.getD j Serial.none
    if r.pmask ≠ 0 then
      (g.updEntry e fun x => { x with mask := r.pmask, pc := r.ppc }).updSerial j fun r => { r with pmask := 0 }
    else
      let g := (g.updSerial j fun _ => Serial.none).updEntry e fun x =>
        { x with mask := r.smask, srec := r.link, pc := r.sjoin.getD x.pc }
      if r.smask = 0 && r.link.isNone then g.freeEntry 9 e else g

/-- What the part does with an active entry before it issues (R124): a serial step, or the entry ends at its JOIN. -/
inductive Arrival where
  | go | serial | join
  deriving DecidableEq, Repr

/-- The checks of R124 for entry `e`. -/
def Grp.arrival (g : Grp) (e : Nat) : Arrival :=
  let x := g.entry e
  match x.srec with
  | .some j => if x.mask == 0 || (g.serial.getD j Serial.none).sjoin == .some x.pc then .serial else .go
  | .none => if x.join == .some x.pc then .join else .go

/-! ### Mailbox results (R42) -/

/-- End the mailbox command of a function: its result, and MSI-X vector 0 (R42, R60); what it has read of a root descriptor goes
with it (R67). -/
def State.mailDone (s : State) (fn : Nat) (result : List Byte) : State :=
  (s.updFn fn fun f => { f with running := false, root := none, result := slice result 0 64 }).emit (.msix fn 0)

/-- The 64-byte result of PREEMPT (R114). -/
def preemptResult (ack saved forced : Nat) : List Byte :=
  leBytes 1 0 ++ leBytes 1 ack ++ leBytes 6 0 ++ leBytes 8 saved ++ leBytes 8 forced

/-! ### The end of groups, teams and grids -/

/-- The pool units of a team: registers, scratchpad and tiles (R52, R140). -/
def regUnits (groups vregs : Nat) : Nat := ceilDiv (groups * vregs * 256) 65536
def spadUnits (partw : BitVec 32) : Nat := bits partw.toNat 8 5
def accTiles (partw : BitVec 32) : Nat := bits partw.toNat 13 7
def accUnits (partw : BitVec 32) : Nat := ceilDiv (accTiles partw * 4096) 65536
def Team.vregs (t : Team) : Nat := bits t.partw.toNat 0 8
def Team.acc (t : Team) : Nat := accTiles t.partw
def Team.spadBytes (t : Team) : Nat := spadUnits t.partw * 65536

/-- Freed pool units of a core are to be zeroed, after those that wait for it already (R149). -/
def State.zeroUnits (s : State) (core n : Nat) : State :=
  if n = 0 then s else
  let first := (s.core core).zeroing.isEmpty
  let s := s.updCore core fun c => { c with zeroing := c.zeroing ++ List.replicate n 256 }
  if first then s.nextClk [.poolZeroing core] else s

/-- Free pool units of a team: they are zeroed before they are allotted again (R149). -/
def State.freeUnits (s : State) (u n : Nat) : State :=
  match s.team? u with
  | none => s
  | some t => (s.updTeam u fun t => { t with share := t.share - n }).zeroUnits t.core n

/-- Every unit that the teams of a launch still hold is freed, those of teams that have exited too (R148, R149). -/
def State.freeShares (s : State) (l : Nat) : State :=
  s.teams.foldl (fun s t => if t.launch == l then s.freeUnits t.uid t.share else s) s

/-- The units of a retired launch's teams stay in use until step 5 of the retirement zeroes them (R46, R164). -/
def State.holdShares (s : State) (l ctx : Nat) : State :=
  let s := s.teams.foldl (fun s t => if t.launch == l && t.share != 0 then
      s.updCore t.core fun c => { c with held := c.held ++ [(ctx, t.share)] }
    else s) s
  { s with teams := mapIf (fun t => t.launch == l) (fun t => { t with share := 0 }) s.teams }

/-- Step 5 of R46: the units that a retiring context still held are zeroed. -/
def State.zeroHeld (s : State) (ctx : Nat) : State :=
  (s.cores.map (·.1)).foldl (fun s c =>
    let n := (s.core c).held.foldl (fun a e => if e.1 == ctx then a + e.2 else a) 0
    (s.updCore c fun k => { k with held := k.held.filter fun e => e.1 != ctx }).zeroUnits c n) s

/-- Whether a team's groups have all exited or been saved, and its copy engine context is at rest (R274). -/
def Team.isOver (t : Team) : Bool :=
  t.groups.all (fun g => g.st == .gone || g.st == .saved) && t.copy.running.isNone && t.copy.queue.isEmpty

/-- Planes of a core that a team owns have no owner any more (R452). -/
def Core.disown (c : Core) (u : Nat) : Core :=
  let f := fun (p : Plane) => if p.owner == some u then { p with owner := none } else p
  { c with front := f c.front, shadow := f c.shadow }

/-- Number of teams of a launch and of its clusters (R89). -/
def LaunchRec.teams (r : LaunchRec) : Nat := r.gx * r.gy * r.gz
def LaunchRec.csize (r : LaunchRec) : Nat := r.clw * r.clh
def LaunchRec.clusters (r : LaunchRec) : Nat := ceilDiv r.teams r.csize

/-- Whether every team of a launch has exited: no cluster unplaced or parked, no team of it left (R59, R93). -/
def State.gridOver (s : State) (l : Launch) : Bool :=
  l.nextK == l.lr.clusters && l.parked.isEmpty && s.teams.all fun t => t.launch != l.id || t.ended

/-- Whether a team was saved: some group of it has a save image (R111). -/
def Team.saved (t : Team) : Bool := t.groups.any fun g => g.st == .saved

/-- A cluster whose teams have all been saved or have exited is parked (R111): its pool shares are freed, its saved teams wait
with their images. One whose teams have all exited is gone. -/
def State.parkCluster (s : State) (l k : Nat) : State :=
  let mine := s.teams.filter fun t => t.launch == l && t.cluster == k
  if mine.any (fun t => !t.ended) || mine.all (fun t => !t.saved) then s else
  let s := mine.foldl (fun s t => s.freeUnits t.uid t.share) s
  let c : SavedCluster :=
    { k := k, teams := (mine.filter Team.saved).map fun t => (t.tid, t.index.getD 0),
      done := (mine.filter fun t => !t.saved).map fun t => t.tid, order := mine.map fun t => (t.tid, t.order),
      since := s.time, first := false }
  { s with teams := s.teams.filter fun t => !(t.launch == l && t.cluster == k) }.updLaunch l
    fun x => { x with parked := x.parked ++ [c] }

/-- Post the completion of a grid whose teams have all exited. -/
def State.gridDone (s : State) (id : Nat) : State :=
  match s.launch? id with
  | none => s
  | some l =>
    if l.phase == .running && s.gridOver l && l.pre.isNone then
      (s.updLaunch id fun l => { l with phase := .finishing }).pending [.gridCompletion id]
    else s

/-- The acknowledgement of a pre-emption that saved no team of a grid which stays (R113, R114): HELD without an image, SAVED where the
grid holds images of earlier saves. -/
def Launch.heldAck (l : Launch) : List Byte := preemptResult (if l.parked.isEmpty then 3 else 0) 0 0

/-- The end of a pre-emption (R113): the grid is parked, or has nothing left to save; one of the scheduler's own (R101) lets the
grid go on. -/
def State.preEnd (s : State) (l : Launch) (p : Preempt) : State :=
  let s := s.updLaunch l.id fun l => { l with pre := none }
  match p.host with
  | none => (s.pending [.clusterPlacement l.id]).gridDone l.id
  | some fn =>
    let left := l.nextK != l.lr.clusters || !l.parked.isEmpty
    let park := fun (s : State) => s.updLaunch l.id fun l => { l with phase := .parked, resumeTo := l.phase }
    if p.saved != 0 then (park s).mailDone fn (preemptResult 0 p.saved p.forced)
    else if left then (park s).mailDone fn l.heldAck
    else (s.mailDone fn (preemptResult 1 0 0)).gridDone l.id

/-- A team of a grid has exited or been saved: a pre-emption may be over, or the grid (R59, R111, R113). -/
def State.gridCheck (s : State) (id : Nat) : State :=
  match s.launch? id with
  | none => s
  | some l =>
    match l.pre with
    | none => s.gridDone id
    | some p =>
      let s := p.target.foldl (fun s k => s.parkCluster id k) s
      if s.teams.any fun t => t.launch == id && !t.ended && p.target.contains t.cluster then s
      else
        match s.launch? id with
        | some l => s.preEnd l p
        | none => s

/-- When the last team of a cluster has exited, the scratchpads kept for it are freed (R148). -/
def State.releaseKept (s : State) (t : Team) : State :=
  if s.teams.all fun x => x.launch != t.launch || x.cluster != t.cluster || x.ended then
    s.teams.foldl (fun s x =>
      if x.launch == t.launch && x.cluster == t.cluster && x.kept then
        (s.updTeam x.uid fun x => { x with kept := false }).freeUnits x.uid (spadUnits x.partw)
      else s) s
  else s

/-- A directory entry's HELD mark is dropped at exit and completion (R312). -/
def State.dropIndex (s : State) (u : Nat) : State :=
  match s.team? u with
  | none => s
  | some t =>
    match t.index, s.launch? t.launch with
    | some i, some l =>
      let s := (s.updTeam u fun t => { t with index := none }).updLaunch l.id
        fun l => { l with dir := l.dir.filter (·.1 != i) }
      match l.block with
      | some b => (s.writeDir l.ctx b i t.tid false 0 false).getD s
      | none => s
    | _, _ => s

/-- The last group of a team has exited (R98, R138, R148, R312): its pilot stops, its queued runs and the open run are
discarded, its directory index and its charges end, its units are freed but for a scratchpad that the cluster still uses. -/
def State.lastExit (s : State) (u : Nat) : State :=
  match s.team? u with
  | none => s
  | some t =>
    if !t.charged then s else
    let s := s.dropIndex u
    let s := s.updTeam u fun t =>
      { t with pilot := { t.pilot with st := .gone }, handler := { t.handler with st := .gone }, inTrap := none,
               held := [], pexit := true, openRun := RunRec.none,
               queues := List.replicate 4 [], charged := false, kept := spadUnits t.partw != 0 }
    let s := s.updCore t.core (·.disown u)
    let s := s.updLaunch t.launch fun l => { l with doneN := l.doneN + 1 }
    s.freeUnits u (t.share - spadUnits t.partw)

/-- A team whose groups have exited, and whose copy engine context is at rest, gives its slot back (R274). -/
def State.teamExit (s : State) (u : Nat) : State :=
  match s.team? u with
  | none => s
  | some t => ((s.updTeam u fun t => { t with ended := true }).releaseKept t).gridCheck t.launch

/-- A team whose groups have all exited ends once its copy engine context is at rest (R126, R138, R274); one of which some
groups were saved is saved (R111). -/
def State.teamCheck (s : State) (u : Nat) : State :=
  match s.team? u with
  | none => s
  | some t =>
    if t.ended || !t.groups.all fun g => g.st == .gone || g.st == .saved then s
    else if t.saved then s.pending [.cooperativeSave u 0]
    else
      let s := s.lastExit u
      if t.isOver then s.teamExit u else s

/-- A group of a team has exited (R126): the team ends with its last one. -/
def State.groupGone (s : State) (u unit : Nat) : State :=
  (s.updGrp u unit fun g => { g with st := .gone, run := none }).teamCheck u

/-- Everything of a launch's teams stops at once, without a save (R59, R306). Their issued writes complete, and so do their
queued rewrites without a return. -/
def State.stopTeams (s : State) (l : Nat) : State :=
  let mine := fun u => s.teams.any fun t => t.uid == u && t.launch == l
  let s := s.teams.foldl (fun s t =>
    if t.launch == l && !t.ended then
      s.updCore t.core fun c => { c.disown t.uid with
          station := c.station.filter fun o => o.team != t.uid || !o.returns
          tileQ := c.tileQ.filter (·.team != t.uid)
          copies := c.copies.filter (·.team != t.uid) }
    else s) s
  let dead := fun (g : Grp) => { g with st := UnitState.gone, run := none }
  let s := { s with teams := mapIf (fun t => t.launch == l) (fun t =>
    { t with groups := t.groups.map dead, handler := dead t.handler, pilot := dead t.pilot, pexit := true,
             inTrap := none, held := [], charged := false, ended := true, kept := false, index := none,
             openRun := RunRec.none, queues := List.replicate 4 [] }) s.teams }
  { s with pends := s.pends.filter fun p => !(mine p.team && p.cls != .store && p.cls != .rop) }

/-- Events that make the engines holding commands of a launch discard them (R275): CHUNK_END of each. -/
def State.discardEvents (s : State) (l ctx : Nat) : List Ev :=
  let busy := fun (e : Engine) => e.queue.any (fun c => c.launch == l) || (match e.running with
    | some r => r.cmd.launch == l
    | none => false)
  (s.teams.filter fun t => busy t.copy).map (fun t => Ev.chunkEnd (16 * t.uid)) ++
    (match s.ctx? ctx with
     | some c => ((c.coll ++ [c.sealEng]).filter busy).map fun e => Ev.chunkEnd (16 * ctx + e.id)
     | none => [])

/-- The status code of a task-ending cause (R58, R291). -/
def taskCode : TaskEnd → BitVec 8
  | .leaseMiss => 0x10
  | .peerLost => 0x11
  | .memUncorrectable => 0x12
  | .doubleFault => 0x13
  | .killed => 0x14
  | .trapped => 0x15

/-- A pre-emption that a task-ending fault meets ends with NOTHING_TO_SAVE, and what was saved is discarded (R113). -/
def State.cancelPre (s : State) (l : Launch) : State :=
  let s := s.updLaunch l.id fun l => { l with pre := none, parked := [] }
  match l.pre with
  | some p =>
    match p.host with
    | some fn => s.mailDone fn (preemptResult 1 0 0)
    | none => s
  | none => s

/-- Write a launch's fault report into a block, where there is one to take (R306): the state, and the report's address or 0. The block is
the launch's from then on, whether or not its page takes the report (R311). -/
def State.writeReport (s : State) (x : Launch) (status : BitVec 8) (report : Option Report) : State × Nat :=
  match report with
  | none => (s, 0)
  | some r =>
    match s.takeBlock x.id with
    | none => (s, 0)
    | some (t, b) =>
      match t.saveSpan x.ctx 1 (blockBase b) 256 (r.image status x.ctx) with
      | none => (t, 0)
      | some t => (t, blockBase b)

/-- A task-ending cause (R306): the fault report, if one can be written; every team of the grid stops; the grid
completes with the status. The first cause of a grid counts; a command that its teams left behind can still end it (R275), until
its seal is issued (R63). -/
def State.endTask (s : State) (l : Nat) (status : BitVec 8) (report : Option Report) : State :=
  match s.launch? l with
  | none => s
  | some x =>
    if x.phase == .done || x.status != 0 || x.sealed || s.seals.any (fun j => j.launch == l && !j.cmd) then s else
    let (s, info) := s.writeReport x status report
    let s := ((s.cancelPre x).stopTeams l).freeShares l
    let s := s.post (s.discardEvents l x.ctx)
    let f := fun (y : Launch) =>
      { y with phase := .finishing, status := status, info := info, nextK := y.lr.clusters, parked := [] }
    let s := s.updLaunch l f
    if x.phase == .finishing then s else s.pending [.gridCompletion l]

/-! ### Taking a trap (R291-R293, R300-R303) -/

/-- What raises a trap: cause and detail (R291, R292), the faulting address and lanes, where the trapped
fragment resumes, and a FROP for a ROP_FAULT. -/
structure TrapInfo where
  cause  : Nat
  detail : Nat
  addr   : Nat
  lanes  : LaneMask
  fpc    : U64
  resume : U64
  frop   : U64
  inrun  : Bool
  emitted : Bool
  widx   : Nat
  seq    : BitVec 32
  epc    : U64
  deriving DecidableEq, Repr

/-- The lowest lane of a mask; 0 when it is empty. -/
def lowLane (m : LaneMask) : Nat := (lanesOf m).headD 0

/-- FCAUSE (R308). -/
def fcauseOf (i : TrapInfo) (pilot : Bool) (gid held : Nat) : U64 :=
  BitVec.ofNat 64 (i.cause + i.detail * 2 ^ 8 + b2n pilot * 2 ^ 16 + b2n i.inrun * 2 ^ 17 + b2n i.emitted * 2 ^ 18 +
    gid % 16 * 2 ^ 19 + (if i.inrun then i.widx else 0) * 2 ^ 23 + lowLane i.lanes * 2 ^ 28 + (min held 255) * 2 ^ 34)

/-- The fault registers that a trap loads (R307); FIMG is added when the image has its place. -/
def TrapInfo.regs (i : TrapInfo) (pilot : Bool) (gid held : Nat) (rgn : U64) : FaultRegs :=
  { fcause := fcauseOf i pilot gid held, fpc := i.fpc, faddr := BitVec.ofNat 64 i.addr, flanes := i.lanes,
    fprov := i.seq.setWidth 64, fepc := i.epc, frop := i.frop, fimg := 0, frgn := rgn }

/-- The handler starts at TRAP_ENTRY with the fault registers loaded (R300, R301): s0 is FIMG, s1 is FCAUSE, PRIO
15, the age of the team's oldest group. -/
def State.enterHandler (s : State) (u : Nat) (t : Trapped) : State :=
  match s.launchOf u with
  | none => s
  | some l =>
    s.updTeam u fun x =>
      let age := x.groups.foldl (fun a g => min a g.age) (x.groups.headD Grp.none).age
      { x with
        fregs := t.regs
        inTrap := some { t with preq := (x.grp t.unit).preq, notag := (x.grp t.unit).notag }
        handler := { Grp.none with
          st := .live, prio := 15, age := age, rgnc := 1, rgnPc := l.lr.trap,
          split := freshEntry (BitVec.allOnes 64) l.lr.trap .none .none :: List.replicate 7 Entry.none,
          serial := List.replicate 16 Serial.none,
          s := ssets [] [(0, t.regs.fimg), (1, t.regs.fcause)] } }

/-- Load HELD of FCAUSE as the trap enters the handler (R308). -/
def FaultRegs.withHeld (r : FaultRegs) (n : Nat) : FaultRegs :=
  { r with fcause := (r.fcause &&& ~~~(0xFF#64 <<< 34)) ||| (BitVec.ofNat 64 (min n 255) <<< 34) }

/-- Put a trap behind the held ones; those of one clk stand by GID, the pilot last (R303). -/
def insertTrap (t : Trapped) : List Trapped → List Trapped
  | [] => [t]
  | x :: l => if x.born = t.born ∧ t.unit < x.unit then t :: x :: l else x :: insertTrap t l

/-- The GID that a trap's registers name (R308): the unit's own, for the handler slot that of the unit it handles, 0 for a pilot. -/
def Team.trapGid (t : Team) (unit : Nat) : Nat :=
  if unit < 16 then unit
  else if unit = 16 then (match t.inTrap with
    | some x => if x.unit < 16 then x.unit else 0
    | none => 0)
  else 0

/-- Whether a trap in a unit is at the pilot level (R308): in the pilot, or in the handler of a pilot's trap. -/
def Team.pilotLevel (t : Team) (unit : Nat) : Bool :=
  unit == 17 || (unit == 16 && t.inTrap.any (·.unit == 17))

/-- A double fault (R305): the grid completes with DOUBLE_FAULT. -/
def State.doubleFault (s : State) (u unit : Nat) (regs : FaultRegs) : State :=
  match s.team? u with
  | none => s
  | some t => s.endTask t.launch 0x13 (some { gid := t.trapGid unit, tid := t.tid, regs := regs })

/-- A trap enters the handler with `n` traps held behind it: HELD of FCAUSE stands in the image as it is loaded (R308, R315). -/
def State.loadTrap (s : State) (u : Nat) (t : Trapped) (n : Nat) : State :=
  let t' := { t with regs := t.regs.withHeld n }
  if t'.regs.fcause = t.regs.fcause then s.enterHandler u t'
  else
    match s.saveSpan (s.ctxOf u) 2 (t.regs.fimg.toNat + if t.unit = 17 then 0x40 else 0x80) 8
        (nonzero (numAt 0 8 t'.regs.fcause.toNat)) with
    | none => s.doubleFault u t.unit t'.regs
    | some s => s.enterHandler u t'

/-- A trap whose image is written enters the handler, or is held behind the one that runs, which it comes before when both
arose in this clk and its GID is lower (R303); in a team that is being saved by force it waits for the resumption (R310). -/
def State.trapIn (s : State) (u : Nat) (t : Trapped) : State :=
  let forced := match s.team? u with
    | some x => x.forced
    | none => false
  match s.inTrap u with
  | none => if forced then s.updTeam u fun x => { x with held := insertTrap t x.held } else s.enterHandler u t
  | some x =>
    if !forced && x.born == t.born && t.unit < x.unit then
      let held := match s.team? u with
        | some y => x :: y.held
        | none => [x]
      (s.updTeam u fun y => { y with held := held }).loadTrap u t held.length
    else s.updTeam u fun y => { y with held := insertTrap t y.held }

/-- The bits of the exited-group mask of a team image (R314). -/
def Team.goneMask (t : Team) : Nat :=
  (upto 0 t.groups.length).foldl (fun a i => if (t.groups.getD i Grp.none).st == .gone then a + 2 ^ i else a) 0

/-- Write the image of a trapped unit at its team's index: a group image of KIND 3, or the pilot area (R300). -/
def State.writeTrap (s : State) (l : Launch) (u : Nat) (p : Party) (i : TrapInfo) (b idx : Nat) (regs : FaultRegs) :
    Option State :=
  match s.team? u with
  | none => none
  | some t =>
    if p.unit = 17 then
      s.saveSpan l.ctx 2 (imageBase b idx) 0x4000
        ({ t with pilot := t.pilot.updEntry 0 fun e => { e with pc := i.resume } }.headImage t.goneMask (some regs))
    else
      s.saveSpan l.ctx 3 (imageBase b idx + grpImageAt p.unit) grpImageSize
        ((t.grp p.unit).image { kind := 3, gid := p.unit, tent := p.entry, pc := i.resume, regs := regs })

/-- Instruction bytes that a peer sent for a unit are asked for again when it next fetches. -/
def State.dropFetch (s : State) (u unit : Nat) : State :=
  { s with fetches := s.fetches.filter fun (b : FetchBuf) => !(b.team == u && b.unit == unit) }

/-- Taking a trap (R300): the unit of party `p` stops, its image is written with KIND 3, the fault registers are
loaded and the handler starts, or the trap is held (R303). Without a handler, and without a launch block, the
grid completes with TRAPPED. In the handler slot it is a double fault (R305). -/
def State.takeTrap (s : State) (p : Party) (i : TrapInfo) : State :=
  match s.team? p.team, s.launchOf p.team with
  | some t, some l =>
    let g := t.grp p.unit
    let pilot := p.unit == 17
    let gid := t.trapGid p.unit
    let regs := i.regs (t.pilotLevel p.unit) gid 0 (if pilot then 0 else g.rgnPc)
    if p.unit = 16 then s.doubleFault p.team p.unit regs else
    let s := ((s.updGrp p.team p.unit fun g => { g with st := .stopped }).withdrawTide p.team p.unit).dropFetch p.team p.unit
    if l.lr.trap = 0 then s.endTask l.id 0x15 (some { gid := gid, tid := t.tid, regs := regs }) else
    match s.takeBlock l.id with
    | none => s.endTask l.id 0x15 none
    | some (s, b) =>
      match s.takeIndex p.team b with
      | none => s.doubleFault p.team p.unit regs
      | some (s, idx) =>
        let img := if pilot then pilotArea b idx else imageBase b idx + grpImageAt p.unit
        let regs := { regs with fimg := BitVec.ofNat 64 img }
        match s.writeTrap l p.team p i b idx regs with
        | none => s.doubleFault p.team p.unit regs
        | some s => s.trapIn p.team { unit := p.unit, regs := regs, entry := p.entry, born := s.clk, preq := false, notag := false }
  | _, _ => s

/-- The trap of a group that is not issuing: WATCHDOG or a ROP_FAULT that came back (R99, R208). The fragment is
the lowest active entry unless `e` is active; a group in a run resumes at the run's replay point (R296). -/
def State.takeTrapAt (s : State) (u unit e : Nat) (i : TrapInfo) : State :=
  let g := s.grp u unit
  let e := match g.run with
    | some r => r.entry
    | none => if (g.entry e).st == .active then e else ((upto 0 8).find? fun k => (g.entry k).st == .active).getD 0
  let pc := match g.run with
    | some r => if r.emitted.isSome then (g.entry e).pc else r.pointPc
    | none => (g.entry e).pc
  s.takeTrap { team := u, unit := unit, entry := e } { i with resume := if i.resume = 0 then pc else i.resume }

/-! ### Results that come back after a trap (R293) -/

/-- Where the image of a trapped unit stands (R307): FIMG of the trap that stopped it. -/
def State.trapImage (s : State) (u unit : Nat) : Option Nat :=
  match s.team? u with
  | none => none
  | some t =>
    let l := (match t.inTrap with
      | some x => [x]
      | none => []) ++ t.held
    (l.find? fun x => x.unit == unit).map fun x => x.regs.fimg.toNat

/-- Whether a unit is stopped by a trap. -/
def State.trapStopped (s : State) (u unit : Nat) : Bool := (s.grp u unit).st == .stopped && (s.trapImage u unit).isSome

/-- Put bytes into the image of a trapped unit, if it has one; a page that does not take them is a double fault (R305). -/
def State.putImage (s : State) (u unit off : Nat) (bs : List Byte) : State :=
  match s.trapImage u unit with
  | none => s
  | some a =>
    match s.saveSpan (s.ctxOf u) 2 (a + off) bs.length (nonzero (pairsFrom 0 bs)) with
    | some s => s
    | none =>
      let regs := match s.team? u with
        | some t => t.fregs
        | none => FaultRegs.zero
      s.doubleFault u unit regs

/-- Update a unit's vector registers by results that come back; a trapped group's image takes them too, because the group is
reloaded from it (R293, R304). -/
def State.putLanes (s : State) (u unit : Nat) (l : List (Nat × Nat × Lane)) (f : Grp → Grp) : State :=
  (l.filter fun e => e.1 < 248).foldl (fun s e => s.putImage u unit (0x2000 + 256 * e.1 + 4 * e.2.1) (leBytes 4 e.2.2.toNat)) (s.updGrp u unit f)

/-- The same for uniform registers. -/
def State.putUniform (s : State) (u unit r : Nat) (x : U64) : State :=
  (s.updGrp u unit fun g => { g with s := sset g.s r x }).putImage u unit
    ((if unit = 17 then 0x100 else 0x1000) + 8 * r) (leBytes 8 x.toNat)

/-! ### The return from a trap (R304, R393) -/

/-- The next held trap enters the handler, or the slot is empty and the matrix unit thaws (R303, R393). -/
def State.nextTrap (s : State) (u : Nat) : State :=
  match s.team? u with
  | none => s
  | some t =>
    let s := s.updTeam u fun t => { t with handler := { Grp.none with st := .gone }, inTrap := none }
    match (if t.ended then [] else t.held) with
    | [] => s
    | h :: rest =>
      let s := s.updTeam u fun t => { t with held := rest }
      s.loadTrap u h rest.length

/-- Resume the run of a reloaded group at its replay point (R296), unless the handler moved RESUMEPC. -/
def Grp.resumeRun (g : Grp) (tent : Nat) (pc old : U64) : Grp :=
  match g.run with
  | .none => g
  | .some r =>
    if r.entry = tent ∧ pc = old then
      { g with run := .some { r with idx := r.point, w := r.wCopy } }
    else { g with run := .none }

/-- A fragment that waits for a sync object or a record goes on waiting after a trap of its group. -/
def Entry.keepPark (new old : Entry) : Entry :=
  match old.park with
  | .some (.sync x y) => if new.st == .active && new.pc == old.pc then { new with park := .some (.sync x y) } else new
  | .some (.read x) => if new.st == .active && new.pc == old.pc then { new with park := .some (.read x) } else new
  | _ => new

/-- The waits of a group's fragments as they stood. -/
def Grp.keepParks (new old : Grp) : Grp :=
  { new with split := (new.split.zip (old.split ++ List.replicate 8 Entry.none)).map fun e => e.1.keepPark e.2 }

/-- A tret's image that cannot be loaded (R304, R305): a poisoned word of it ends the task with MEM_UNCORRECTABLE (R204), anything else
is a double fault. -/
def State.tretFault (s : State) (u : Nat) (tr : Trapped) (ctx fuel n : Nat) : State :=
  if s.loadStatus ctx fuel tr.regs.fimg.toNat n = 0x12 then
    match s.team? u with
    | none => s
    | some t => s.endTask t.launch 0x12 (some { gid := t.trapGid 16, tid := t.tid, regs := tr.regs })
  else s.doubleFault u 16 tr.regs

/-- The return from a trap (R393): the image that FIMG names, with the handler's changes, is checked and the unit
reloaded from it; then the next held trap enters. A malformed image is a double fault. -/
def State.returnFromTrap (s : State) (u : Nat) : State :=
  match s.team? u, s.launchOf u with
  | some t, some l =>
    match t.inTrap with
    | none => s
    | some tr =>
      let base := tr.regs.fimg.toNat
      if tr.unit = 17 then
        let s := s.reachSave l.ctx 2 base 0x4000
        match s.loadSpan l.ctx 2 base 0x4000 0 with
        | none => s.tretFault u tr l.ctx 2 0x4000
        | some img =>
          let pc := imgNat img 0x20 8
          if !pilotOk img then s.doubleFault u 16 tr.regs else
          let ends := imgNat img 3 1 != 0
          let s := s.updTeam u fun t =>
            { t with openRun := runFrom img 0x200,
                     pseq := BitVec.ofNat 32 (imgNat img 0x18 4),
                     pexit := ends,
                     pilot := ({ t.pilot with st := if ends then .gone else .live, s := sparseFrom 64 img 0x100 8 32 }).updEntry 0
                       fun e => { e with pc := BitVec.ofNat 64 pc, park := none } }
          s.nextTrap u
      else
        let s := s.reachSave l.ctx 3 base grpImageSize
        match s.loadSpan l.ctx 3 base grpImageSize 0 with
        | none => s.tretFault u tr l.ctx 3 grpImageSize
        | some img =>
          if !imageOk img tr.unit t.vregs then s.doubleFault u 16 tr.regs else
          let pc := BitVec.ofNat 64 (imgNat img 8 8)
          let tent := imgNat img 4 1
          let old := match (t.grp tr.unit).run with
            | some r => (if r.emitted.isSome then ((t.grp tr.unit).entry r.entry).pc else r.pointPc)
            | none => 0
          let s := s.updGrp u tr.unit fun g =>
            let g := (g.reload img t.vregs).keepParks g
            let g := if (g.entry tent).st == .active then g.updEntry tent fun e => { e with pc := pc } else g
            g.resumeRun tent pc old
          s.nextTrap u
  | _, _ => s

end Sys2Proof.Machine
end

