-- ==== Sys2Proof/Machine/Operands.lean ====
section
/-!
DEFINITION. Operands and issue: what each encoded instruction reads, writes and where it may stand (`Sig`,
from the tables of R347-R360 and the field rules of R322), the checks of R362 in their order, the waits at
issue (R103, R174), register access for groups, pilots and handler slots, immediates (R323) and the
advance of the PC. `issue` is the frame that every encoded instruction's meaning runs in.
-/

namespace Sys2Proof.Machine

/-- What an instruction reads and writes and where it may stand: Run and Pilot columns (R350), whether it is a
pilot instruction (R382), `tret` (R393), or barred from the handler slot (R301, R434); vector registers
read and written; tiles; the mask written; masks, uniform, format-block and tensor registers named, and the uniform register
fields themselves where those name ranges of registers (R11), and the last register of each range that may not pass the end of its file
(R443, R446); the counter classes it increments (R174); the unit it needs (R103): 1
a vector pipe, 2 the SFU, 3 the memory
port, 4 the matrix unit. -/
structure Sig where
  runOk : Bool := true
  pilotOk : Bool := false
  pilotOnly : Bool := false
  handlerOnly : Bool := false
  hnd : Bool := true
  vr : List Nat := []
  vw : List Nat := []
  tiles : List Nat := []
  md : Option Nat := none
  mr : List Nat := []
  sr : List Nat := []
  sw : List Nat := []
  uf : List Nat := []
  rng : List Nat := []
  fr : List Nat := []
  dr : List Nat := []
  cls : List Cls := []
  unit : Nat := 0
  deriving DecidableEq, Repr

/-- The last register of the operand of `rwr`, where that is a range (R446): bytemax and cas64. -/
def rwrRange (d code : Nat) : List Nat := if code = 8 then [d + 7] else if code = 7 then [d + 1] else []

/-- The signature of each encoded instruction. -/
def sigOf : Instr → Sig
  | .add16 p vd vb => { vr := [vd.toNat, vb.toNat], vw := [vd.toNat], mr := [p.mask.toNat], unit := 1 }
  | .addImm16 p vd _ => { vr := [vd.toNat], vw := [vd.toNat], mr := [p.mask.toNat], unit := 1 }
  | .sub16 p vd vb => { vr := [vd.toNat, vb.toNat], vw := [vd.toNat], mr := [p.mask.toNat], unit := 1 }
  | .mul16 p vd vb => { vr := [vd.toNat, vb.toNat], vw := [vd.toNat], mr := [p.mask.toNat], unit := 1 }
  | .and16 p vd vb => { vr := [vd.toNat, vb.toNat], vw := [vd.toNat], mr := [p.mask.toNat], unit := 1 }
  | .or16 p vd vb => { vr := [vd.toNat, vb.toNat], vw := [vd.toNat], mr := [p.mask.toNat], unit := 1 }
  | .xor16 p vd vb => { vr := [vd.toNat, vb.toNat], vw := [vd.toNat], mr := [p.mask.toNat], unit := 1 }
  | .shl16 p vd _ => { vr := [vd.toNat], vw := [vd.toNat], mr := [p.mask.toNat], unit := 1 }
  | .shr16 p vd _ => { vr := [vd.toNat], vw := [vd.toNat], mr := [p.mask.toNat], unit := 1 }
  | .sra16 p vd _ => { vr := [vd.toNat], vw := [vd.toNat], mr := [p.mask.toNat], unit := 1 }
  | .min16 p vd vb => { vr := [vd.toNat, vb.toNat], vw := [vd.toNat], mr := [p.mask.toNat], unit := 1 }
  | .max16 p vd vb => { vr := [vd.toNat, vb.toNat], vw := [vd.toNat], mr := [p.mask.toNat], unit := 1 }
  | .minu16 p vd vb => { vr := [vd.toNat, vb.toNat], vw := [vd.toNat], mr := [p.mask.toNat], unit := 1 }
  | .maxu16 p vd vb => { vr := [vd.toNat, vb.toNat], vw := [vd.toNat], mr := [p.mask.toNat], unit := 1 }
  | .fadd16 p vd vb => { vr := [vd.toNat, vb.toNat], vw := [vd.toNat], mr := [p.mask.toNat], unit := 1 }
  | .fmul16 p vd vb => { vr := [vd.toNat, vb.toNat], vw := [vd.toNat], mr := [p.mask.toNat], unit := 1 }
  | .add p d a b u => { vr := if u then [a.toNat] else [a.toNat, b.toNat], sr := if u then [b.toNat] else [], vw := [d.toNat], mr := [p.mask.toNat], unit := 1 }
  | .sub p d a b u => { vr := if u then [a.toNat] else [a.toNat, b.toNat], sr := if u then [b.toNat] else [], vw := [d.toNat], mr := [p.mask.toNat], unit := 1 }
  | .and p d a b u => { vr := if u then [a.toNat] else [a.toNat, b.toNat], sr := if u then [b.toNat] else [], vw := [d.toNat], mr := [p.mask.toNat], unit := 1 }
  | .or p d a b u => { vr := if u then [a.toNat] else [a.toNat, b.toNat], sr := if u then [b.toNat] else [], vw := [d.toNat], mr := [p.mask.toNat], unit := 1 }
  | .xor p d a b u => { vr := if u then [a.toNat] else [a.toNat, b.toNat], sr := if u then [b.toNat] else [], vw := [d.toNat], mr := [p.mask.toNat], unit := 1 }
  | .shl p d a b u => { vr := if u then [a.toNat] else [a.toNat, b.toNat], sr := if u then [b.toNat] else [], vw := [d.toNat], mr := [p.mask.toNat], unit := 1 }
  | .shr p d a b u => { vr := if u then [a.toNat] else [a.toNat, b.toNat], sr := if u then [b.toNat] else [], vw := [d.toNat], mr := [p.mask.toNat], unit := 1 }
  | .sra p d a b u => { vr := if u then [a.toNat] else [a.toNat, b.toNat], sr := if u then [b.toNat] else [], vw := [d.toNat], mr := [p.mask.toNat], unit := 1 }
  | .mul p d a b u => { vr := if u then [a.toNat] else [a.toNat, b.toNat], sr := if u then [b.toNat] else [], vw := [d.toNat], mr := [p.mask.toNat], unit := 1 }
  | .mad p d a b u => { vr := if u then [a.toNat, d.toNat] else [a.toNat, b.toNat, d.toNat], sr := if u then [b.toNat] else [], vw := [d.toNat], mr := [p.mask.toNat], unit := 1 }
  | .mulh p d a b u => { vr := if u then [a.toNat] else [a.toNat, b.toNat], sr := if u then [b.toNat] else [], vw := [d.toNat], mr := [p.mask.toNat], unit := 1 }
  | .mulhu p d a b u => { vr := if u then [a.toNat] else [a.toNat, b.toNat], sr := if u then [b.toNat] else [], vw := [d.toNat], mr := [p.mask.toNat], unit := 1 }
  | .min p d a b u => { vr := if u then [a.toNat] else [a.toNat, b.toNat], sr := if u then [b.toNat] else [], vw := [d.toNat], mr := [p.mask.toNat], unit := 1 }
  | .minu p d a b u => { vr := if u then [a.toNat] else [a.toNat, b.toNat], sr := if u then [b.toNat] else [], vw := [d.toNat], mr := [p.mask.toNat], unit := 1 }
  | .max p d a b u => { vr := if u then [a.toNat] else [a.toNat, b.toNat], sr := if u then [b.toNat] else [], vw := [d.toNat], mr := [p.mask.toNat], unit := 1 }
  | .maxu p d a b u => { vr := if u then [a.toNat] else [a.toNat, b.toNat], sr := if u then [b.toNat] else [], vw := [d.toNat], mr := [p.mask.toNat], unit := 1 }
  | .bfx p d a b u => { vr := if u then [a.toNat] else [a.toNat, b.toNat], sr := if u then [b.toNat] else [], vw := [d.toNat], mr := [p.mask.toNat], unit := 1 }
  | .bfi p d a b u => { vr := if u then [a.toNat, d.toNat] else [a.toNat, b.toNat, d.toNat], sr := if u then [b.toNat] else [], vw := [d.toNat], mr := [p.mask.toNat], unit := 1 }
  | .cmp p _ m a b u => { vr := if u then [a.toNat] else [a.toNat, b.toNat], sr := if u then [b.toNat] else [], md := some m.toNat, mr := [p.mask.toNat], unit := 1 }
  | .fcmp p _ m a b u => { vr := if u then [a.toNat] else [a.toNat, b.toNat], sr := if u then [b.toNat] else [], md := some m.toNat, mr := [p.mask.toNat], unit := 1 }
  | .fadd p d a b u => { vr := if u then [a.toNat] else [a.toNat, b.toNat], sr := if u then [b.toNat] else [], vw := [d.toNat], mr := [p.mask.toNat], unit := 1 }
  | .fsub p d a b u => { vr := if u then [a.toNat] else [a.toNat, b.toNat], sr := if u then [b.toNat] else [], vw := [d.toNat], mr := [p.mask.toNat], unit := 1 }
  | .fmul p d a b u => { vr := if u then [a.toNat] else [a.toNat, b.toNat], sr := if u then [b.toNat] else [], vw := [d.toNat], mr := [p.mask.toNat], unit := 1 }
  | .ffma p d a b u => { vr := if u then [a.toNat, d.toNat] else [a.toNat, b.toNat, d.toNat], sr := if u then [b.toNat] else [], vw := [d.toNat], mr := [p.mask.toNat], unit := 1 }
  | .fmin p d a b u => { vr := if u then [a.toNat] else [a.toNat, b.toNat], sr := if u then [b.toNat] else [], vw := [d.toNat], mr := [p.mask.toNat], unit := 1 }
  | .fmax p d a b u => { vr := if u then [a.toNat] else [a.toNat, b.toNat], sr := if u then [b.toNat] else [], vw := [d.toNat], mr := [p.mask.toNat], unit := 1 }
  | .addImm p d a _ => { vr := [a.toNat], vw := [d.toNat], mr := [p.mask.toNat], unit := 1 }
  | .mulImm p d a _ => { vr := [a.toNat], vw := [d.toNat], mr := [p.mask.toNat], unit := 1 }
  | .andImm p d a _ => { vr := [a.toNat], vw := [d.toNat], mr := [p.mask.toNat], unit := 1 }
  | .orImm p d a _ => { vr := [a.toNat], vw := [d.toNat], mr := [p.mask.toNat], unit := 1 }
  | .xorImm p d a _ => { vr := [a.toNat], vw := [d.toNat], mr := [p.mask.toNat], unit := 1 }
  | .shlImm p d a _ => { vr := [a.toNat], vw := [d.toNat], mr := [p.mask.toNat], unit := 1 }
  | .shrImm p d a _ => { vr := [a.toNat], vw := [d.toNat], mr := [p.mask.toNat], unit := 1 }
  | .sraImm p d a _ => { vr := [a.toNat], vw := [d.toNat], mr := [p.mask.toNat], unit := 1 }
  | .cmpImm p _ m a _ => { vr := [a.toNat], md := some m.toNat, mr := [p.mask.toNat], unit := 1 }
  | .rcp p d a => { vr := [a.toNat], vw := [d.toNat], mr := [p.mask.toNat], unit := 2 }
  | .rsq p d a => { vr := [a.toNat], vw := [d.toNat], mr := [p.mask.toNat], unit := 2 }
  | .sqrt p d a => { vr := [a.toNat], vw := [d.toNat], mr := [p.mask.toNat], unit := 2 }
  | .exp2 p d a => { vr := [a.toNat], vw := [d.toNat], mr := [p.mask.toNat], unit := 2 }
  | .log2 p d a => { vr := [a.toNat], vw := [d.toNat], mr := [p.mask.toNat], unit := 2 }
  | .sin p d a => { vr := [a.toNat], vw := [d.toNat], mr := [p.mask.toNat], unit := 2 }
  | .cos p d a => { vr := [a.toNat], vw := [d.toNat], mr := [p.mask.toNat], unit := 2 }
  | .tanh p d a => { vr := [a.toNat], vw := [d.toNat], mr := [p.mask.toNat], unit := 2 }
  | .fabs p d a => { vr := [a.toNat], vw := [d.toNat], mr := [p.mask.toNat], unit := 1 }
  | .fneg p d a => { vr := [a.toNat], vw := [d.toNat], mr := [p.mask.toNat], unit := 1 }
  | .fclass p d a => { vr := [a.toNat], vw := [d.toNat], mr := [p.mask.toNat], unit := 1 }
  | .frnd p d a => { vr := [a.toNat], vw := [d.toNat], mr := [p.mask.toNat], unit := 1 }
  | .fcvt p d a _ => { vr := [a.toNat], vw := [d.toNat], mr := [p.mask.toNat], unit := 1 }
  | .not p d a => { vr := [a.toNat], vw := [d.toNat], mr := [p.mask.toNat], unit := 1 }
  | .abs p d a => { vr := [a.toNat], vw := [d.toNat], mr := [p.mask.toNat], unit := 1 }
  | .neg p d a => { vr := [a.toNat], vw := [d.toNat], mr := [p.mask.toNat], unit := 1 }
  | .pop p d a => { vr := [a.toNat], vw := [d.toNat], mr := [p.mask.toNat], unit := 1 }
  | .clz p d a => { vr := [a.toNat], vw := [d.toNat], mr := [p.mask.toNat], unit := 1 }
  | .sel p d a x => { vr := [a.toNat, d.toNat], vw := [d.toNat], mr := [x.toNat] ++ [p.mask.toNat], unit := 1 }
  | .mand p d a k => { md := some d.toNat, mr := [a.toNat, k.toNat] ++ [p.mask.toNat], unit := 1 }
  | .mor p d a k => { md := some d.toNat, mr := [a.toNat, k.toNat] ++ [p.mask.toNat], unit := 1 }
  | .mxor p d a k => { md := some d.toNat, mr := [a.toNat, k.toNat] ++ [p.mask.toNat], unit := 1 }
  | .mnot p d a => { md := some d.toNat, mr := [a.toNat] ++ [p.mask.toNat], unit := 1 }
  | .mmov p d a => { md := some d.toNat, mr := [a.toNat] ++ [p.mask.toNat], unit := 1 }
  | .mpop p d a => { vw := [d.toNat], mr := [a.toNat] ++ [p.mask.toNat], unit := 1 }
  | .mfirst p d a => { md := some d.toNat, mr := [a.toNat] ++ [p.mask.toNat], unit := 1 }
  | .mset p d a => { md := some d.toNat, vr := [a.toNat], mr := [p.mask.toNat], unit := 1 }
  | .shfUp p d a _ => { vr := [a.toNat], vw := [d.toNat], mr := [p.mask.toNat], unit := 1 }
  | .shfDn p d a _ => { vr := [a.toNat], vw := [d.toNat], mr := [p.mask.toNat], unit := 1 }
  | .shfXor p d a _ => { vr := [a.toNat], vw := [d.toNat], mr := [p.mask.toNat], unit := 1 }
  | .shfRot p d a _ => { vr := [a.toNat], vw := [d.toNat], mr := [p.mask.toNat], unit := 1 }
  | .shfIdx p d a => { vr := [a.toNat, d.toNat], vw := [d.toNat], mr := [p.mask.toNat], unit := 1 }
  | .sct p d a => { vr := [a.toNat, d.toNat], vw := [d.toNat], mr := [p.mask.toNat], unit := 1 }
  | .bcst p d a => { vr := [a.toNat], vw := [d.toNat], mr := [p.mask.toNat], unit := 1 }
  | .lred p d a _ => { vr := [a.toNat], vw := [d.toNat], mr := [p.mask.toNat], unit := 1 }
  | .scan p d a _ => { vr := [a.toNat], vw := [d.toNat], mr := [p.mask.toNat], unit := 1 }
  | .scanEx p d a _ => { vr := [a.toNat], vw := [d.toNat], mr := [p.mask.toNat], unit := 1 }
  | .tbl p d a n _ => { vw := [d.toNat], vr := d.toNat :: upto a.toNat (n.toNat + 1), mr := [p.mask.toNat], unit := 1 }
  | .vote p d a _ => { vr := [a.toNat], vw := [d.toNat], mr := [p.mask.toNat], unit := 1 }
  | .lid p d => { vw := [d.toNat], mr := [p.mask.toNat], unit := 1 }
  | .ld p m => { sr := [m.base.toNat], vw := (if m.size = 3 then [m.d.toNat, m.d.toNat + 1] else [m.d.toNat]), vr := [m.a.toNat], cls := [.load], mr := [p.mask.toNat], unit := 3 }
  | .ldc p m => { sr := [m.base.toNat], vw := (if m.size = 3 then [m.d.toNat, m.d.toNat + 1] else [m.d.toNat]), vr := [m.a.toNat], cls := [.load], mr := [p.mask.toNat], unit := 3 }
  | .st p m => { sr := [m.base.toNat], vr := m.a.toNat :: (if m.size = 3 then [m.d.toNat, m.d.toNat + 1] else [m.d.toNat]), cls := [.store], mr := [p.mask.toNat], unit := 3 }
  | .stc p m => { sr := [m.base.toNat], vr := m.a.toNat :: (if m.size = 3 then [m.d.toNat, m.d.toNat + 1] else [m.d.toNat]), cls := [.store], mr := [p.mask.toNat], unit := 3 }
  | .lds p m => { sr := [m.base.toNat], vw := (if m.size = 3 then [m.d.toNat, m.d.toNat + 1] else [m.d.toNat]), vr := [m.a.toNat], cls := [.load], mr := [p.mask.toNat], unit := 3 }
  | .prf p m => { sr := [m.base.toNat], vr := [m.a.toNat], mr := [p.mask.toNat], unit := 3 }
  | .sts p m => { sr := [m.base.toNat], vr := m.a.toNat :: (if m.size = 3 then [m.d.toNat, m.d.toNat + 1] else [m.d.toNat]), cls := [.store], mr := [p.mask.toNat], unit := 3 }
  | .inv p m => { sr := [m.base.toNat], vr := [m.a.toNat], mr := [p.mask.toNat], unit := 3 }
  | .sadd _ d a b => { sw := [d.toNat], sr := [a.toNat, b.toNat], pilotOk := true }
  | .ssub _ d a b => { sw := [d.toNat], sr := [a.toNat, b.toNat], pilotOk := true }
  | .smul _ d a b => { sw := [d.toNat], sr := [a.toNat, b.toNat], pilotOk := true }
  | .smulh _ d a b => { sw := [d.toNat], sr := [a.toNat, b.toNat], pilotOk := true }
  | .sand _ d a b => { sw := [d.toNat], sr := [a.toNat, b.toNat], pilotOk := true }
  | .sor _ d a b => { sw := [d.toNat], sr := [a.toNat, b.toNat], pilotOk := true }
  | .sxor _ d a b => { sw := [d.toNat], sr := [a.toNat, b.toNat], pilotOk := true }
  | .sshl _ d a b => { sw := [d.toNat], sr := [a.toNat, b.toNat], pilotOk := true }
  | .sld _ d a _ => { sr := [a.toNat], sw := [d.toNat], cls := [.load], pilotOk := true, unit := 3 }
  | .sst _ d a _ => { sr := [a.toNat, d.toNat], cls := [.store], pilotOk := true, unit := 3 }
  | .sli _ d _ => { sw := [d.toNat], sr := [], pilotOk := true }
  | .slui _ d _ => { sw := [d.toNat], sr := [d.toNat], pilotOk := true }
  | .saddImm _ d a _ => { sw := [d.toNat], sr := [a.toNat], pilotOk := true }
  | .sandImm _ d a _ => { sw := [d.toNat], sr := [a.toNat], pilotOk := true }
  | .sshlImm _ d a _ => { sw := [d.toNat], sr := [a.toNat], pilotOk := true }
  | .sshrImm _ d a _ => { sw := [d.toNat], sr := [a.toNat], pilotOk := true }
  | .smov d a => { sw := [d.toNat], sr := [a.toNat], pilotOk := true }
  | .sshr d a => { sw := [d.toNat], sr := [a.toNat, d.toNat], pilotOk := true }
  | .ssra d a => { sw := [d.toNat], sr := [a.toNat, d.toNat], pilotOk := true }
  | .smin d a => { sw := [d.toNat], sr := [a.toNat, d.toNat], pilotOk := true }
  | .smax d a => { sw := [d.toNat], sr := [a.toNat, d.toNat], pilotOk := true }
  | .sminu d a => { sw := [d.toNat], sr := [a.toNat, d.toNat], pilotOk := true }
  | .smaxu d a => { sw := [d.toNat], sr := [a.toNat, d.toNat], pilotOk := true }
  | .scmp d a _ => { sw := [d.toNat], sr := [a.toNat, d.toNat], pilotOk := true }
  | .ssel d a x => { sw := [d.toNat], sr := [a.toNat, d.toNat, x.toNat], pilotOk := true }
  | .br _ _ => { runOk := false, pilotOk := true }
  | .call _ l _ => { sw := [l.toNat], runOk := false, pilotOk := true }
  | .rcv _ _ => { runOk := false }
  | .bl _ m _ _ => { mr := [m.toNat], runOk := false }
  | .bc _ c _ => { sr := [c.toNat], runOk := false, pilotOk := true }
  | .nop => { pilotOk := true }
  | .exit => { runOk := false, pilotOk := true }
  | .yield => { runOk := false }
  | .rgn => { runOk := false }
  | .run => { runOk := false }
  | .rend _ _ _ => {  }
  | .take _ => { runOk := false, hnd := false }
  | .jmp a => { sr := [a.toNat], runOk := false, pilotOk := true }
  | .ret a => { sr := [a.toNat], runOk := false, pilotOk := true }
  | .brk _ _ => { runOk := false, pilotOk := true }
  | .acq p a => { sr := [a.toNat], mr := [p.mask.toNat], runOk := false }
  | .rel p a => { sr := [a.toNat], mr := [p.mask.toNat], runOk := false }
  | .fence _ => {  }
  | .bar => { runOk := false, hnd := false }
  | .cbar => { runOk := false, hnd := false }
  | .tlw a _ => { sr := [a.toNat], runOk := false }
  | .tlr d _ => { sw := [d.toNat] }
  | .wait _ _ _ _ _ => { runOk := false }
  | .rop p d a _ _ => { vr := [d.toNat, a.toNat, a.toNat + 1], cls := [.rop], mr := [p.mask.toNat], unit := 3 }
  | .ropr p d a _ _ => { vr := [d.toNat, a.toNat, a.toNat + 1], vw := [d.toNat], cls := [.rop, .load], mr := [p.mask.toNat], unit := 3 }
  | .ropw p d a _ _ => { vr := [d.toNat, a.toNat, a.toNat + 1], cls := [.rop], mr := [p.mask.toNat], unit := 3 }
  | .rdef d a => { sr := [a.toNat, d.toNat], sw := [d.toNat] }
  | .rdel d => { sr := [d.toNat], sw := [d.toNat] }
  | .rstat d a => { sr := [a.toNat], sw := [d.toNat] }
  | .rstatStat d => { sw := [d.toNat] }
  | .board d a => { uf := [d.toNat, a.toNat], rng := [d.toNat + 7], sr := a.toNat :: upto d.toNat 8, sw := [a.toNat], runOk := false }
  | .alight d a => { uf := [d.toNat, a.toNat], rng := [d.toNat + 7], sr := [a.toNat], sw := a.toNat :: upto d.toNat 8, runOk := false }
  | .catch d a => { uf := [d.toNat, a.toNat], rng := [d.toNat + 7], sr := [a.toNat], sw := a.toNat :: upto d.toNat 8, runOk := false }
  | .rwr d a x => { uf := [d.toNat, a.toNat], rng := rwrRange d.toNat x.toNat, sr := a.toNat :: upto d.toNat (if x = 8 then 8 else if x = 7 then 2 else 1), runOk := false }
  | .rwrR d a x => { uf := [d.toNat, a.toNat], rng := rwrRange d.toNat x.toNat, sr := a.toNat :: upto d.toNat (if x = 8 then 8 else if x = 7 then 2 else 1), sw := a.toNat :: upto d.toNat (if x = 8 then 8 else 1), runOk := false }
  | .mstone d => { sw := [d.toNat] }
  | .mld p _ r f o => { dr := [r.toNat], sr := [o.toNat], fr := [f.toNat], cls := [.tile], mr := [p.mask.toNat], hnd := false, unit := 4 }
  | .mswp p => { mr := [p.mask.toNat], hnd := false, unit := 4 }
  | .mmul p t _ r f o => { tiles := [t.toNat], dr := [r.toNat], sr := [o.toNat], fr := [f.toNat], cls := [.tile], mr := [p.mask.toNat], hnd := false, unit := 4 }
  | .mzero p t => { tiles := [t.toNat], mr := [p.mask.toNat], hnd := false, unit := 4 }
  | .mdrain p t _ code r o => { uf := [o.toNat], tiles := [t.toNat], dr := [r.toNat], sr := if code = 3 || code = 4 then [o.toNat, o.toNat + 1] else [o.toNat], cls := [.tile], mr := [p.mask.toNat], hnd := false, unit := 4 }
  | .mrsum p t r f o => { uf := [o.toNat], tiles := [t.toNat], dr := [r.toNat], sr := [o.toNat, o.toNat + 1], fr := [f.toNat], cls := [.tile], mr := [p.mask.toNat], hnd := false, unit := 4 }
  | .msave p obj t a => { tiles := if obj = 0 then [t.toNat] else [], sr := [a.toNat], cls := [.tile], mr := [p.mask.toNat], unit := 4 }
  | .mrest p obj t a => { tiles := if obj = 0 then [t.toNat] else [], sr := [a.toNat], cls := [.tile], mr := [p.mask.toNat], unit := 4 }
  | .mstat p d => { sw := [d.toNat], mr := [p.mask.toNat], unit := 4 }
  | .skd p d a w _ => { vr := if w then [d.toNat, d.toNat + 1] else [d.toNat], sr := [a.toNat], cls := [.store], mr := [p.mask.toNat], unit := 3 }
  | .skh p d a w _ => { vr := if w then [d.toNat, d.toNat + 1] else [d.toNat], sr := [a.toNat], cls := [.store], mr := [p.mask.toNat], unit := 3 }
  | .skq p d a _ => { vr := [d.toNat], sr := [a.toNat], cls := [.store], mr := [p.mask.toNat], unit := 3 }
  | .skm p d a _ _ => { sr := [d.toNat, a.toNat], cls := [.store], mr := [p.mask.toNat], unit := 3 }
  | .skqv p d a _ => { vr := [d.toNat], vw := [d.toNat], sr := [a.toNat], mr := [p.mask.toNat], unit := 3 }
  | .skest p d a _ => { sw := [d.toNat], sr := [a.toNat], mr := [p.mask.toNat], unit := 3 }
  | .sktop p d a _ => { vw := upto d.toNat 3, sr := [a.toNat], mr := [p.mask.toNat], unit := 3 }
  | .sksd p d a _ _ => { sr := [d.toNat, a.toNat], cls := [.store], mr := [p.mask.toNat], unit := 3 }
  | .xadd p d a _ _ => { vr := [d.toNat], sr := [a.toNat], cls := [.store], mr := [p.mask.toNat], unit := 3 }
  | .xrnd p d a _ _ => { vw := [d.toNat], sr := [a.toNat], cls := [.load], mr := [p.mask.toNat], unit := 3 }
  | .xclr p a _ _ => { sr := [a.toNat], cls := [.store], mr := [p.mask.toNat], unit := 3 }
  | .xcp p d a => { dr := [d.toNat, a.toNat], cls := [.copy], mr := [p.mask.toNat] }
  | .xcpFill p d a => { dr := [d.toNat], sr := [a.toNat], cls := [.copy], mr := [p.mask.toNat] }
  | .bat p d => { sw := [d.toNat], mr := [p.mask.toNat] }
  | .wbat a => { sr := [a.toNat], runOk := false }
  | .push d a _ => { uf := [d.toNat, a.toNat], rng := [a.toNat + 15], sw := [d.toNat], sr := upto a.toNat 16, pilotOk := true, hnd := false }
  | .dld p d a _ => { dr := [d.toNat], sr := [a.toNat], cls := [.copy], mr := [p.mask.toNat], unit := 3 }
  | .fmt p d a _ => { fr := [d.toNat], sr := [a.toNat], mr := [p.mask.toNat], unit := 3 }
  | .emit a => { sr := [a.toNat], runOk := false, pilotOk := true, pilotOnly := true, hnd := false }
  | .emitx d a _ => { sr := [d.toNat, a.toNat], runOk := false, pilotOk := true, pilotOnly := true, hnd := false }
  | .ecl a _ => { sr := [a.toNat], runOk := false, pilotOk := true, pilotOnly := true, hnd := false }
  | .ecln d a _ => { sr := [a.toNat], sw := [d.toNat], runOk := false, pilotOk := true, pilotOnly := true, hnd := false }
  | .eqfree d _ => { sw := [d.toNat], runOk := false, pilotOk := true, pilotOnly := true, hnd := false }
  | .csrr d _ _ => { sw := [d.toNat], pilotOk := true }
  | .csrw d _ _ => { sr := [d.toNat], runOk := false, pilotOk := true }
  | .tret => { runOk := false, pilotOk := true, handlerOnly := true }
  | .prio _ => {  }
  | .hint _ => { pilotOk := true }
  | _ => {}

/-! ### The checks of R362 -/

/-- A cause and a detail code (R291, R292). -/
abbrev Cause := Nat × Nat

/-- The first check of R362 that fails, for an instruction that decodes; the handler slot also refuses what R301
bars (every failure there is a double fault). A range of registers that passes p31 in pilot code, or s63 in the handler slot, is a
reserved bit (R443, R446). `words` is what it adds to the `idx` body words before it. -/
def Sig.check (g : Sig) (unit : Nat) (inRun : Bool) (idx words vregs acc : Nat) : Option Cause :=
  if unit == 17 && (if g.uf.isEmpty then g.sr ++ g.sw else g.uf).any (31 < ·) then some (0x20, 0x00)
  else if unit == 17 && g.pilotOk && g.rng.any (31 < ·) then some (0x20, 0x00)
  else if unit == 16 && g.rng.any (63 < ·) then some (0x20, 0x00)
  else if unit == 17 && !g.pilotOk then some (0x20, 0x09)
  else if inRun && !g.runOk then some (0x22, 0x00)
  else if inRun && 24 < idx + words then some (0x22, 0x01)
  else if !inRun && ((g.pilotOnly && unit != 17) || (g.handlerOnly && unit != 16)) then some (0x20, 0x00)
  else if unit == 16 && !g.hnd then some (0x20, 0x00)
  else if !inRun && (g.vr ++ g.vw).any (248 ≤ ·) then some (0x20, 0x0A)
  else if g.md == some 0 then some (0x20, 0x0B)
  else if unit == 16 && ((g.sr ++ g.sw).any (63 < ·) || g.mr.any (3 < ·) || g.md.any (3 < ·) || !g.fr.isEmpty || !g.dr.isEmpty)
    then some (0x20, 0x01)
  else if (g.vr ++ g.vw).any (fun r => vregs ≤ r && r < 248) || g.tiles.any (acc ≤ ·) then some (0x20, 0x01)
  else none

/-! ### Waits at issue -/

/-- Registers of a unit whose result an issued instruction still owes (R103): vector, uniform, format block and
tensor registers. -/
structure Owed where
  v : List Nat
  s : List Nat
  f : List Nat
  d : List Nat
  deriving DecidableEq, Repr

/-- What one pending instruction owes. -/
def Pend.owes (p : Pend) : Owed :=
  match p.act with
  | .lanes d n => { v := if n = 8 then [d, d + 1] else [d], s := [], f := [], d := [] }
  | .uniform d => { v := [], s := [d], f := [], d := [] }
  | .block d => { v := [], s := [], f := [d], d := [] }
  | .record d => { v := [], s := [], f := [], d := [d] }
  | .define d _ => { v := [], s := [d], f := [], d := [] }
  | .defining d _ _ _ _ => { v := [], s := [d], f := [], d := [] }
  | .round d _ => { v := [d], s := [], f := [], d := [] }
  | .remote _ d n => { v := upto d n, s := [], f := [], d := [] }
  | _ => { v := [], s := [], f := [], d := [] }

/-- Whether a pending instruction holds its whole group (R460, R467). -/
def Pend.holds (p : Pend) : Bool :=
  match p.act with
  | .summary _ _ => true
  | .table _ => true
  | _ => false

/-- Whether the scoreboard holds an instruction back (R103): a register it names is owed, or its group is held. -/
def State.blocked (s : State) (u unit : Nat) (g : Sig) : Bool :=
  s.pends.any fun p => p.team == u && p.unit == unit &&
    (p.holds || (let o := p.owes
      o.v.any (fun r => g.vr.contains r || g.vw.contains r) || o.s.any (fun r => g.sr.contains r || g.sw.contains r) ||
        o.f.any g.fr.contains || o.d.any g.dr.contains))

/-- Whether an instruction waits at issue: the scoreboard, or a counter at its limit (R103, R174). -/
def State.waits (s : State) (u unit : Nat) (g : Sig) : Bool :=
  s.blocked u unit g || g.cls.any fun c => s.full u unit c

/-! ### The frame of issue -/

/-- What a meaning knows of its issue: the party, its team's uid, the effective mask (R119), the instruction's
address and the address after it, its body words and whether it stands in a run. -/
structure Iss where
  p    : Party
  mask : LaneMask
  at_  : U64
  next : U64
  words : Nat
  inRun : Bool
  deriving DecidableEq, Repr

/-- A mask register as a fragment reads it: m0 is the fragment's MASK (R9, R121). -/
def Grp.maskReg (g : Grp) (e k : Nat) : LaneMask := if k = 0 then (g.entry e).mask else sget g.m k

/-- What a trap of a party's current instruction reports (R137, R293, R296, R308): in a run, the body word's index
and the run's provenance. -/
def trapInfo (g : Grp) (c : Issuer) (cause detail : Nat) (addr : Nat) (lanes : LaneMask) : TrapInfo :=
  let base : TrapInfo :=
    { cause := cause, detail := detail, addr := addr, lanes := lanes, fpc := c.at_, resume := c.at_, frop := 0,
      inrun := false, emitted := false, widx := 0, seq := 0, epc := 0 }
  match g.run with
  | .none => base
  | .some r =>
    match r.emitted with
    | .none => { base with inrun := true, widx := r.idx, resume := r.pointPc }
    | .some x => { base with inrun := true, emitted := true, widx := r.idx, seq := x.seq, epc := x.pc }

/-- Trap the issuing party, its run taken into account (R300). -/
def State.trap (s : State) (cause detail : Nat) (addr : Nat := 0) (lanes : LaneMask := 0) : State :=
  match s.cur with
  | none => s
  | some c => s.takeTrap c.p (trapInfo (s.grp c.p.team c.p.unit) c cause detail addr lanes)

/-- A task-ending cause that the issuing party meets (R306). -/
def State.endBy (s : State) (status : BitVec 8) (addr : Nat := 0) (lanes : LaneMask := 0) : State :=
  match s.cur with
  | none => s
  | some c =>
    match s.team? c.p.team with
    | none => s
    | some t =>
      let g := t.grp c.p.unit
      let gid := t.trapGid c.p.unit
      let regs := (trapInfo g c status.toNat 0 addr lanes).regs (t.pilotLevel c.p.unit) gid 0 (if c.p.unit = 17 then 0 else g.rgnPc)
      s.endTask t.launch status (some { gid := gid, tid := t.tid, regs := regs })

/-- Whether the issuing party can be executing: it is live, its entry active and not parked. -/
def State.issuing (s : State) (c : Issuer) : Bool :=
  let g := s.grp c.p.team c.p.unit
  g.st == .live && (g.entry c.p.entry).st == .active && (g.entry c.p.entry).park.isNone

/-- The body words of the run that a register context is in; 0 outside a run. -/
def Grp.runIdx (g : Grp) : Nat :=
  match g.run with
  | .some r => r.idx
  | .none => 0

/-- The frame of every encoded instruction: the checks of R362, whose first failure traps; the waits at issue, which
leave the state as it is; then the instruction's effect under the effective mask. -/
def issue (g : Sig) (mask : BitVec 4) (s : State) (body : Iss → State → Out) : Out :=
  match s.cur with
  | none => .fault .noIssuer
  | some c =>
    if !s.issuing c then .fault .noIssuer else
    match s.team? c.p.team with
    | none => .fault .noIssuer
    | some t =>
      let gr := t.grp c.p.unit
      let inRun := gr.run.isSome
      let vregs := if c.p.unit = 16 then 64 else t.vregs
      match g.check c.p.unit inRun gr.runIdx c.words vregs t.acc with
      | some (cause, detail) => .next (s.trap cause detail)
      | none =>
        if s.waits c.p.team c.p.unit g then .next s else
        body { p := c.p, mask := (gr.entry c.p.entry).mask &&& (if mask = 0 then BitVec.allOnes 64 else gr.maskReg c.p.entry mask.toNat),
               at_ := c.at_, next := c.next, words := c.words, inRun := inRun } s

/-- The PC moves past the instruction; in a run the body index counts its words, and in an emitted run the PC
stays at the `take` (R128, R380). -/
def State.advance (s : State) (i : Iss) : State :=
  s.updGrp i.p.team i.p.unit fun g =>
    match g.run with
    | .none => g.updEntry i.p.entry fun e => { e with pc := i.next }
    | .some r =>
      let g := { g with run := .some { r with idx := r.idx + i.words } }
      if r.emitted.isSome then g else g.updEntry i.p.entry fun e => { e with pc := i.next }

/-- The PC moves past a region-ending instruction, and a region entry falls at the instruction after it (R294). -/
def State.advanceRegion (s : State) (i : Iss) : State :=
  (s.advance i).updGrp i.p.team i.p.unit (·.regionHere i.p.entry)

/-! ### Registers -/

/-- Lane `i` of vector register `r`; 248-255 are w0-w7 of the run (R8, R322). -/
def Grp.vget (g : Grp) (r i : Nat) : Lane :=
  if r < 248 then sget g.v (64 * r + i)
  else match g.run with
    | .some x => sget x.w (64 * (r - 248) + i)
    | .none => 0

/-- Write lane `i` of vector register `r`. -/
def Grp.vset (g : Grp) (r i : Nat) (x : Lane) : Grp :=
  if r < 248 then { g with v := sset g.v (64 * r + i) x }
  else match g.run with
    | .some y => { g with run := .some { y with w := sset y.w (64 * (r - 248) + i) x } }
    | .none => g

/-- Write several lanes: (register, lane, value). -/
def Grp.vsets (g : Grp) : List (Nat × Nat × Lane) → Grp
  | [] => g
  | (r, i, x) :: t => (g.vset r i x).vsets t

/-- Write the lanes of a mask in register `r`, each with its value. -/
def Grp.vfill (g : Grp) (r : Nat) (m : LaneMask) (f : Nat → Lane) : Grp :=
  g.vsets ((lanesOf m).map fun i => (r, i, f i))

/-- A uniform register: s0-s255, or p0-p31 of the pilot (R11). -/
def Grp.sget (g : Grp) (r : Nat) : U64 := Sys2Proof.Machine.sget g.s r

/-- Write a uniform register. -/
def Grp.sput (g : Grp) (r : Nat) (x : U64) : Grp := { g with s := Sys2Proof.Machine.sset g.s r x }

/-- Write a mask register's bits in the effective mask; the others keep their values (R401, R410). -/
def Grp.mput (g : Grp) (r : Nat) (m x : LaneMask) : Grp :=
  { g with m := Sys2Proof.Machine.sset g.m r ((Sys2Proof.Machine.sget g.m r &&& ~~~m) ||| (x &&& m)) }

/-- Update the issuing party's register context. -/
def State.upd (s : State) (i : Iss) (f : Grp → Grp) : State := s.updGrp i.p.team i.p.unit f

/-- The issuing party's register context. -/
def State.my (s : State) (i : Iss) : Grp := s.grp i.p.team i.p.unit

/-! ### Immediates and targets (R323, R324) -/

/-- A lane immediate, widened to 32 bits. -/
def Imm.lane (i : Imm) (signed : Bool) : Lane :=
  match i with
  | .short x => if signed then x.signExtend 32 else x.setWidth 32
  | .long h x => h ++ x

/-- A uniform immediate, widened to 64 bits. -/
def Imm.uniform (i : Imm) (signed : Bool) : U64 :=
  match i with
  | .short x => if signed then x.signExtend 64 else x.setWidth 64
  | .long h x => (h ++ x : BitVec 32).signExtend 64

/-- A branch target (R324, R370). -/
def Off.target (o : Off) (at_ : U64) : U64 :=
  match o with
  | .short x => at_ + (x.signExtend 64 <<< 1)
  | .long h x => at_ + ((h ++ x : BitVec 40).signExtend 64 <<< 1)

end Sys2Proof.Machine
end

