-- ==== Sys2Proof/Machine/Flags.lean ====
section
/-!
DEFINITION. Flags and status registers: the condition codes of compares (R352), the status and fault registers
that `csrr` reads and `csrw` writes (R143, R144, R262, R307, R394), the Tideway revolution counter (R265), the
matrix unit's status (R463), DEVSTATUS (R38) and LINK_STATUS (R27).
-/

namespace Sys2Proof.Machine

/-! ### Condition codes (R352) -/

/-- An integer condition on two words. -/
def condInt {w : Nat} (c : Nat) (x y : BitVec w) : Bool :=
  match c with
  | 0 => x == y
  | 1 => x != y
  | 2 => x.slt y
  | 3 => x.sle y
  | 4 => y.slt x
  | 5 => y.sle x
  | 6 => x.ult y
  | 7 => x.ule y
  | 8 => y.ult x
  | _ => y.ule x

/-- A float condition on two values (R352, R403): every condition but `ne` and `un` is false on a NaN. -/
def condFloat (c : Nat) (x y : FVal) : Bool :=
  match c with
  | 0 => x.eq y
  | 1 => !x.eq y
  | 2 => x.lt y
  | 3 => x.lt y || x.eq y
  | 4 => y.lt x
  | 5 => y.lt x || x.eq y
  | 6 => x.isNan || y.isNan
  | _ => !x.isNan && !y.isNan

/-! ### The Tideway's clock (R255, R265) -/

/-- The ring position of a core's station (R255). -/
def stationPos (core : Nat) : Nat :=
  let die := core / 512
  let row := core % 512 / 32
  let col := core % 32
  let j := if die = 2 then 3 else if die = 3 then 2 else die
  j * 544 + row * 32 + (if row % 2 = 0 then col else 31 - col)

/-- TWREV as the station of a core shows it at ring clock `t` (R265). -/
def twrev (t core : Nat) : Nat := (t - stationPos core) / 2176

/-! ### Status registers (R143, R144, R262, R307) -/

/-- SPLIT for the fragment in entry `cur` (R144). -/
def Grp.splitReg (g : Grp) (cur : Nat) : Nat :=
  let used := (upto 0 8).foldl (fun a i => if (g.entry i).st == .free then a else a + 2 ^ i) 0
  cur + used * 2 ^ 8 + (g.serial.filter (·.used)).length * 2 ^ 16

/-- EQSTAT (R144). -/
def Team.eqstat (t : Team) : Nat :=
  (upto 0 4).foldl (fun a q => a + (t.queues.getD q []).length * 2 ^ (4 * q)) 0 + b2n t.pexit * 2 ^ 16

/-- TCOORD of a team in its grid (R89, R143): x varies fastest. -/
def LaunchRec.tcoord (r : LaunchRec) (tid : Nat) : Nat :=
  tid % r.gx + (tid / r.gx % r.gy) * 2 ^ 32 + (tid / (r.gx * r.gy)) * 2 ^ 48

/-- CLPOS (R144). -/
def Team.clpos (t : Team) (r : LaunchRec) : Nat :=
  t.ccol + t.crow * 2 ^ 8 + (r.clw - 1) * 2 ^ 16 + (r.clh - 1) * 2 ^ 20

/-- Whether a register number is of scope G (R143, R262). -/
def csrOfGroup (n : Nat) : Bool :=
  n == 0 || n == 1 || (8 ≤ n && n ≤ 0xB) || (0xD ≤ n && n ≤ 0xF) || n == 0x16

/-- A register of scope G of group `gid` (R143). -/
def Grp.csr (g : Grp) (gid cur n : Nat) : Nat :=
  match n with
  | 0x000 => Config.gwidth
  | 0x001 => gid
  | 0x008 => g.prio.toNat
  | 0x009 => g.wdog.toNat
  | 0x00A => g.wdcnt
  | 0x00B => b2n g.preq
  | 0x00D => g.rgnc.toNat
  | 0x00E => g.splitReg cur
  | 0x00F => b2n g.drain
  | _ => b2n g.notag

/-- A register of scope T (R143); none for an unassigned number. -/
def State.csrTeam (s : State) (t : Team) (l : Launch) (n : Nat) : Option Nat :=
  match n with
  | 0x002 => some t.tid
  | 0x003 => some (l.lr.tcoord t.tid)
  | 0x004 => some t.cluster
  | 0x005 => some (t.clpos l.lr)
  | 0x006 => some t.core
  | 0x007 => some l.ctx
  | 0x00C => some l.lr.deadline
  | 0x010 => some t.eqstat
  | 0x011 => some t.pseq.toNat
  | 0x012 => some t.partw.toNat
  | 0x013 => some (twrev s.ring.t t.core)
  | 0x014 => some Config.cap0.toNat
  | 0x015 => some Config.cap1.toNat
  | _ => none

/-- A fault register (R307). -/
def FaultRegs.csr (r : FaultRegs) (n : Nat) : Option U64 :=
  match n with
  | 0x040 => some r.fcause
  | 0x041 => some r.fpc
  | 0x042 => some r.faddr
  | 0x043 => some r.flanes
  | 0x044 => some r.fprov
  | 0x045 => some r.fepc
  | 0x046 => some r.frop
  | 0x047 => some r.fimg
  | 0x048 => some r.frgn
  | _ => none

/-- What `csrr` of register `n` gives a party (R389, R394); none where the number or the access is not allowed. In
the handler slot a G register is the trapped group's as it was at trap entry, PRIO reading 15. -/
def State.csrRead (s : State) (t : Team) (l : Launch) (p : Party) (n : Nat) : Option U64 :=
  let num := fun (o : Option Nat) => o.map (BitVec.ofNat 64)
  if csrOfGroup n then
    if p.unit = 17 then none
    else if p.unit = 16 then
      match t.inTrap with
      | none => none
      | some tr =>
        if tr.unit = 17 then none
        else if n = 8 then some 15
        else
          let g := { t.grp tr.unit with preq := tr.preq, notag := tr.notag }
          some (BitVec.ofNat 64 (g.csr tr.unit tr.entry n))
    else some (BitVec.ofNat 64 ((t.grp p.unit).csr p.unit p.entry n))
  else if 0x40 ≤ n && n ≤ 0x5F then
    if p.unit = 16 then t.fregs.csr n else none
  else num (s.csrTeam t l n)

/-- What `csrw` does to a group's own register (R390): PRIO, WDOG, TAKEST and TWST; none for any other. -/
def Grp.csrWrite (g : Grp) (n : Nat) (x : U64) : Option Grp :=
  match n with
  | 0x008 => some { g with prio := x.setWidth 4 }
  | 0x009 => some { g with wdog := x.setWidth 32 }
  | 0x00F => some { g with drain := g.drain && !x.getLsbD 0 }
  | 0x016 => some { g with notag := g.notag && !x.getLsbD 0 }
  | _ => .none

/-! ### Status words of the matrix unit, the package and its links -/

/-- Whether the matrix unit of a core is frozen (R302): a handler of a team on it runs. -/
def State.frozen (s : State) (core : Nat) : Bool := s.teams.any fun t => t.core == core && t.inTrap.isSome

/-- MSTAT for team `u` with tile-class count `tq` (R463). -/
def State.mstat (s : State) (core u tq : Nat) : Nat :=
  let c := s.core core
  let half := fun (p : Plane) (a b d : Nat) =>
    if p.owner == some u then p.bfmt.toNat * 2 ^ a + b2n p.bsgn * 2 ^ b + p.bblk.toNat * 2 ^ d else 0
  b2n (s.frozen core) + b2n (c.front.owner == some u) * 2 + b2n (c.shadow.owner == some u) * 4 + b2n c.swap * 8 +
    half c.front 4 8 9 + half c.shadow 12 16 17 + tq * 2 ^ 19

/-- DEVSTATUS (R38). -/
def State.devstatus (s : State) : Nat :=
  let st := match s.dev.state with
    | .bringUp => 0
    | .ready => 1
    | .recovery => 2
    | .tripped => 3
  st + (if s.dev.state = .recovery then s.dev.failSlot.toNat * 4 else 0) + b2n s.dev.trip * 32 +
    b2n (s.dev.gate != 0) * 64 + (s.fns.length - 1) * 2 ^ 8 + (64 - s.ctxs.length) * 2 ^ 14

/-- LINK_STATUS (R27). -/
def Link.status (l : Link) : Nat :=
  l.state.toNat + l.farPeer.toNat * 4 + b2n l.enable * 2 ^ 8 + b2n l.downEv * 2 ^ 9 + b2n l.lostEv * 2 ^ 10 +
    l.proto.toNat * 2 ^ 16 + l.epochs.toNat * 2 ^ 32

end Sys2Proof.Machine
end

