-- ==== Sys2Proof/Machine/Edge.lean ====
section
/-!
DEFINITION. Waiting and what a clk edge looks at: which parked parties can go on (R99, R136, R170-R178, R380, R385, R434), the
watchdog count (R99), and the timers of groups, the ring, the channels and the combining buffers.
-/

namespace Sys2Proof.Machine

/-! ### Parked parties -/

/-- Whether a draining translation of a context covers an address (R79). -/
def State.draining (s : State) (ctx va : Nat) : Bool :=
  s.xl.any fun x => x.ctx == ctx && x.drain && x.va ≤ va && va < x.va + 2 ^ x.lg

/-- Whether a park holds every fragment of the group (R103, R136, R170, R175, R177, R178, R183). -/
def Park.group : Park → Bool
  | .counters _ _ _ _ _ _ => true
  | .take _ => true
  | .fence _ => true
  | .sync _ _ => true
  | .timeline _ _ => true
  | .batch _ => true
  | .tide _ => true
  | .migrating _ => true
  | _ => false

/-- Whether a park stops WDCNT (R83, R99, R310, R376, R380, R434). -/
def Park.stopsWatch : Park → Bool
  | .counters _ _ _ _ _ wait => wait
  | .take _ => true
  | .sync _ _ => true
  | .bar _ _ => true
  | .timeline _ _ => true
  | .batch _ => true
  | .migrating _ => true
  | .yielded => true
  | _ => false

/-- Whether some fragment's park satisfies `f`. -/
def Grp.parkedBy (g : Grp) (f : Park → Bool) : Bool :=
  g.split.any fun e => e.st == .active && (match e.park with
    | .some k => f k
    | .none => false)

/-- Whether the whole group is held. -/
def Grp.parked (g : Grp) : Bool := g.parkedBy Park.group

/-- Whether every active fragment is parked in a way that satisfies `f`. -/
def Grp.allParked (g : Grp) (f : Park → Bool) : Bool :=
  (g.split.filter fun e => e.st == .active).all fun e => (match e.park with
    | .some k => f k
    | .none => false)

/-- The fragment that a replayable event meets when none is named: the lowest active one. -/
def Grp.firstActive (g : Grp) : Option Nat := (upto 0 8).find? fun i => (g.entry i).st == .active

/-- Whether a fragment waits for something that is neither a load nor replayed: it cannot be sent back now. -/
def Entry.bound (e : Entry) : Bool :=
  match e.park with
  | .some (.sync _ _) => true
  | .some (.tide _) => true
  | .some (.read _) => true
  | .some (.bar _ _) => true
  | _ => false

/-- The fragment that replays when an operation that a unit has issued meets MIGRATING (R83, R464): its own, or the lowest active
one. None when a replay could not issue the operation again, because the region or the run in which it was issued has ended, or
when the fragment cannot be sent back: the operation then waits for the migration. -/
def Grp.sendsBack (g : Grp) (entry : Nat) (rgnc : U64) (id : Nat) : Option Nat :=
  if g.st != UnitState.live || g.rgnc != rgnc then .none
  else
    let e : Option Nat := match g.run with
      | .some r => if r.born ≤ id then .some r.entry else .none
      | .none => if (g.entry entry).st == EntryState.active then .some entry else g.firstActive
    match e with
    | .some e => if (g.entry e).bound then .none else .some e
    | .none => .none

/-- Whether WDCNT stands still (R99). -/
def Grp.watchStopped (g : Grp) : Bool :=
  g.parkedBy (fun k => k.group && k.stopsWatch) || g.allParked Park.stopsWatch

/-- Runs of queue `q` that were there at the start of this clk (R381). -/
def State.takeable (s : State) (t : Team) (q : Nat) : List RunRec :=
  (t.queues.getD q []).filter fun r => r.born < s.clk

/-- Places of queue `q` that are in use as a close sees it: a place freed in this clk counts until the next (R381). -/
def State.queueFill (s : State) (t : Team) (q : Nat) : Nat :=
  (t.queues.getD q []).length + (t.taken.filter fun x => x.1 == q && x.2 == s.clk).length

/-- The engine context that ENG names for a team (R269): 0 the team's copy engine context, 4-7 the collective ones of its
context, 8 the seal one; the other codes are reserved. -/
def State.engineOf (s : State) (t : Team) (code : Nat) : Option Engine :=
  if code = 0 then some t.copy
  else
    match s.ctx? (s.ctxOf t.uid) with
    | none => none
    | some c => if code = 8 then some c.sealEng else c.coll.find? (·.id == code)

/-- Whether a fence at a scope (0 team, 1 cluster, 2 die, 3 package, 4 system) waits for writes to a target (R176). -/
def Tgt.fenced (t : Tgt) (team scope : Nat) : Bool :=
  match t with
  | .home _ _ _ => true
  | .peer _ _ => scope == 4
  | .spad x _ => x == team || 1 ≤ scope

/-- Whether a fence of a unit is over (R176): its loads have returned, the writes and remote ops that the scope covers are
performed, its Tideway operations have taken effect. -/
def State.fenceOpen (s : State) (u unit scope : Nat) : Bool :=
  s.count u unit .load == 0 && !s.tideBusy u unit &&
    (s.pends.all fun p => !(p.team == u && p.unit == unit && p.cls == .store) ||
      s.reqs.all fun r => r.tag != p.tag || !r.tgt.fenced u scope) &&
    (s.rops.all fun (r : Rop) => !(r.team == u && r.unit == unit) || r.grans.all fun g => !g.tgt.fenced u scope)

/-- Whether batch `b` is at or below `n` in the order before batch number `cur` (R177). -/
def batchLe (cur b n : BitVec 32) : Bool :=
  let age := fun (x : BitVec 32) => (cur - x).toNat
  if 2 ^ 31 < age n then true else age n ≤ age b

/-- Whether a group has an operation of a closed batch up to `n` outstanding (R177). -/
def State.batchBusy (s : State) (u unit : Nat) (n : BitVec 32) : Bool :=
  let cur := (s.grp u unit).batch
  let hit := fun (b : Option (BitVec 32)) => match b with
    | some b => b != cur + 1 && batchLe cur b n
    | none => false
  let k := s.core (s.coreOf u)
  (s.pends.any fun p => p.team == u && p.unit == unit && hit p.batch) ||
    (k.tileQ.any fun o => o.team == u && o.unit == unit && hit o.batch) ||
    (k.copies.any fun o => o.team == u && o.unit == unit && hit o.batch)

/-- Whether every lane that has not exited stands at a barrier of a group (R434). -/
def Grp.atBarrier (g : Grp) (cluster : Bool) : Bool :=
  g.st == .gone || (g.st == UnitState.live && (g.split.any fun e => e.st == EntryState.active) &&
    g.allParked fun k => match k with
      | Park.bar c _ => c == cluster
      | _ => false)

/-- Whether every group of the team, or of the cluster, has arrived at the barrier (R434). -/
def State.barrierFull (s : State) (t : Team) (cluster : Bool) : Bool :=
  s.teams.all fun x =>
    if x.uid == t.uid || (cluster && x.launch == t.launch && x.cluster == t.cluster) then
      x.groups.all fun g => g.atBarrier cluster
    else true

/-- The event that ends a park, if its wait is over. -/
def State.wakeOf (s : State) (t : Team) (unit e : Nat) (k : Park) : List Ev :=
  match k with
  | .counters l st c tl r _ => if s.within t.uid unit l st c tl r then [.counterWaitEnd t.uid unit e] else []
  | .fence scope => if s.fenceOpen t.uid unit scope then [.counterWaitEnd t.uid unit e] else []
  | .take q => if !(s.takeable t q).isEmpty || t.pexit then [.takeWake t.uid unit e] else []
  | .ecl q => if s.queueFill t q < 8 then [.eclStallEnd t.uid] else []
  | .bar cl _ => if s.barrierFull t cl then [.barrierCompletion t.uid cl] else []
  | .timeline x n =>
    (match s.engineOf t x with
     | some g => if n.toNat ≤ g.timeline then [.timelineReached t.uid unit e] else []
     | none => [])
  | .batch n => if s.batchBusy t.uid unit n then [] else [.batchComplete t.uid unit e]
  | .yielded =>
    if (t.grp unit).allParked (· == .yielded) && s.idle t.uid unit && !s.tideBusy t.uid unit then
      [.cooperativeSave t.uid unit]
    else []
  | .migrating va => if s.draining (s.ctxOf t.uid) va then [] else [.replay t.uid unit]
  | _ => []

/-- Every event that ends the wait of a parked party. -/
def State.wakes (s : State) : List Ev :=
  let ofEntry := fun (t : Team) (unit e : Nat) =>
    let x := (t.grp unit).entry e
    match x.park with
    | some k => if x.st == .active then s.wakeOf t unit e k else []
    | none => []
  let ofUnit := fun (t : Team) (unit : Nat) =>
    if (t.grp unit).st == .live then (upto 0 (t.grp unit).split.length).flatMap (ofEntry t unit) else []
  s.teams.flatMap fun t => if t.live && !t.ended then (upto 0 t.groups.length ++ [16, 17]).flatMap (ofUnit t) else []

/-! ### The clk edge -/

/-- The length of one clk at a clock level (R16), in the units of `State.time`. -/
def clkPeriod (level : Nat) : Nat := 720720 / (16 - level)

/-- n nanoseconds in the units of `State.time`. -/
def nanos (n : Nat) : Nat := n * 135135

/-- A spin or a queue wait that is over ends (R392). -/
def Entry.unspin (e : Entry) (clk : Nat) : Entry :=
  match e.park with
  | .some (.spin till _) => if till ≤ clk then { e with park := .none } else e
  | _ => e

/-- One clk passes for a group: its watchdog counts (R99), its spins end. -/
def Grp.tick (g : Grp) (clk : Nat) : Grp :=
  let g := { g with split := g.split.map fun (e : Entry) => e.unspin clk }
  if g.st == UnitState.live && !g.watchStopped then { g with wdcnt := g.wdcnt + 1 } else g

/-- One clk passes for a team. -/
def Team.tick (t : Team) (clk : Nat) : Team :=
  if t.live && !t.ended then
    { t with groups := t.groups.map (·.tick clk), handler := t.handler.tick clk, pilot := t.pilot.tick clk,
             taken := t.taken.filter fun x => x.2 == clk }
  else t

/-- Waiting entries whose last child has gone (R124). -/
def State.ripeEvents (s : State) : List Ev :=
  s.teams.flatMap fun t =>
    if t.live && !t.ended then
      (upto 0 t.groups.length ++ [16]).flatMap fun unit =>
        let g := t.grp unit
        if g.st == UnitState.live then g.ripe.map fun e => .waitingEntryActivation t.uid unit e else []
    else []

/-- The slot at ring position `p` at ring clock `t` (R256). -/
def slotAt (t p : Nat) : Nat := (p + 2176 * (t / 2176 + 1) - t) % 2176

/-- Whether the clk T0 + DEADLINE of a pre-emption that targets a team is over (R110): an exit in that clk still wins (R112). -/
def State.forcing (s : State) (t : Team) : Bool :=
  t.live && !t.ended && (match s.launch? t.launch with
    | some l =>
      (match l.pre with
       | some p => p.t0 + l.lr.deadline < s.clk && p.target.contains t.cluster
       | none => false)
    | none => false)

/-- The groups that are forced after the clk T0 + DEADLINE, those in a run once it is over (R110, R131). -/
def State.forcedEvents (s : State) : List Ev :=
  s.teams.flatMap fun t =>
    if s.forcing t then
      ((upto 0 t.groups.length).filter fun g => (((t.grp g).st == .live && (t.grp g).run.isNone) || (t.grp g).st == .stopped) &&
        (t.grp g).stopAt.isNone && !s.ev.due.contains (.forcedSave t.uid g)).map fun g => .forcedSave t.uid g
    else []

/-- Stations that a slot with something for them passes, and Tideway operations whose window ends (R259, R262). -/
def State.ringEvents (s : State) : List Ev :=
  if !s.ring.on then [] else
  (s.cores.flatMap fun c => if c.2.station.isEmpty then [] else [Ev.slotPass c.1]) ++
    (s.cores.flatMap fun c => (c.2.station.filter fun o => match o.win with
      | some w => w + 2176 ≤ s.clk
      | none => false).map fun o => Ev.notag c.1 o.id)

/-- Slots that come to a junction with something to be done (R258, R267): the 32 positions of each crossing. -/
def State.junctionEvents (s : State) : List Ev :=
  if !s.ring.on then [] else
  (s.ring.slots.filter fun x => (!x.asg || x.rel || x.evict) && 512 ≤ (x.n + s.ring.t) % 2176 % 544).map
    fun x => .junctionPass x.n

/-- The state that a channel's idle timer calls for (R159). -/
def State.idleTarget (s : State) (c : Chan) : Option Power :=
  let idle := s.clk - c.idle
  if s.dev.srt != 0 && s.dev.srt.toNat * 4096 ≤ idle && c.power != .selfRefresh then some .selfRefresh
  else if s.dev.pdt != 0 && s.dev.pdt.toNat * 64 ≤ idle && c.power == .active then some .powerDown
  else none

/-- Channel timers (R159-R163) that fall due at this clk. -/
def State.chanEvents (s : State) : List Ev :=
  s.chans.flatMap fun c =>
    (if c.wake.isNone && (s.idleTarget c).isSome && c.entry != s.idleTarget c then [Ev.idleTimer c.pch] else []) ++
    (if c.entry.isSome && c.busy.isNone then [Ev.channelPowerEntry c.pch] else []) ++
    (match c.wake with
     | some w => if w ≤ s.clk then [Ev.channelWake c.pch] else []
     | none => []) ++
    (match c.busy with
     | some (_, _, t) => if t + 64 ≤ s.clk then [Ev.lockLapse c.pch] else []
     | none => []) ++
    (if c.last + 4096 ≤ s.clk && !(s.cuuQueue c.pch).isEmpty then [Ev.cuuWatchdog c.pch] else [])

/-- Combining entries and partials that age out (R197). -/
def State.combEvents (s : State) : List Ev :=
  (s.combs.filter fun c => c.born + 4096 ≤ s.clk).map fun c => .combiningAgeOut c.id

end Sys2Proof.Machine
end

