-- ==== Sys2Proof/Machine/Control.lean ====
section
/-!
DEFINITION. Branches and control words (R369-R381), runs and `take`, the end of lanes, groups, pilots and handlers, and
the event rows of divergence: WAITING_ENTRY_ACTIVATION, SERIAL_STEP, TAKE_WAKE, COUNTER_WAIT_END, WATCHDOG,
UNASSIGNED_ENCODING.
-/

namespace Sys2Proof.Machine

/-! ### Branches (R370-R373) -/

/-- The PC of the issuing party moves. -/
def State.goto (s : State) (i : Iss) (pc : U64) : State := s.setPc i.p pc

/-- BR (R371). -/
def execBr (p : Pfx) (off : Off) (s : State) : Out :=
  issue (sigOf (.br p off)) 0 s fun i s => .next (s.goto i (Off.target off i.at_))

/-- CALL (R371): the link register takes the fall-through address. -/
def execCall (p : Pfx) (l : BitVec 8) (off : Off) (s : State) : Out :=
  issue (sigOf (.call p l off)) 0 s fun i s =>
    .next ((s.upd i fun g => g.sput l.toNat i.next).goto i (Off.target off i.at_))

/-- RCV (R373): PEND of the fragment takes the target, all of it; R121 gives PEND and JOIN 56 bits of address, and the save image holds
those (DESIGN CHOICE, log 129: no rule says what a target of 2^56 or more leaves). -/
def execRcv (p : Pfx) (off : Off) (s : State) : Out :=
  issue (sigOf (.rcv p off)) 0 s fun i s =>
    .next ((s.updEntry i.p fun e => { e with pend := some (Off.target off i.at_) }).advance i)

/-- BL (R372): the lane-conditional branch of R123; too deep a split traps. -/
def execBl (p : Pfx) (m : BitVec 4) (sense : Bool) (off : Off) (s : State) : Out :=
  issue (sigOf (.bl p m sense off)) 0 s fun i s =>
    let g := s.my i
    let k := g.maskReg i.p.entry m.toNat
    let c := (g.entry i.p.entry).mask &&& (if sense then ~~~k else k)
    match g.diverge i.p.entry c (Off.target off i.at_) i.next with
    | some h => .next (s.upd i fun _ => h)
    | none => .next (s.trap 0x20 0x02)

/-- BC (R371). -/
def execBc (p : Pfx) (c : BitVec 8) (off : Off) (s : State) : Out :=
  issue (sigOf (.bc p c off)) 0 s fun i s =>
    .next (s.goto i (if (s.my i).sget c.toNat != 0 then Off.target off i.at_ else i.next))

/-- A transfer to the address in a register; an odd one traps ALIGN (R371). -/
def jumpReg (g : Sig) (a : BitVec 8) (s : State) : Out :=
  issue g 0 s fun i s =>
    let t := (s.my i).sget a.toNat
    if t.getLsbD 0 then .next (s.trap 0x24 0x00 t.toNat) else .next (s.goto i t)

/-- JMP (R371). -/
def execJmp (a : BitVec 8) (s : State) : Out := jumpReg (sigOf (.jmp a)) a s

/-- RET (R371): the mark of a return changes only timing. -/
def execRet (a : BitVec 8) (s : State) : Out := jumpReg (sigOf (.ret a)) a s

/-! ### Control words (R374-R378) -/

/-- NOP (R375). -/
def execNop (s : State) : Out := issue (sigOf .nop) 0 s fun i s => .next (s.advance i)

/-- A pilot ends (R138). -/
def State.pilotExit (s : State) (u : Nat) : State :=
  s.updTeam u fun t => { t with pilot := { t.pilot with st := .gone }, pexit := true }

/-- Lanes of a group exit (R126); the group is gone with its last. -/
def State.lanesExit (s : State) (u unit : Nat) (l : LaneMask) : State :=
  let s := s.updGrp u unit (·.exitLanes l)
  if (s.grp u unit).empty then s.groupGone u unit else s

/-- `exit` in the handler (R304, R375): once the counters of the handler and of the trapped group are 0, every lane of that group
exits; at the pilot level the pilot ends. Tile operations that the group has queued are frozen until then, and run after the thaw
(R302): their count is not waited for. -/
def State.handlerExit (s : State) (p : Party) : State :=
  let u := p.team
  match s.inTrap u with
  | none => s
  | some tr =>
    if !s.idle u 16 || (tr.unit != 17 && !s.within u tr.unit 0 0 0 15 0) then s.setPark p (some (.spin (s.clk + 1) false)) else
    let s := if tr.unit = 17 then s.pilotExit u
      else (s.updGrp u tr.unit fun g => { g with split := g.split.map fun _ => Entry.none }).groupGone u tr.unit
    s.nextTrap u

/-- EXIT (R375). -/
def execExit (s : State) : Out :=
  issue (sigOf .exit) 0 s fun i s =>
    let u := i.p.team
    if i.p.unit = 17 then .next (s.pilotExit u)
    else if i.p.unit = 16 then .next (s.handlerExit i.p)
    else
      let g := s.my i
      let l := (g.entry i.p.entry).mask
      if l = g.lanes && !s.idle u i.p.unit then .next (s.setPark i.p (some (.counters 0 0 0 0 0 false)))
      else .next (s.lanesExit u i.p.unit l)

/-- YIELD (R376). -/
def execYield (s : State) : Out :=
  issue (sigOf .yield) 0 s fun i s =>
    let s := s.upd i fun g => { g with wdcnt := 0 }
    let park := if (s.my i).preq then Park.yielded else .spin (s.clk + 2) false
    .next ((s.advanceRegion i).setPark i.p (some park))

/-- RGN (R377): a region entry at its own address. -/
def execRgn (s : State) : Out :=
  issue (sigOf .rgn) 0 s fun i s => .next ((s.upd i fun g => g.regionAt i.at_).advance i)

/-- BRK (R378): FPC is its address, RESUMEPC the instruction after it. -/
def execBrk (a : BitVec 8) (x : BitVec 4) (s : State) : Out :=
  issue (sigOf (.brk a x)) 0 s fun i s =>
    match s.cur with
    | none => .fault .noIssuer
    | some c => .next (s.takeTrap i.p { trapInfo (s.my i) c 0x26 a.toNat 0 0 with resume := i.next })

/-! ### Runs (R128-R131, R379) -/

/-- A run context at its start: w0-w7 are 0 (R129). -/
def RunCtx.start (entry : Nat) (emitted : Option RunRec) (pc : U64) (port : Nat) : RunCtx :=
  { entry := entry, emitted := emitted, idx := 0, w := [], point := 0, pointPc := pc, wCopy := [], port := port, born := 0 }

/-- RUN (R379): the group holds its port, w0-w7 become 0. -/
def execRun (s : State) : Out :=
  issue (sigOf .run) 0 s fun i s =>
    let port := match s.cur with
      | some c => c.port
      | none => 0
    .next ((s.advance i).upd i fun g => { g with run := some { RunCtx.start i.p.entry none i.next port with born := s.nextId } })

/-- Whether a result of a group's run is pending whose destination a trailer does not name (R130), or an instruction of it holds the
group (R460, R467). `born` is the number from which on the run's instructions are numbered. -/
def State.owesBeyond (s : State) (u unit born : Nat) (trailer : List Nat) : Bool :=
  s.pends.any fun p => p.team == u && p.unit == unit && decide (born ≤ p.tag) &&
    (p.holds || (let o := p.owes
      o.v.any (fun r => !trailer.contains r) || !o.s.isEmpty || !o.f.isEmpty || !o.d.isEmpty))

/-- What is wrong with a `rend` (R328, R379), in the order of R379. -/
def rendFault (idx n vregs : Nat) (bytes : List Nat) : Option Cause :=
  let named := bytes.take n
  if idx = 0 then some (0x22, 0x01)
  else if 8 < n || named.any (248 ≤ ·) || (bytes.drop n).any (· != 0xFF) then some (0x22, 0x02)
  else if named.any (vregs ≤ ·) then some (0x20, 0x01)
  else none

/-- The bytes of a trailer of `n` registers: those of its ceil(n / 4) words (R328). -/
def trailerBytes (n : Nat) (t0 t1 : BitVec 32) : List Nat :=
  ((leBytes 4 t0.toNat ++ leBytes 4 t1.toNat).take (4 * ceilDiv n 4)).map (·.toNat)

/-- REND (R130, R379): the run ends when the results that its trailer does not name have arrived. -/
def execRend (n : BitVec 4) (t0 t1 : BitVec 32) (s : State) : Out :=
  issue (sigOf (.rend n t0 t1)) 0 s fun i s =>
    match (s.my i).run with
    | none => .next (s.trap 0x22 0x00)
    | some r =>
      let vregs := if i.p.unit = 16 then 64 else
        match s.team? i.p.team with
        | some t => t.vregs
        | none => 0
      let bytes := trailerBytes n.toNat t0 t1
      match rendFault r.idx n.toNat vregs bytes with
      | some (cause, detail) => .next (s.trap cause detail)
      | none =>
        if s.owesBeyond i.p.team i.p.unit r.born (bytes.take n.toNat) then .next s else
        .next ((s.upd i fun g =>
          { g with run := none, rgnPc := if r.point = 0 then g.rgnPc else i.next }).goto i i.next)

/-- The end of an emitted run (R380): the port is released, a region entry falls after the `take`, and the fragment
goes on there. -/
def State.endTake (s : State) (u unit : Nat) : State :=
  s.updGrp u unit fun g =>
    match g.run with
    | .none => g
    | .some r =>
      let pc := (g.entry r.entry).pc + 4
      ({ g with run := .none }.regionAt pc).updEntry r.entry fun e => { e with pc := pc }

/-- A group whose emitted run has no word left and owes nothing beyond its trailer (R130). -/
def State.takeOver (s : State) (u unit : Nat) : Bool :=
  match (s.grp u unit).run with
  | some r =>
    (match r.emitted with
     | some x => x.words.length ≤ r.idx && !s.owesBeyond u unit r.born (x.trailer.map (·.toNat))
     | none => false)
  | none => false

/-- A run leaves queue `q` (R380, R381): a pilot in QWAIT goes on in the next clk (R392). -/
def Team.takeRun (t : Team) (q clk : Nat) : Team :=
  let wake := fun (e : Entry) => match e.park with
    | some (.spin _ true) => { e with park := some (.spin (clk + 1) true) }
    | _ => e
  { t with queues := modAt t.queues q (·.drop 1), taken := (q, clk) :: t.taken,
           pilot := { t.pilot with split := t.pilot.split.map wake } }

/-- TAKE (R380): the oldest run executes inline; on an empty queue the group parks while the pilot is live, else
TAKEST.DRAIN is set. -/
def execTake (x : BitVec 4) (s : State) : Out :=
  issue (sigOf (.take x)) 0 s fun i s =>
    let q := x.toNat
    match s.team? i.p.team with
    | none => .fault .noIssuer
    | some t =>
      match s.takeable t q with
      | r :: _ =>
        let port := match s.cur with
          | some c => c.port
          | none => 0
        .next ((s.updTeam i.p.team (·.takeRun q s.clk)).upd i fun g =>
          { g with run := some { RunCtx.start i.p.entry (some r) i.at_ port with born := s.nextId } })
      | [] =>
        if t.pexit && (t.queues.getD q []).isEmpty then
          .next ((s.upd i fun g => { g with drain := true }).advanceRegion i)
        else .next (s.setPark i.p (some (.take q)))

/-! ### Event rows of control -/

/-- A parked party goes on: its instruction acts again. -/
def State.unpark (s : State) (u unit e : Nat) : State := s.setPark { team := u, unit := unit, entry := e } none

/-- TAKE_WAKE (R380). -/
def execTakeWake (team g e : Nat) (s : State) : Out := .next (s.unpark team g e)

/-- COUNTER_WAIT_END (R175): a `wait` or the like goes on. -/
def execCounterWaitEnd (team g e : Nat) (s : State) : Out := .next (s.unpark team g e)

/-- WAITING_ENTRY_ACTIVATION (R124): the entry becomes active at its PC with its children's lanes, or is freed when all of
them have exited. -/
def execWaitingEntryActivation (team g e : Nat) (s : State) : Out :=
  let gr := s.grp team g
  let x := gr.entry e
  if x.st != .waiting || gr.hasChild e then .next s
  else if x.mask = 0 && x.srec.isNone then
    let s := s.updGrp team g (·.freeEntry 9 e)
    .next (if (s.grp team g).empty then s.groupGone team g else s)
  else .next (s.updGrp team g fun gr => gr.updEntry e fun x => { x with st := .active, loss := 0, park := none })

/-- SERIAL_STEP (R125). -/
def execSerialStep (team g e : Nat) (s : State) : Out :=
  let gr := s.grp team g
  if (gr.entry e).st != .active || gr.arrival e != .serial then .next s else
  let s := s.updGrp team g (·.serialStep e)
  .next (if (s.grp team g).empty then s.groupGone team g else s)

/-- WATCHDOG (R99): a live group whose count has reached WDOG traps, after its run (R131). The trap names the fragment of the lowest
active entry (DESIGN CHOICE, log 127: no rule says which). -/
def execWatchdog (team g : Nat) (s : State) : Out :=
  let gr := s.grp team g
  if gr.st != .live || gr.wdog = 0 || gr.wdcnt < gr.wdog.toNat || gr.run.isSome then .next s else
  let e := ((upto 0 8).find? fun k => (gr.entry k).st == .active).getD 0
  let pc := (gr.entry e).pc
  .next (s.takeTrapAt team g e
    { cause := 0x25, detail := 0, addr := 0, lanes := 0, fpc := pc, resume := pc, frop := 0, inrun := false,
      emitted := false, widx := 0, seq := 0, epc := 0 })

/-- UNASSIGNED_ENCODING (R361, R327): the word at the PC is no instruction; a prefix without its word is a RUN_VIOLATION. -/
def execUnassignedEncoding (why : BadWord) (s : State) : Out :=
  match why with
  | .pfxBeforeRend => .next (s.trap 0x22 0x00)
  | _ => .next (s.trap 0x20 0x00)

end Sys2Proof.Machine
end

