-- ==== Sys2Proof/Machine/Start.lean ====
section
/-!
DEFINITION. How things start: a group, a pilot and a team at dispatch (R93, R132, R139), a launch that has passed its checks, a
context (R44).
-/

namespace Sys2Proof.Machine

/-- A group that starts (R93, R121, R139, R294). -/
def Grp.start (r : LaunchRec) (age : Nat) (pc : U64) : Grp :=
  { Grp.none with
    st := .live, split := freshEntry (BitVec.allOnes 64) pc .none .none :: List.replicate 7 Entry.none,
    serial := List.replicate 16 Serial.none, s := ssets [] [(0, r.args), (1, r.seed)], prio := r.prio, wdog := r.wdog,
    rgnc := 1, rgnPc := pc, age := age }

/-- A pilot at its start (R132). -/
def Grp.startPilot (r : LaunchRec) : Grp :=
  { Grp.none with
    st := if r.pilot = 0 then .gone else .live,
    split := freshEntry (BitVec.allOnes 64) r.pilot .none .none :: [], s := ssets [] [(0, r.args)] }

/-- A placed team at dispatch (R93, R139). -/
def Team.start (uid launch tid cluster ccol crow core age power since : Nat) (r : LaunchRec) : Team :=
  { uid := uid, launch := launch, tid := tid, cluster := cluster, ccol := ccol, crow := crow, core := core, live := true,
    partw := r.partw, groups := (upto 0 r.groups).map fun g => Grp.start r (age * 16 + g) r.lane,
    handler := Grp.none, pilot := Grp.startPilot r, pexit := r.pilot == 0, openRun := RunRec.none,
    queues := List.replicate 4 [], taken := [], pseq := 1, copy := Engine.fresh 0, spad := [], tiles := [], index := none,
    inTrap := none, fregs := FaultRegs.zero, held := [], power := power, charged := true, kept := false, ended := false,
    share := regUnits r.groups (bits r.partw.toNat 0 8) + spadUnits r.partw + accUnits r.partw, age := since,
    forced := false, resume := none, stopCopy := false, order := [], slots := upto 0 r.groups }

/-- A launch that runs (R91). -/
def Launch.start (id ctx fn q idx since : Nat) (r : LaunchRec) : Launch :=
  { id := id, ctx := ctx, fn := fn, q := q, idx := idx, lr := r, phase := .running, nextK := r.clusters, since := since,
    parked := [], doneN := 0, status := 0, info := 0, resumeTo := .running, sealed := false, sealSeq := 0, block := none,
    dir := [], slots := [], ringSave := 0,
    pre := none, winBytes := 0, lastBytes := 0 }

/-- A resident context (R44). -/
def Ctx.fresh (id fn key table : Nat) : Ctx :=
  { id := id, fn := fn, retiring := false, retSeq := none, sweep := 0, byMail := false, voidBuf := 0, ccores := 2048,
    cpower := 20000, cbw := 2 ^ 32 - 1,
    ringq := 0, rootDesc := 0, table := table, exports := [], key := key, ops := [], skipped := 0, poisoned := 0,
    resets := 0, combined := 0, coll := (upto 4 4).map Engine.fresh, sealEng := Engine.fresh 8 }

end Sys2Proof.Machine
end

