-- ==== Sys2Proof/Machine/Load.lean ====
section
/-!
DEFINITION. A program of one instruction, loaded and running: what system software and the scheduler do before a
program's first instruction (R43, R55, R75, R91, R93), done at once, so that the next step fetches that instruction.
-/

namespace Sys2Proof.Machine

/-- The address of the loaded instruction, whose line its slice holds, in the lease from 0 to 2^30. -/
def loadAt : Nat := 0x10000

/-- The launch record of the loaded program: one group with every register and tile, a handler and a pilot at the same
address, ARGS 0. -/
def loadRec : LaunchRec :=
  { progress := 0, sealOn := false, serial := false, prio := 0, vec := 0xFF, lane := BitVec.ofNat 64 loadAt,
    pilot := BitVec.ofNat 64 loadAt, trap := BitVec.ofNat 64 loadAt, features := 0x3FFF, gx := 1, gy := 1, gz := 1,
    groups := 1, clw := 1, clh := 1, partw := BitVec.ofNat 32 (248 + 4 * 256 + 64 * 8192), deadline := 0, wdog := 0,
    bcores := 0, bpower := 0, bbw := 0, ring := 0, tag := 0, seed := 0, args := 0, cpl := 0, sealPtr := 0,
    leases := [{ base := 0, len := 2 ^ 30, w := true }], regions := [] }

/-- Host memory that maps the context save area's first launch block (R311), for a handler. -/
def loadTables : List (Nat × Byte) :=
  let table := 0x100000
  let t2 := 0x110000
  pairsFrom (table + 8 * 8160) (leBytes 8 (t2 + 1)) ++ pairsFrom t2 (leBytes 8 (0x40000000 + 7)) ++
    pairsFrom (t2 + 32) (leBytes 8 (0x80000000 + 7))

/-- The unit that can execute an instruction: the pilot for a pilot instruction, the handler slot for `tret`. -/
def unitFor (i : Option Instr) : Nat :=
  match i with
  | some j => if (sigOf j).pilotOnly then 17 else if (sigOf j).handlerOnly then 16 else 0
  | none => 0

/-- The package with a program of one instruction placed and dispatched as team 1 of context 0, its party selected to
issue in this clk. For a handler instruction, group 0 has taken a BRK trap. -/
def State.placeWord (s : State) (nbits w : Nat) : State :=
  let unit := unitFor (decodeTableWord nbits w)
  let uid := s.nextId
  let ctx := Ctx.fresh 0 0 (s.dev.keyNext + 1) 0x100000
  let page : Xlat :=
    { ctx := 0, va := 0, lg := 30, frame := 0, w := true, uam := false, mig := false, cmb := false, peer := none,
      drain := false, lost := false }
  let code := bytesOfNat 12 (w % 2 ^ nbits)
  let line : L2Line :=
    { line := loadAt / 128, ctx := 0, key := s.dev.keyNext + 1, valid := 0xF, dirty := 0,
      data := code ++ List.replicate 116 0, bad := [], by_ := 0, out := false }
  let t := Team.start uid uid 0 0 0 0 0 0 4 s.clk loadRec
  let p : Party := { team := uid, unit := unit, entry := 0 }
  let s := { s with
    dev := { s.dev with state := .ready, keyNext := s.dev.keyNext + 1 }
    ctxs := ctx :: s.ctxs.filter (·.id != 0)
    xl := page :: s.xl.filter (·.ctx != 0)
    launches := Launch.start uid 0 0 0 0 s.time loadRec :: s.launches
    teams := t :: s.teams
    mem := { s.mem.write (s.dev.keyNext + 1) loadAt code with
             host := ssets s.mem.host loadTables, l2 := line :: s.mem.l2.filter fun x => x.line != line.line || x.ctx != 0 }
    ring := { s.ring with on := true }
    nextId := uid + 1 }
  let s := if unit = 16 then
      let pc := BitVec.ofNat 64 loadAt
      s.takeTrap { team := uid, unit := 0, entry := 0 }
        { cause := 0x26, detail := 0, addr := 0, lanes := 0, fpc := pc, resume := pc + 4, frop := 0, inrun := false,
          emitted := false, widx := 0, seq := 0, epc := 0 }
    else s
  { s with ev := { s.ev with now := [], issue := [(p, 0)] } }

end Sys2Proof.Machine
end

