-- ==== Sys2Proof/Machine/Traffic.lean ====
section
/-!
DEFINITION. The traffic of launches (R94, R97): the bytes that a request or a granule moves between DRAM and the slices, or over a
link, the launch that they are charged to, and what a window's bandwidth holds back.
-/

namespace Sys2Proof.Machine

/-! ### What moves -/

/-- The parts of a request's span that it reads or writes: offset and length. -/
def Req.parts (r : Req) : List (Nat × Nat) :=
  match r.kind with
  | .write bs => bs.map fun e => (e.1, 1)
  | .read secs => if secs.isEmpty then [(0, r.n)] else secs.map fun o => (o, 32)
  | .fill secs => secs.map fun o => (o, 32)
  | _ => [(0, r.n)]

/-- The sectors of a request's line that its home slice needs in order to serve it (R155): those it reads, or writes in part. -/
def State.reqNeeds (s : State) (r : Req) (d : Nat) : List Nat :=
  if !(s.heldOn (d / 128)).isEmpty then upto 0 4
  else
    match r.kind with
    | .write bs => partSecs (bs.map fun e => ((d + e.1) % 128, e.2))
    | _ => (upto 0 4).filter fun c => r.parts.any fun x =>
        let a := d / 128 * 128 + 32 * c
        decide (d + x.1 < a + 32) && decide (a < d + x.1 + x.2)

/-- The bytes of a request's parts. -/
def Req.size (r : Req) : Nat := r.parts.foldl (fun a x => a + x.2) 0

/-- The bytes that a request moves between DRAM and its slice, or over a link (R94). -/
def State.reqBytes (s : State) (r : Req) : Nat :=
  match r.tgt with
  | .home d uam _ => if uam then r.size else 32 * (s.missing r.ctx (d / 128) (s.reqNeeds r d)).length
  | .peer _ _ => r.size
  | .spad _ _ => 0

/-- The bytes of a granule that cross between the slices and DRAM, or a link (R94). -/
def State.granBytes (s : State) (ctx : Nat) (g : Gran) : Nat :=
  match g.tgt with
  | .home d uam _ => s.dramBytes ctx (d / g.size * g.size) g.size uam false
  | .peer _ _ => g.size
  | .spad _ _ => 0

/-! ### Whose it is -/

/-- The engine context numbered `eng`: 16 x team + 0 for a team's copy context, 16 x context + ENG for the others. -/
def State.engine? (s : State) (eng : Nat) : Option Engine :=
  if eng % 16 = 0 then (s.team? (eng / 16)).map (·.copy)
  else
    match s.ctx? (eng / 16) with
    | none => none
    | some c => if eng % 16 = 8 then some c.sealEng else c.coll.find? (·.id == eng % 16)

/-- The launch whose command, or whose seal, a piece of work `owner` of an engine is (R94, R274). -/
def State.workLaunch (s : State) (owner : Nat) : Nat :=
  let eng := (owner - 2 ^ 48) % 2 ^ 56
  if eng % 16 = 10 then eng / 16
  else if eng % 16 = 9 then (match s.seals.find? fun j => j.id == eng / 16 with
    | some j => j.launch
    | none => 0)
  else
    match s.engine? eng with
    | none => 0
    | some e =>
      match e.running, e.queue with
      | some r, _ => r.cmd.launch
      | none, c :: _ => c.launch
      | none, [] => 0

/-- The launch that a request's traffic is charged to (R94): its team's, or that of the command that it belongs to. -/
def State.reqLaunch (s : State) (r : Req) : Nat :=
  match s.team? r.team with
  | some t => t.launch
  | none =>
    match s.pends.find? fun p => p.tag == r.tag with
    | some p => if p.unit = 18 then s.workLaunch p.entry else 0
    | none => 0

/-! ### Bandwidth (R94, R97) -/

/-- The bytes of a launch's requests that have gone out and are not served yet. -/
def State.sentBytes (s : State) (l : Nat) : Nat :=
  s.rops.foldl (fun a (r : Rop) =>
      if r.out && s.launchIdOf r.team == l then r.grans.foldl (fun a g => if g.phase == .sent then a + s.granBytes r.ctx g else a) a else a)
    (s.reqs.foldl (fun a r => if r.out && r.phase == .sent && s.reqLaunch r == l then a + s.reqBytes r else a) 0)

/-- Bytes that a launch has moved in this window, with those of its requests that have gone out. -/
def State.launchWindow (s : State) (l : Launch) : Nat := l.winBytes + s.sentBytes l.id

/-- Bytes that a context's launches have moved in this window, with those of requests that have gone out. -/
def State.ctxWindow (s : State) (ctx : Nat) : Nat :=
  s.launches.foldl (fun a l => if l.ctx == ctx then a + s.launchWindow l else a) 0

/-- Whether `n` more bytes of a launch would take the current window past a limit (R97). -/
def State.bwHeld (s : State) (l n : Nat) : Bool :=
  match s.launch? l with
  | none => false
  | some x =>
    let ceil := match s.ctx? x.ctx with
      | some c => c.cbw
      | none => 0
    n != 0 && ((x.lr.bbw != 0 && x.lr.bbw < s.launchWindow x + n) || ceil < s.ctxWindow x.ctx + n)

/-- Whether a request of `n` bytes of a launch, under the number `owner`, may go out (R97): one that would pass a limit is held,
and goes out at the start of the next window. -/
def State.bwPass (s : State) (l owner n : Nat) : State × Bool :=
  if s.bwWait.contains (owner, true) then (s, true)
  else if s.bwWait.contains (owner, false) then (s, false)
  else if s.bwHeld l n then ({ s with bwWait := s.bwWait ++ [(owner, false)] }, false)
  else (s, true)

/-- A request that a window held has gone out. -/
def State.bwDone (s : State) (owner : Nat) : State := { s with bwWait := s.bwWait.filter fun e => e.1 != owner }

/-- A new window begins (R97): what was held may go out. -/
def State.bwFree (s : State) : State :=
  { s with bwWait := (s.bwWait.filter fun e => !e.2).map fun (e : Nat × Bool) => (e.1, true) }

end Sys2Proof.Machine
end

