-- ==== Sys2Proof/Machine/Home.lean ====
section
/-!
DEFINITION. Points of service and what stands before them: the L1 of a core (R150-R153), scratchpads (R145-R147), held
contributions (R196-R200), messages to
peers (R22-R26), and a task-ending cause that an issued access meets later (R306).
-/

namespace Sys2Proof.Machine

/-! ### L1 (R150-R153) -/

/-- The key of a word in an L1: context and word number. -/
def l1Key (ctx va : Nat) : Nat := ctx * 2 ^ 54 + va / 4

/-- A valid word of an L1. -/
def Core.l1Word (c : Core) (key : Nat) : Option Lane :=
  let x := sget c.l1 key
  if x.getLsbD 32 then some (x.setWidth 32) else none

/-- Allocate a line in a core's L1: when the 8 ways of its set are taken, one of them is evicted (R150). -/
def State.l1Alloc (s : State) (core line : Nat) : State :=
  let c := s.core core
  if c.lines.contains line then s else
  let others := c.lines.filter fun x => x % 512 == line % 512
  let gone := if others.length < 8 then none else others[Config.l1Victim s.free % others.length]?
  match gone with
  | none => s.updCore core fun c => { c with lines := line :: c.lines }
  | some v =>
    (s.draw 1).updCore core fun c =>
      { c with lines := line :: c.lines.filter (· != v), l1 := skeep c.l1 fun k => k / 32 != v }

/-- Make a word of a core's L1 valid, in a line that is allocated for it (R150). -/
def State.l1Put (s : State) (core key : Nat) (x : Lane) : State :=
  (s.l1Alloc core (key / 32)).updCore core fun c => { c with l1 := sset c.l1 key (BitVec.ofNat 33 (x.toNat + 2 ^ 32)) }

/-- The words of a fill's sectors, by address / 4. -/
def Req.words (r : Req) : List Nat :=
  match r.kind with
  | .fill secs => secs.flatMap fun o => upto ((r.va + o) / 4) 8
  | _ => []

/-- Whether a request is a merging fill. -/
def Req.isFill (r : Req) : Bool :=
  match r.kind with
  | .fill _ => true
  | _ => false

/-- Mark the words of a core's fills that `p` holds of, for the fills that `sel` holds of. -/
def State.markFills (s : State) (core : Nat) (sel : Req → Bool) (p : Nat → Bool) : State :=
  let f := fun (r : Req) => { r with clr := r.clr ++ r.words.filter fun w => p (r.ctx * 2 ^ 54 + w) }
  { s with reqs := mapIf (fun r => r.core == core && r.isFill && sel r) f s.reqs }

/-- Mark the words of fills that have been sent which a clear touches (R152). -/
def State.touchFills (s : State) (core : Nat) (p : Nat → Bool) : State := s.markFills core (·.out) p

/-- Clear the valid bits of the words of a core's L1 that satisfy `p`, for fills on their way as well (R152, R153). -/
def State.clearL1 (s : State) (core : Nat) (p : Nat → Bool) : State :=
  (s.updCore core fun c => { c with l1 := skeep c.l1 fun k => !p k }).touchFills core p

/-- Clear a context's words of a core's L1 (R176, R178, R434). -/
def State.clearL1Ctx (s : State) (core ctx : Nat) : State := s.clearL1 core fun k => k / 2 ^ 54 == ctx

/-- Clear a core's whole L1 (R153, R170). -/
def State.clearL1All (s : State) (core : Nat) : State := s.clearL1 core fun _ => true

/-- Invalidate the words of an L1 that a write past L1 touches (R153). -/
def State.l1Drop (s : State) (core ctx va n : Nat) : State :=
  s.clearL1 core fun k => l1Key ctx va ≤ k && k ≤ l1Key ctx (va + n - 1)

/-- Bytes by address: bit 8 marks a byte that is there. -/
abbrev ByteMap := Sparse 9

/-- Put bytes into a byte map from an address. -/
def putBytes (m : ByteMap) (a : Nat) (bs : List Byte) : ByteMap :=
  ssets m ((pairsFrom a bs).map fun e => (e.1, BitVec.ofNat 9 (e.2.toNat + 256)))

/-- `n` bytes of a byte map. -/
def getBytes (m : ByteMap) (a n : Nat) : List Byte := (sgets m a n).map fun x => x.setWidth 8

/-- The listed bytes. -/
def mapBytes (m : ByteMap) : List (Nat × Byte) := m.map fun e => (e.1, e.2.setWidth 8)

/-- The different values of a list, in order of first appearance. -/
def distinct (l : List Nat) : List Nat := l.foldl (fun a x => if a.contains x then a else a ++ [x]) []

/-- A store writes its bytes into L1 (R151): it allocates its line on a miss; a word written in full becomes valid, a valid word
takes the bytes, and any other word stays invalid (a fill of it that was issued before leaves it so, R166). -/
def State.l1Store (s : State) (core ctx : Nat) (m : ByteMap) : State :=
  (distinct (m.map fun e => e.1 / 4)).foldl (fun s w =>
    let key := ctx * 2 ^ 54 + w
    let have_ := (sgets m (4 * w) 4).map fun x => x.getLsbD 8
    let new := getBytes m (4 * w) 4
    let old := match (s.core core).l1Word key with
      | some x => some (leBytes 4 x.toNat)
      | none => none
    if have_.all id then s.l1Put core key (BitVec.ofNat 32 (leNat new))
    else
      match old with
      | some o =>
        let bs := (o.zip (new.zip have_)).map fun e => if e.2.2 then e.2.1 else e.1
        s.l1Put core key (BitVec.ofNat 32 (leNat bs))
      | none => (s.l1Alloc core (key / 32)).markFills core (fun _ => true) (· == key)) s

/-! ### Scratchpads (R145-R147) -/

/-- Where a scratchpad address leads: the detail of ALIGN, or a team and an offset (R146). -/
inductive SpadAt where
  | bad (detail : Nat)
  | at_ (team off : Nat)
  deriving DecidableEq, Repr

/-- The checks of R146 for an access of `n` bytes by team `u`. -/
def State.spadAt (s : State) (u a n : Nat) : SpadAt :=
  let off := bits a 0 20
  let win := bit a 31
  if off % n != 0 then .bad 0
  else if bits a 27 4 != 0 || (!win && bits a 20 7 != 0) then .bad 1
  else
    match s.team? u with
    | none => .bad 1
    | some t =>
      let tgt := if win then
          s.teams.find? fun x => x.launch == t.launch && x.cluster == t.cluster && x.ccol == bits a 20 3 && x.crow == bits a 23 4
        else some t
      match tgt with
      | none => .bad 1
      | some x => if x.spadBytes < off + n then .bad 1 else .at_ x.uid off

/-- Bytes of a team's scratchpad. -/
def State.spadRead (s : State) (u off n : Nat) : List Byte :=
  match s.team? u with
  | some t => sgets t.spad off n
  | none => List.replicate n 0

/-- Write bytes of a team's scratchpad. -/
def State.spadWrite (s : State) (u : Nat) (bs : List (Nat × Byte)) : State :=
  s.updTeam u fun t => { t with spad := ssets t.spad bs }

/-! ### Held contributions (R196-R200) -/

/-- The opcode of an id in a context, if it has a definition (R188). -/
def State.opcode? (s : State) (ctx id : Nat) : Option (Opcode × BitVec 8) :=
  if id < 16 then some ({ id := id, defn := [] }, 0)
  else
    match s.ctx? ctx with
    | none => none
    | some c =>
      match c.ops.find? (·.1 == id) with
      | none => none
      | some e =>
        match e.2.defn with
        | some d => some ({ id := id, defn := d }, e.2.gen)
        | none => none

/-- The generation of an id in a context (R188). -/
def State.opGen (s : State) (ctx id : Nat) : BitVec 8 :=
  match s.ctx? ctx with
  | none => 0
  | some c =>
    match c.ops.find? (·.1 == id) with
    | some e => e.2.gen
    | none => 0

/-! ### Messages to peers (R22-R26) -/

/-- Whether a message is of class 4 (R23). -/
def msgControl (m : Msg) : Bool := 0x0A ≤ m.code.toNat

/-- The class of a message code (R23). -/
def msgCls (code : Nat) : BitVec 4 :=
  if code = 1 || code = 2 then 0
  else if code = 3 || code = 4 || code = 7 then 1
  else if code = 5 || code = 6 then 2
  else if code = 8 || code = 9 then 3
  else 4

/-- Frames of class 4 that a link has not had acknowledged. -/
def Link.controls (l : Link) : List (Nat × Msg) := l.unacked.filter fun e => msgControl e.2

/-- Whether a message can leave: the replay buffer holds 256 frames, at most 32 of them of class 4 (R20, R21). -/
def Link.room (l : Link) (m : Msg) : Bool := l.unacked.length < 256 && (!msgControl m || l.controls.length < 32)

/-- A message leaves on a link: it takes the next frame counter and stays in the replay buffer until it is acknowledged (R21). -/
def State.frame (s : State) (n : Nat) (m : Msg) : State :=
  (s.updLink n fun l =>
    { l with sendCnt := l.sendCnt + 1, unacked := l.unacked ++ [(l.sendCnt, m)], sentAt := s.time }).emit (.link n m)

/-- Put a message on a link; it waits behind those that a full replay buffer, or the limit of class 4, keeps back. -/
def State.sendOn (s : State) (n : Nat) (m : Msg) : State :=
  let l := s.link n
  if l.room m && l.waiting.all fun x => msgControl x != msgControl m then s.frame n m
  else s.updLink n fun l => { l with waiting := l.waiting ++ [m] }

/-- Messages that waited leave as frames are acknowledged, those of class 4 ahead of the others (R20). -/
def State.drainLink : Nat → State → Nat → State
  | 0, s, _ => s
  | k + 1, s, n =>
    let l := s.link n
    match (l.waiting.filter msgControl ++ l.waiting.filter fun m => !msgControl m).find? l.room with
    | none => s
    | some m => State.drainLink k ((s.updLink n fun l => { l with waiting := l.waiting.erase m }).frame n m) n

/-- Send a message to its DST by the link of R25; none when no link is up. Control messages take the lowest link. -/
def State.send (s : State) (m : Msg) : Option State :=
  let ls := s.linksTo m.dst.toNat
  let i := if 0x0A ≤ m.code.toNat then 0 else m.addr.toNat / 128 % 128 % ls.length
  match ls[i]? with
  | some n => some (s.sendOn n m)
  | none => none

/-- Send an answer; a peer that has been lost by then gets none (R29). -/
def State.reply (s : State) (m : Msg) : State :=
  if s.dev.lost.contains m.dst.toNat then s else (s.send m).getD s

/-- A message of this package to a peer. -/
def State.msg (s : State) (code p addr ctx txn : Nat) (data : List Byte) : Msg :=
  { cls := msgCls code, len := BitVec.ofNat 5 (1 + ceilDiv data.length 32), code := BitVec.ofNat 8 code, src := s.dev.peerId,
    dst := BitVec.ofNat 6 p, addr := BitVec.ofNat 56 addr,
    ctx := BitVec.ofNat 6 ctx, ropid := 0, part := 0, txn := BitVec.ofNat 32 txn,
    bytes := BitVec.ofNat 16 data.length, status := 0, data := data }

/-! ### Bytes that an access moves (R94) -/

/-- The bytes that an access moves between DRAM and the slices, or over a link (R94). -/
def State.moves (s : State) (ctx : Nat) (t : Tgt) (n : Nat) (wr : Bool) : Nat :=
  match t with
  | .home d uam _ => s.dramBytes ctx d n uam wr
  | .peer _ _ => n
  | .spad _ _ => 0

/-! ### Task-ending causes met after issue (R306) -/

/-- The trap registers of an access issued at `o` (R308). -/
def Origin.info (o : Origin) (cause detail addr : Nat) (lanes : LaneMask) : TrapInfo :=
  { cause := cause, detail := detail, addr := addr, lanes := lanes, fpc := o.pc, resume := 0, frop := 0,
    inrun := o.widx.isSome, emitted := o.emitted,
    widx := match o.widx with
      | some w => w.toNat
      | .none => 0,
    seq := o.seq, epc := o.epc }

/-- A task-ending cause that an issued access of a unit meets. -/
def State.endAccess (s : State) (u unit : Nat) (o : Origin) (status : BitVec 8) (addr : Nat) (lanes : LaneMask) : State :=
  match s.team? u with
  | none => s
  | some t =>
    let gid := t.trapGid unit
    let regs := (o.info status.toNat 0 addr lanes).regs (t.pilotLevel unit) gid 0 (if unit = 17 then 0 else (t.grp unit).rgnPc)
    s.endTask t.launch status (some { gid := gid, tid := t.tid, regs := regs })

/-- The origin of what the issuing party does now (R137). -/
def State.origin (s : State) (i : Iss) : Origin :=
  match (s.grp i.p.team i.p.unit).run with
  | none => { pc := i.at_, emitted := false, seq := 0, epc := 0, widx := none }
  | some r =>
    match r.emitted with
    | none => { pc := i.at_, emitted := false, seq := 0, epc := 0, widx := some (BitVec.ofNat 5 r.idx) }
    | some x => { pc := i.at_, emitted := true, seq := x.seq, epc := x.pc, widx := some (BitVec.ofNat 5 r.idx) }

end Sys2Proof.Machine
end

