-- ==== Sys2Proof/Machine/Memory.lean ====
section
/-!
DEFINITION. Loads and stores (R325, R367, R368, R420-R424): forming addresses, the checks in their order, translation, the
requests that leave for the points of service, and the waits of issue on draining pages (R83).
-/

namespace Sys2Proof.Machine

/-! ### Addresses -/

/-- Lane `i`'s address (R325), modulo 2^64. -/
def Grp.addrOf (g : Grp) (m : MemArg) (i : Nat) : Nat :=
  let v := g.vget m.a.toNat i
  let off : U64 := if m.sx then v.signExtend 64 else v.setWidth 64
  let off := if m.scale then off <<< m.size.toNat else off
  let disp : U64 := match m.disp with
    | .none => 0
    | .some d => d.signExtend 64
  (g.sget m.base.toNat + off + disp).toNat

/-- The lanes of a mask with their addresses. -/
def Grp.addrs (g : Grp) (m : MemArg) (mask : LaneMask) : List (Nat × Nat) :=
  (lanesOf mask).map fun i => (i, g.addrOf m i)

/-- The bytes of an access: 1, 2, 4 or 8. -/
def memBytes (m : MemArg) : Nat := 2 ^ m.size.toNat

/-- A target moved on by `fwd` bytes and back by `back`. -/
def Tgt.move : Tgt → Nat → Nat → Tgt
  | .home d u c, fwd, back => .home (d + fwd - back) u c
  | .peer p a, fwd, back => .peer p (a + fwd - back)
  | .spad t o, fwd, back => .spad t (o + fwd - back)

/-- Where a target lies: its kind, whose it is, and the address. -/
def Tgt.spot : Tgt → Nat × Nat × Nat
  | .home d _ _ => (0, 0, d)
  | .peer p a => (1, p, a)
  | .spad t o => (2, t, o)

/-- Whether a target is a peer's. -/
def Tgt.far : Tgt → Bool
  | .peer _ _ => true
  | _ => false

/-- Whether accesses to a target go through L1 (R153). -/
def Tgt.cached : Tgt → Bool
  | .home _ uam _ => !uam
  | _ => false

/-! ### Translation at issue (R76, R83, R421) -/

/-- Translate the addresses of lanes for a party: a lease miss on any lane ends the task, then a lost peer; a draining page
of MIG 1 parks the group, for a replay, unless the instruction is never replayed; any other draining page holds the
instruction back (R83, R299). -/
def State.access (s : State) (i : Iss) (l : List (Nat × Nat)) (wr keep : Bool)
    (k : State → List (Nat × Nat × Tgt) → Out) : Out :=
  let u := i.p.team
  let s := match s.launchOf u with
    | some x => l.foldl (fun s e => s.warm x e.2) s
    | none => s
  let trs := l.map fun e => (e.1, e.2, s.translateFor u i.p.unit e.2 wr)
  let of_ := fun (f : Tr → Bool) => trs.filter fun e => f e.2.2
  let stop := fun (st : BitVec 8) (b : List (Nat × Nat × Tr)) =>
    Host.Outcome.next (s.endBy st ((b.map fun e => e.2.1).headD 0) (maskOf (b.map fun e => e.1)))
  let miss := of_ fun t => t == .miss
  let lost := of_ fun t => t == .lost
  let dbl := of_ fun t => t == .double
  let drain := of_ fun t => match t with
    | .drain _ => true
    | _ => false
  if !miss.isEmpty then stop 0x10 miss
  else if !lost.isEmpty then stop 0x11 lost
  else if !dbl.isEmpty then stop 0x13 dbl
  else if !drain.isEmpty then
    match drain.find? fun e => e.2.2 == .drain true && i.p.unit != 17 && !keep with
    | some e => .next (s.setPark i.p (some (.migrating e.2.1)))
    | none => .next s
  else
    k s (trs.filterMap fun e => match e.2.2 with
      | .ok t => some (e.1, e.2.1, t)
      | _ => none)

/-! ### Requests -/

/-- Add a request of instruction `tag`; it may come to its point of service from now on. -/
def State.addReq (s : State) (tag team unit core ctx va n : Nat) (tgt : Tgt) (kind : ReqKind) : State :=
  let r : Req :=
    { id := s.nextId, tag := tag, team := team, unit := unit, core := core, ctx := ctx, va := va, n := n, tgt := tgt,
      kind := kind, also := [], clr := [], out := false, phase := .sent, data := [] }
  ({ s with reqs := s.reqs ++ [r] }.bump).pending [.homeAccess r.id]

/-- Whether two units of a team share a group slot in their requests (R157). -/
def slotShared (a b : Nat) : Bool := a == b || ((a == 0 || a == 16 || a == 17) && (b == 0 || b == 16 || b == 17))

/-- The lowest number that no issued instruction of a unit has, nor of one with its group slot (R157). -/
def State.freeTag (s : State) (u unit : Nat) : Nat :=
  ((upto 0 256).find? fun n => !s.pends.any fun p => p.team == u && slotShared p.unit unit && p.itag == n).getD 0

/-- Record an issued instruction with requests to come; its tag is the number that `State.nextId` had. -/
def State.addPend (s : State) (i : Iss) (cls : Cls) (act : PendAct) (lanes : List (Nat × Nat)) (batch : Option (BitVec 32)) :
    State :=
  let p : Pend :=
    { tag := s.nextId, itag := s.freeTag i.p.team i.p.unit, team := i.p.team, unit := i.p.unit, entry := i.p.entry, cls := cls,
      act := act, lanes := lanes,
      got := [], batch := batch, org := s.origin i, bad := [] }
  { s with pends := s.pends ++ [p] }.bump

/-- Update an issued instruction. -/
def State.updPend (s : State) (tag : Nat) (f : Pend → Pend) : State :=
  { s with pends := mapIf (fun (p : Pend) => p.tag == tag) f s.pends }

/-- The 32-byte sectors of spans (start, bytes, target), each once, with its target. -/
def sectorsOf (l : List (Nat × Nat × Tgt)) : List (Nat × Tgt) :=
  let one := fun (e : Nat × Nat × Tgt) =>
    (upto (e.1 / 32) ((e.1 + e.2.1 - 1) / 32 - e.1 / 32 + 1)).map fun k => (k * 32, e.2.2.move (k * 32) e.1)
  (l.flatMap one).foldl (fun a e => if a.any (fun x => x.1 == e.1) then a else a ++ [e]) []

/-- The words of spans that lie in a sector. -/
def wordsIn (l : List (Nat × Nat × Tgt)) (sector : Nat) : List Nat :=
  (upto (sector / 4) 8).filter fun w => l.any fun e => e.1 < 4 * w + 4 && 4 * w < e.1 + e.2.1

/-- Sectors gathered by line, in one request each (R157, R231): start, bytes, offsets of the sectors, target. -/
def lineReads (l : List (Nat × Tgt)) : List (Nat × Nat × List Nat × Tgt) :=
  (distinct (l.map fun e => e.1 / 128)).filterMap fun line =>
    let mine := l.filter fun e => e.1 / 128 == line
    let lo := mine.foldl (fun a e => min a e.1) (line * 128 + 128)
    let hi := mine.foldl (fun a e => max a e.1) 0
    match mine.find? fun e => e.1 == lo with
    | some e => some (lo, hi + 32 - lo, mine.map (fun e => e.1 - lo), e.2)
    | none => none

/-- Bytes in rising order cut into runs of consecutive addresses. -/
def runsOf : List (Nat × Byte) → List (Nat × List Byte)
  | [] => []
  | (a, b) :: t =>
    match runsOf t with
    | (c, bs) :: rest => if c = a + 1 then (a, b :: bs) :: rest else (a, [b]) :: (c, bs) :: rest
    | [] => [(a, [b])]

/-- A read past L1 of sectors of one line: start, bytes, offsets of the sectors, target, and further addresses of the same span. -/
structure LineRead where
  va   : Nat
  n    : Nat
  secs : List Nat
  tgt  : Tgt
  also : List Nat
  deriving DecidableEq, Repr

/-- Where the line of a read lies at its point of service. -/
def LineRead.row (r : LineRead) : Nat × Nat × Nat := (r.tgt.move (r.va / 128 * 128) r.va).spot

/-- Two reads of one line as one (R231). -/
def LineRead.join (r q : LineRead) : LineRead :=
  let offs := distinct (r.secs.map (· + r.va % 128) ++ q.secs.map (· + q.va % 128))
  let lo := offs.foldl min 128
  let at_ := fun (a : Nat) => a / 128 * 128 + lo
  { va := at_ r.va, n := offs.foldl max 0 + 32 - lo, secs := offs.map (· - lo), tgt := r.tgt.move (at_ r.va) r.va,
    also := r.also.map at_ ++ [at_ q.va] }

/-- The reads past L1 of sectors: those of one line, by whatever addresses, in one (R157, R231). -/
def homeReads (l : List (Nat × Tgt)) : List LineRead :=
  ((lineReads l).map fun e => ({ va := e.1, n := e.2.1, secs := e.2.2.1, tgt := e.2.2.2, also := [] } : LineRead)).foldl (fun a q =>
    if a.any fun r => r.row == q.row then mapIf (fun r => r.row == q.row) (·.join q) a else a ++ [q]) []

/-- Update a request. -/
def State.updReq (s : State) (id : Nat) (f : Req → Req) : State :=
  { s with reqs := mapIf (fun (r : Req) => r.id == id) f s.reqs }

/-- A read past L1 leaves as a request. -/
def State.addRead (s : State) (tag team unit core ctx : Nat) (r : LineRead) : State :=
  let t := s.addReq tag team unit core ctx r.va r.n r.tgt (.read r.secs)
  if r.also.isEmpty then t else t.updReq s.nextId fun q => { q with also := r.also }

/-- Read spans past L1: the sectors of a line in one request (R157, R167, R231). -/
def State.readLines (s : State) (tag team unit core ctx : Nat) (l : List (Nat × Nat × Tgt)) : State :=
  (homeReads (sectorsOf l)).foldl (fun s r => s.addRead tag team unit core ctx r) s

/-- Whether a unit has a read past L1 on its way that takes in a word: a later load of the word may not return what L1 held
before (R166). -/
def State.bypassing (s : State) (team unit ctx w : Nat) : Bool :=
  s.reqs.any fun r => r.team == team && r.unit == unit && r.ctx == ctx && (match r.kind with
    | .read secs => (r.va :: r.also).any fun a => a < 4 * w + 4 && 4 * w < a + r.n &&
        (secs.isEmpty || secs.any fun o => a + o < 4 * w + 4 && 4 * w < a + o + 32)
    | _ => false)

/-- Read spans for instruction `tag`: a sector whose words are all valid in L1 gives them at once; any other sector is fetched
by a merging fill, one for the sectors of a line, or read at its point of service when it bypasses L1 (R151-R153, R157, R167).
What is read past L1 leaves the core's L1, so that no later load goes back behind it (R166). -/
def State.readSpans (s : State) (tag team unit core ctx : Nat) (l1 : Bool) (l : List (Nat × Nat × Tgt)) : State :=
  let near := l.filter fun e => l1 && e.2.2.cached
  let past := l.filter fun e => !(l1 && e.2.2.cached)
  let vals := fun (s : State) (sec : Nat) => (wordsIn near sec).map fun w => (w, (s.core core).l1Word (ctx * 2 ^ 54 + w))
  let hits := fun (e : Nat × Tgt) => (vals s e.1).all fun v => v.2.isSome && !s.bypassing team unit ctx v.1
  let secs := sectorsOf near
  let put := fun (m : ByteMap) (v : Nat × Option Lane) => match v.2 with
    | some x => putBytes m (4 * v.1) (leBytes 4 x.toNat)
    | none => m
  let got := (secs.filter hits).flatMap fun e => vals s e.1
  let s := s.updPend tag fun p => { p with got := got.foldl put p.got }
  let s := (lineReads (secs.filter fun e => !hits e)).foldl (fun s e =>
    s.addReq tag team unit core ctx e.1 e.2.1 e.2.2.2 (.fill e.2.2.1)) s
  let s := past.foldl (fun s e => if core < Config.cores then s.l1Drop core ctx e.1 e.2.1 else s) s
  s.readLines tag team unit core ctx past

/-- Write bytes for instruction `tag`, one request per line; a write to a peer carries consecutive bytes (R22). `tgt` gives
the target of an address. -/
def State.writeMap (s : State) (tag team unit core ctx : Nat) (m : ByteMap) (tgt : Nat → Option Tgt) : State :=
  let bs := mapBytes m
  (distinct (bs.map fun e => e.1 / 128)).foldl (fun s line =>
    let mine := bs.filter fun e => e.1 / 128 == line
    match tgt (mine.headD (0, 0)).1 with
    | none => s
    | some t =>
      let a0 := (mine.headD (0, 0)).1
      match t with
      | .peer _ _ =>
        (runsOf mine).foldl (fun s r =>
          s.addReq tag team unit core ctx r.1 r.2.length (t.move r.1 a0) (.write (pairsFrom 0 r.2))) s
      | _ =>
        s.addReq tag team unit core ctx (line * 128) 128 (t.move (line * 128) a0)
          (.write (mine.map fun e => (e.1 - line * 128, e.2)))) s

/-- The target that a list of translated addresses gives for an address of one of their lines. -/
def tgtOf (l : List (Nat × Nat × Tgt)) (a : Nat) : Option Tgt :=
  match l.find? fun e => e.2.1 / 128 == a / 128 with
  | some e => some (e.2.2.move a e.2.1)
  | none => none

/-- Bytes that an access of a lane takes. -/
def Pend.size (p : Pend) : Nat :=
  match p.act with
  | .lanes _ n => n
  | .round _ _ => 64
  | .uniform _ => 8
  | .stores => 1
  | _ => 1024

/-- The accesses of an instruction that a span which came back with a status touches. -/
def Pend.hit (p : Pend) : List (Nat × Nat) :=
  p.lanes.filter fun e => p.bad.any fun b => b.1 < e.2 + p.size && e.2 < b.1 + b.2.1

/-- An instruction some of whose requests met a task-ending cause ends its task, once all have come back (R88, R204, R306). -/
def State.failPend (s : State) (p : Pend) : State :=
  let b := p.bad.headD (0, 0, 0)
  let first := (p.hit.head?).getD (0, b.1)
  s.endAccess p.team p.unit p.org b.2.2 first.2 (maskOf (p.hit.map (·.1)))

/-- An instruction whose reads have all returned completes (R174). -/
def State.readsDone (s : State) (tag : Nat) : State :=
  if s.reqs.any fun r => r.tag == tag then s else
  match s.pends.find? fun p => p.tag == tag with
  | none => s
  | some p =>
    match p.act with
    | .prefetch => { s with pends := s.pends.filter fun q => q.tag != tag }
    | .hold _ _ => s
    | _ => if !p.bad.isEmpty then s.failPend p else
    match p.act with
    | .block _ => s.pending [.recordReadReturn tag]
    | .record _ => s.pending [.recordReadReturn tag]
    | .define _ _ => s.pending [.recordReadReturn tag]
    | _ => s.pending [.loadCompletion tag]

/-! ### Loads and stores of lanes (R420-R424) -/

/-- The lanes whose address breaks a check trap together, with the lowest lane's detail (R293). -/
def State.alignTrap (s : State) (bad : List (Nat × Nat × Nat)) : State :=
  match bad with
  | [] => s
  | (_, a, d) :: _ => s.trap 0x24 d a (maskOf (bad.map fun e => e.1))

/-- The value that lane `i` stores (R421). -/
def Grp.stored (g : Grp) (d n i : Nat) : Nat :=
  if n = 8 then (g.vget (d + 1) i).toNat * 2 ^ 32 + (g.vget d i).toNat else (g.vget d i).toNat

/-- The bytes that a store's lanes write, the highest-numbered lane last (R167). -/
def Grp.storeMap (g : Grp) (d n : Nat) (l : List (Nat × Nat)) : ByteMap :=
  l.foldl (fun m e => putBytes m e.2 (leBytes n (g.stored d n e.1))) []

/-- Whether two lanes' accesses of `n` bytes meet in a byte that they name by different addresses. -/
def crossed (n : Nat) (e f : Nat × Nat × Tgt) : Bool :=
  let a := e.2.2.spot
  let b := f.2.2.spot
  a.1 == b.1 && a.2.1 == b.2.1 && a.2.2 < b.2.2 + n && b.2.2 < a.2.2 + n && a.2.2 + f.2.1 != b.2.2 + e.2.1

/-- Whether the byte at `va`, as the last lane that writes it there leaves it, is written again by a later lane under another
address (R167). -/
def overtaken (n : Nat) (l : List (Nat × Nat × Tgt)) (va : Nat) : Bool :=
  let covers := fun (e : Nat × Nat × Tgt) => decide (e.2.1 ≤ va) && decide (va < e.2.1 + n)
  match (l.filter covers).getLast? with
  | none => false
  | some e =>
    let at_ := e.2.2.spot.2.2 + (va - e.2.1)
    l.any fun f => e.1 < f.1 && crossed n e f && decide (f.2.2.spot.2.2 ≤ at_) && decide (at_ < f.2.2.spot.2.2 + n)

/-- The bytes of a store that lanes leave: where two lanes write one byte under different addresses, the higher lane's remains
(R167). `l` gives lane, address and target, in rising lane order. -/
def lastLanes (n : Nat) (l : List (Nat × Nat × Tgt)) (m : ByteMap) : ByteMap :=
  if l.any fun e => l.any fun f => crossed n e f then m.filter fun e => !overtaken n l e.1 else m

/-- A load of lanes through L1 or past it. -/
def loadMem (sig : Sig) (p : Pfx) (m : MemArg) (l1 : Bool) (s : State) : Out :=
  issue sig p.mask s fun i s =>
    let g := s.my i
    let n := memBytes m
    let l := g.addrs m i.mask
    let bad := (l.filter fun e => e.2 % n != 0).map fun e => (e.1, e.2, 0)
    if i.mask = 0 then .next (s.advance i)
    else if !bad.isEmpty then .next (s.alignTrap bad)
    else s.access i l false false fun s tr =>
      let tag := s.nextId
      let u := i.p.team
      let s := s.addPend i .load (.lanes m.d.toNat n) l none
      let s := s.readSpans tag u i.p.unit (s.coreOf u) (s.ctxOf u) l1 (tr.map fun e => (e.2.1, n, e.2.2))
      .next ((s.readsDone tag).advance i)

/-- A store of lanes through L1 or past it. -/
def storeMem (sig : Sig) (p : Pfx) (m : MemArg) (l1 : Bool) (s : State) : Out :=
  issue sig p.mask s fun i s =>
    let g := s.my i
    let n := memBytes m
    let l := g.addrs m i.mask
    let bad := (l.filter fun e => e.2 % n != 0).map fun e => (e.1, e.2, 0)
    if i.mask = 0 then .next (s.advance i)
    else if !bad.isEmpty then .next (s.alignTrap bad)
    else s.access i l true false fun s tr =>
      let tag := s.nextId
      let u := i.p.team
      let core := s.coreOf u
      let ctx := s.ctxOf u
      let all := g.storeMap m.d.toNat n l
      let map := lastLanes n tr all
      let cached := map.filter fun e => l1 && (match tgtOf tr e.1 with
        | some t => t.cached
        | none => false)
      let past := all.filter fun e => !cached.any fun x => x.1 == e.1
      let s := s.addPend i .store .stores l none
      let s := s.l1Store core ctx cached
      let s := s.clearL1 core fun k => past.any fun e => l1Key ctx e.1 == k
      .next ((s.writeMap tag u i.p.unit core ctx map (tgtOf tr)).advance i)

/-- LD (R421). -/
def execLd (p : Pfx) (m : MemArg) (s : State) : Out := loadMem (sigOf (.ld p m)) p m true s
/-- LDC (R420). -/
def execLdc (p : Pfx) (m : MemArg) (s : State) : Out := loadMem (sigOf (.ldc p m)) p m false s
/-- ST (R421). -/
def execSt (p : Pfx) (m : MemArg) (s : State) : Out := storeMem (sigOf (.st p m)) p m true s
/-- STC (R420). -/
def execStc (p : Pfx) (m : MemArg) (s : State) : Out := storeMem (sigOf (.stc p m)) p m false s

/-! ### Scratchpad (R145-R147, R421) -/

/-- What stops a scratchpad instruction: lanes that break R146, then a base register with high bits. -/
def State.spadTrap (s : State) (i : Iss) (m : MemArg) (l : List (Nat × Nat)) : Option State :=
  let bad := l.filterMap fun e => match s.spadAt i.p.team e.2 (memBytes m) with
    | .bad d => some (e.1, e.2, d)
    | .at_ _ _ => none
  if !bad.isEmpty then some (s.alignTrap bad)
  else if (s.my i).sget m.base.toNat >>> 32 != 0 then some (s.trap 0x24 0x01 0 i.mask)
  else none

/-- The lanes with their scratchpad addresses. -/
def Grp.spadAddrs (g : Grp) (m : MemArg) (mask : LaneMask) : List (Nat × Nat) :=
  (g.addrs m mask).map fun e => (e.1, e.2 % 2 ^ 32)

/-- The target of a scratchpad address that passes R146. -/
def State.spadTgt (s : State) (u a n : Nat) : Tgt :=
  match s.spadAt u a n with
  | .at_ t o => .spad t o
  | .bad _ => .spad 0 0

/-- Read spans of scratchpads (address, bytes) for instruction `tag`. -/
def State.spadSpans (s : State) (tag team unit : Nat) (l : List (Nat × Nat)) : State :=
  (l.foldl (fun a e => if a.contains e then a else a ++ [e]) []).foldl (fun s e =>
    s.addReq tag team unit (s.coreOf team) 0 e.1 e.2 (s.spadTgt team e.1 e.2) (.read [])) s

/-- The lanes with their scratchpad addresses and targets. -/
def State.spadLanes (s : State) (u n : Nat) (l : List (Nat × Nat)) : List (Nat × Nat × Tgt) :=
  l.map fun e => (e.1, e.2, s.spadTgt u e.2 n)

/-- Write bytes by scratchpad address for instruction `tag`, one request per target team. -/
def State.spadMap (s : State) (tag team unit : Nat) (m : ByteMap) : State :=
  let bs := (mapBytes m).filterMap fun e => match s.spadAt team e.1 1 with
    | .at_ t o => some (t, o, e.2)
    | .bad _ => none
  (distinct (bs.map fun e => e.1)).foldl (fun s t =>
    s.addReq tag team unit (s.coreOf team) 0 0 1048576 (.spad t 0)
      (.write ((bs.filter fun e => e.1 == t).map fun e => (e.2.1, e.2.2)))) s

/-- LDS (R421). -/
def execLds (p : Pfx) (m : MemArg) (s : State) : Out :=
  issue (sigOf (.lds p m)) p.mask s fun i s =>
    let l := (s.my i).spadAddrs m i.mask
    if i.mask = 0 then .next (s.advance i) else
    match s.spadTrap i m l with
    | some s => .next s
    | none =>
      let tag := s.nextId
      let s := s.addPend i .load (.lanes m.d.toNat (memBytes m)) l none
      .next ((s.spadSpans tag i.p.team i.p.unit (l.map fun e => (e.2, memBytes m))).advance i)

/-- STS (R421). -/
def execSts (p : Pfx) (m : MemArg) (s : State) : Out :=
  issue (sigOf (.sts p m)) p.mask s fun i s =>
    let g := s.my i
    let l := g.spadAddrs m i.mask
    if i.mask = 0 then .next (s.advance i) else
    match s.spadTrap i m l with
    | some s => .next s
    | none =>
      let tag := s.nextId
      let s := s.addPend i .store .stores [] none
      let n := memBytes m
      let map := lastLanes n (s.spadLanes i.p.team n l) (g.storeMap m.d.toNat n l)
      .next ((s.spadMap tag i.p.team i.p.unit map).advance i)

/-! ### Prefetch and invalidation (R423) -/

/-- PRF (R423): a lane that would fault, or whose page bypasses L1 or is draining, is dropped. -/
def execPrf (p : Pfx) (m : MemArg) (s : State) : Out :=
  issue (sigOf (.prf p m)) p.mask s fun i s =>
    let u := i.p.team
    let l := ((s.my i).addrs m i.mask).filterMap fun e =>
      if e.2 % memBytes m != 0 then none
      else match s.translateFor u i.p.unit e.2 false with
        | .ok t => if t.cached then some (e.2 / 32 * 32, 32, t.move (e.2 / 32 * 32) e.2) else none
        | _ => none
    let tag := s.nextId
    let s := s.addPend i .none .prefetch [] none
    let s := s.readSpans tag u i.p.unit (s.coreOf u) (s.ctxOf u) true l
    .next ((s.readsDone tag).advance i)

/-- INV (R423): the issuing context's valid bits of the lanes' lines. -/
def execInv (p : Pfx) (m : MemArg) (s : State) : Out :=
  issue (sigOf (.inv p m)) p.mask s fun i s =>
    let u := i.p.team
    let ctx := s.ctxOf u
    let lines := (((s.my i).addrs m i.mask).filter fun e => e.2 < 2 ^ 56).map fun e => l1Key ctx e.2 / 32
    .next ((s.clearL1 (s.coreOf u) fun k => lines.contains (k / 32)).advance i)

/-! ### Uniform and pilot accesses (R367, R368) -/

/-- The address of a uniform access. -/
def Grp.uniAddr (g : Grp) (a : BitVec 8) (imm : Imm) : Nat := (g.sget a.toNat + Imm.uniform imm true).toNat

/-- The pilot waits for its own access (R368). -/
def State.pilotWait (s : State) (i : Iss) (tag : Nat) : State :=
  if i.p.unit = 17 then s.setPark i.p (some (.read tag)) else s

/-- SLD (R367, R368). -/
def execSld (p : Pfx) (d a : BitVec 8) (imm : Imm) (s : State) : Out :=
  issue (sigOf (.sld p d a imm)) 0 s fun i s =>
    let x := (s.my i).uniAddr a imm
    if x % 8 != 0 then .next (s.trap 0x24 0x00 x) else
    s.access i [(noLane, x)] false false fun s tr =>
      let tag := s.nextId
      let u := i.p.team
      let s := s.addPend i .load (.uniform d.toNat) [(noLane, x)] none
      let s := s.readSpans tag u i.p.unit (s.coreOf u) (s.ctxOf u) (i.p.unit != 17) (tr.map fun e => (e.2.1, 8, e.2.2))
      .next (((s.readsDone tag).advance i).pilotWait i tag)

/-- SST (R367, R368). -/
def execSst (p : Pfx) (d a : BitVec 8) (imm : Imm) (s : State) : Out :=
  issue (sigOf (.sst p d a imm)) 0 s fun i s =>
    let x := (s.my i).uniAddr a imm
    if x % 8 != 0 then .next (s.trap 0x24 0x00 x) else
    let bs := leBytes 8 ((s.my i).sget d.toNat).toNat
    s.access i [(noLane, x)] true false fun s tr =>
      let tag := s.nextId
      let u := i.p.team
      let core := s.coreOf u
      let ctx := s.ctxOf u
      let map := putBytes [] x bs
      let cached := i.p.unit != 17 && tr.all fun e => e.2.2.cached
      let s := s.addPend i .store .stores [] none
      let s := if cached then s.l1Store core ctx map else s.l1Drop core ctx x 8
      .next (((s.writeMap tag u i.p.unit core ctx map (tgtOf tr)).advance i).pilotWait i tag)

end Sys2Proof.Machine
end

