-- ==== Sys2Proof/Machine/Direct.lean ====
section
/-!
DEFINITION. Accesses that an engine or the matrix unit makes at the points of service (R71, R83, R153, R274, R281, R464):
whole operands are translated, read or written in one step of the unit; what a peer holds is read first, by requests of the
unit's own, and writes to a peer go on as requests.
-/

namespace Sys2Proof.Machine

/-- On whose behalf a unit accesses memory: the team (0 for an engine of a context) and its unit, the launch whose lease
covers it, context, core, a number that names the piece of work, and the class and batch that its writes to peers count in. -/
structure Who where
  team   : Nat
  unit   : Nat
  launch : Nat
  ctx    : Nat
  core   : Nat
  owner  : Nat
  entry  : Nat
  cls    : Cls
  batch  : Option (BitVec 32)
  org    : Origin
  deriving DecidableEq, Repr

/-- What comes of an access: it has to wait, meets MIGRATING at an address, meets a task-ending cause at an address, or is made. -/
inductive Seen (α : Type) where
  | wait (s : State)
  | mig (s : State) (addr : Nat)
  | stop (s : State) (st : BitVec 8) (addr : Nat)
  | ok (s : State) (a : α)

/-- Go on with an access that is made. -/
def Seen.bind {α β : Type} (x : Seen α) (f : State → α → Seen β) : Seen β :=
  match x with
  | .wait s => .wait s
  | .mig s a => .mig s a
  | .stop s st a => .stop s st a
  | .ok s a => f s a

/-- Spans cut at the borders of lines. -/
def piecesOf (spans : List (Nat × Nat)) : List (Nat × Nat) :=
  spans.flatMap fun e =>
    if e.2 = 0 then [] else
    (upto (e.1 / 128) ((e.1 + e.2 - 1) / 128 - e.1 / 128 + 1)).map fun l =>
      let lo := max e.1 (l * 128)
      (lo, min (e.1 + e.2) ((l + 1) * 128) - lo)

/-- Translate for a unit: the handler slot also reaches its launch's block (R301). -/
def State.trFor (s : State) (w : Who) (va : Nat) (wr : Bool) : Tr :=
  if w.unit == 16 then s.translateFor w.team 16 va wr
  else
    match s.launch? w.launch with
    | some l => s.translate l va wr
    | none => .miss

/-- Whether the point of service of an access that is a tuple of its own can serve it now (R155, R158, R160, R162). -/
def State.reachNow (s : State) (who : Asker) (ctx launch : Nat) (t : Tgt) (n : Nat) (wr : Bool) : State × Bool :=
  match t with
  | .home d uam _ => s.spanReady who ctx launch d n uam wr
  | _ => (s, true)

/-- An access that has been reached is served: what moves between an update-at-memory line and the part is charged (R94), and its
tuples leave the channels. -/
def State.servedNow (s : State) (who : Asker) (launch : Nat) (t : Tgt) (n : Nat) : State :=
  match t with
  | .home d true _ => (s.spanDone who d n).bwCharge launch n
  | _ => s

/-- Reach and serve one access that is a tuple of its own. -/
def State.serveNow (s : State) (who : Asker) (ctx launch : Nat) (t : Tgt) (n : Nat) (wr : Bool) : State × Bool :=
  let r := s.reachNow who ctx launch t n wr
  (if r.2 then r.1.servedNow who launch t n else r.1, r.2)

/-- Walks that translating the pieces of an access brings into the store (R72, R80). -/
def State.warmAll (s : State) (w : Who) (ps : List (Nat × Nat)) : State :=
  match s.launch? w.launch with
  | some l => ps.foldl (fun (s : State) e => s.warm l e.1) s
  | none => s

/-- The bytes that the pieces of an access that are near move between DRAM and the slices (R94). -/
def State.movesAll (s : State) (w : Who) (l : List (Nat × Nat × Tgt)) (wr : Bool) : Nat :=
  l.foldl (fun a e => match e.2.2 with
    | .home _ _ _ => a + s.moves w.ctx e.2.2 e.2.1 wr
    | _ => a) 0

/-- Serve the pieces of an access that are near now; the Bool says whether all of them were served. -/
def State.serveAll (s : State) (w : Who) (l : List (Nat × Nat × Tgt)) (wr : Bool) : State × Bool :=
  let b := s.bwPass w.launch w.owner (s.movesAll w l wr)
  if !b.2 then b
  else
    let r := l.foldl (fun (a : State × Bool) e =>
      let x := a.1.reachNow (.work w.owner) w.ctx w.launch e.2.2 e.2.1 wr
      (x.1, a.2 && x.2)) b
    (if r.2 then (l.foldl (fun s e => s.servedNow (.work w.owner) w.launch e.2.2 e.2.1) r.1).bwDone w.owner else r.1, r.2)

/-- Read the pieces of an access that have their home here, held partials merged first, into a byte map. -/
def State.nearBytes (s : State) (w : Who) (l : List (Nat × Nat × Tgt)) (m : ByteMap) : State × ByteMap :=
  l.foldl (fun (a : State × ByteMap) e =>
    match e.2.2 with
    | .home d uam _ =>
      let s := a.1.mergeHeld d e.2.1
      (s, putBytes a.2 e.1 (s.pointRead w.ctx d uam e.2.1))
    | _ => a) (s, m)

/-- Translate and reach the pieces of spans: a lease miss comes before a lost peer, then a draining page (R76, R83, R88). -/
def State.place (s : State) (w : Who) (spans : List (Nat × Nat)) (wr : Bool) : Seen (List (Nat × Nat × Tgt)) :=
  let ps := piecesOf spans
  let s := s.warmAll w ps
  let trs := ps.map fun e => (e.1, e.2, s.trFor w e.1 wr)
  let first := fun (f : Tr → Bool) => (trs.find? fun e => f e.2.2).map (·.1)
  match first fun t => t == .miss with
  | some a => .stop s 0x10 a
  | none =>
    match first fun t => t == .lost with
    | some a => .stop s 0x11 a
    | none =>
      match first fun t => t == .double with
      | some a => .stop s 0x13 a
      | none =>
        match first fun t => t == .drain true with
        | some a => .mig s a
        | none =>
        if (first fun t => t == .drain false).isSome then .wait s
        else
          let got := trs.filterMap fun e => match e.2.2 with
            | .ok t => some (e.1, e.2.1, t)
            | _ => none
          let r := s.serveAll w got wr
          if r.2 then .ok r.1 got else .wait r.1

/-- Ask peers for the bytes of pieces, for piece of work `owner`. -/
def State.askPeers (s : State) (w : Who) (l : List (Nat × Nat × Tgt)) : State :=
  let tag := s.nextId
  let p : Pend :=
    { tag := tag, itag := s.freeTag w.team w.unit, team := w.team, unit := w.unit, entry := w.entry, cls := .none,
      act := .hold w.owner none, lanes := [],
      got := [], batch := none, org := w.org, bad := [] }
  let s := { s with pends := s.pends ++ [p] }.bump
  s.readLines tag w.team w.unit w.core w.ctx l

/-- Read spans at their points of service (R464): the bytes by address. A poisoned word ends the task (R204). -/
def State.gather (s : State) (w : Who) (spans : List (Nat × Nat)) : Seen ByteMap :=
  (s.place w spans false).bind fun s l =>
    let far := l.filter fun e => match e.2.2 with
      | .peer _ _ => true
      | _ => false
    let mine := s.pends.find? fun p => match p.act with
      | .hold o _ => o == w.owner
      | _ => false
    let poisoned := l.find? fun e => match e.2.2 with
      | .home d uam _ => s.spanBad w.ctx d uam e.2.1
      | _ => false
    let finish := fun (s : State) (m : ByteMap) =>
      match poisoned with
      | some e => Seen.stop s 0x12 e.1
      | none => let r := s.nearBytes w l m; .ok r.1 r.2
    if far.isEmpty then finish s [] else
    match mine with
    | none => .wait (s.askPeers w far)
    | some p =>
      if s.reqs.any fun r => r.tag == p.tag then .wait s else
      let s := { s with pends := s.pends.filter fun q => q.tag != p.tag }
      match p.act with
      | .hold _ (some st) => .stop s st (far.headD (0, 0, .spad 0 0)).1
      | _ => finish s p.got

/-- Count the writes of a unit that are still on their way to peers. -/
def State.openWrites (s : State) (w : Who) : State :=
  let p : Pend :=
    { tag := s.nextId, itag := s.freeTag w.team w.unit, team := w.team, unit := w.unit, entry := w.entry, cls := w.cls, act := .stores, lanes := [],
      got := [], batch := w.batch, org := w.org, bad := [] }
  { s with pends := s.pends ++ [p] }.bump

/-- Write bytes at their points of service, every translation checked before the first byte; the words that a tile instruction
writes leave the core's L1 (R464). Writes to peers go on as requests. -/
def State.scatter (s : State) (w : Who) (m : ByteMap) : Seen Unit :=
  let spans := (runsOf (mapBytes m)).map fun e => (e.1, e.2.length)
  (s.place w spans true).bind fun s l =>
    let far := l.any fun e => match e.2.2 with
      | .peer _ _ => true
      | _ => false
    let tag := s.nextId
    let s := if far then s.openWrites w else s
    let s := l.foldl (fun s e =>
      let bs := getBytes m e.1 e.2.1
      let s := if w.cls == .tile then s.l1Drop w.core w.ctx e.1 e.2.1 else s
      match e.2.2 with
      | .home d uam _ => (s.mergeHeld d e.2.1).pointWrite w.ctx w.launch d uam (pairsFrom 0 bs)
      | .peer _ _ => s.addReq tag w.team w.unit w.core w.ctx e.1 e.2.1 e.2.2 (.write (pairsFrom 0 bs))
      | .spad _ _ => s) s
    .ok s ()

/-- Add FP32 values into X320 half-lines at their points of service, each half-line in one step (R461, R473): (address of the
half-line, values). A poisoned half-line ends the task (R204). -/
def State.addHalves (s : State) (w : Who) (l : List (Nat × List Lane)) : Seen Unit :=
  (s.place w (l.map fun e => (e.1, 64)) true).bind fun s ps =>
    let far := ps.any fun e => match e.2.2 with
      | .peer _ _ => true
      | _ => false
    match ps.find? fun e => (match e.2.2 with
      | .home d uam _ => s.spanBad w.ctx d uam 64
      | _ => false) with
    | some e => .stop s 0x12 e.1
    | none =>
      let tag := s.nextId
      let s := if far then s.openWrites w else s
      let s := (l.zip ps).foldl (fun s e =>
        let s := s.l1Drop w.core w.ctx e.1.1 64
        match e.2.2.2 with
        | .home d uam _ =>
          let s := s.mergeHeld d 64
          s.pointWrite w.ctx w.launch d uam (pairsFrom 0 (halfAdds (s.pointRead w.ctx d uam 64) e.1.2))
        | .peer _ _ => s.addReq tag w.team w.unit w.core w.ctx e.1.1 64 e.2.2.2 (.xadd e.1.2)
        | .spad _ _ => s) s
      .ok s ()

end Sys2Proof.Machine
end

