-- ==== Sys2Proof/Machine/Tensor.lean ====
section
/-!
DEFINITION. Tensor records (R276-R278), format blocks (R219-R222) and the block formats (R216-R218): reading them, checking
them, and the addresses of elements and scale records.
-/

namespace Sys2Proof.Machine

/-! ### Tensor records (R276) -/

/-- A tensor record's fields. -/
structure Tensor where
  base : Nat
  spad : Bool
  elem : Nat
  rank : Nat
  dims : List Nat
  strs : List Nat    -- STR1-STR3
  deriving DecidableEq, Repr

/-- The element sizes that a record may have: 1, 2, 4, 8 or a block size of R217. -/
def elemSizes : List Nat := [1, 2, 4, 8, 6, 12, 24, 48, 10, 20, 40, 80, 16, 32, 64, 128]

/-- The alignment that an element size asks for (R276). -/
def elemAlign (elem : Nat) : Nat := twoPart 3 elem

/-- Read a record of 64 bytes; none when it is malformed (R276, R278). -/
def tensorOf (bs : List Byte) : Option Tensor :=
  let b := field bs 0 8
  let elem := field bs 8 1
  let rank := field bs 9 1
  let dims := (upto 0 4).map fun i => field bs (0x10 + 4 * i) 4
  let strs := (upto 0 3).map fun i => field bs (0x20 + 8 * i) 8
  let a := elemAlign elem
  let space := bits b 56 2
  if bits b 58 6 == 0 && space ≤ 1 && (space == 0 || bits b 32 24 == 0) && elemSizes.contains elem &&
      1 ≤ rank && rank ≤ 4 && zeros (slice bs 0x0A 6) && dims.all (1 ≤ ·) && (dims.drop rank).all (· == 1) &&
      strs.all (fun x => x < 2 ^ 56 && x % a == 0) && (strs.drop (rank - 1)).all (· == 0) && zeros (slice bs 0x3C 4) &&
      bits b 0 56 % a == 0 then
    some { base := bits b 0 56, spad := space == 1, elem := elem, rank := rank, dims := dims, strs := strs }
  else none

/-- The record in a tensor register. -/
def tensorReg (x : BitVec 512) : Option Tensor := tensorOf (leBytes 64 x.toNat)

/-- A dimension, and a stride (of dimensions 1-3). -/
def Tensor.dim (t : Tensor) (i : Nat) : Nat := t.dims.getD i 1
def Tensor.str (t : Tensor) (i : Nat) : Nat := t.strs.getD (i - 1) 0

/-- How many elements a record has (R277). -/
def Tensor.count (t : Tensor) : Nat := t.dim 0 * t.dim 1 * t.dim 2 * t.dim 3

/-- The address of element (i0, i1, i2, i3) (R276). -/
def Tensor.at_ (t : Tensor) (i0 i1 i2 i3 : Nat) : Nat :=
  t.base + i0 * t.elem + i1 * t.str 1 + i2 * t.str 2 + i3 * t.str 3

/-- The address of element `n` in element order (R277). -/
def Tensor.nth (t : Tensor) (n : Nat) : Nat :=
  t.at_ (n % t.dim 0) (n / t.dim 0 % t.dim 1) (n / (t.dim 0 * t.dim 1) % t.dim 2) (n / (t.dim 0 * t.dim 1 * t.dim 2))

/-- The team and offset of a scratchpad span, if it keeps to R146. -/
def State.spadSpan? (s : State) (u a n : Nat) : Option (Nat × Nat) :=
  if 2 ^ 32 ≤ a then none else
  match s.spadAt u a 1 with
  | .bad _ => none
  | .at_ t off =>
    match s.team? t with
    | some x => if off + n ≤ x.spadBytes then some (t, off) else none
    | none => none

/-- Whether a condition holds of every number below `n`. -/
def allBelow (f : Nat → Bool) : Nat → Bool
  | 0 => true
  | n + 1 => f n && allBelow f n

/-- Whether every element of a scratchpad record keeps to R146. -/
def State.spadRecordOk (s : State) (u : Nat) (t : Tensor) : Bool :=
  !t.spad || allBelow (fun n => (s.spadSpan? u (t.nth n) t.elem).isSome) t.count

/-! ### Formats (R215-R221) -/

/-- Bits of a KB element (R216). -/
def kbBits (fmt : Nat) : Nat := if fmt = 3 then 8 else if fmt = 4 then 5 else 3

/-- Whether a format code is a KB one (R219). -/
def isKb (fmt : Nat) : Bool := 3 ≤ fmt && fmt ≤ 5

/-- The length of a KB block, and the size of its scale record (R218, R219). -/
def kbLen (blk : Nat) : Nat := 16 * 2 ^ blk
def scaleSize (blk : Nat) : Nat := kbLen blk / 8

/-- The element size that a format asks of a record (R454). -/
def fmtElem (fmt blk : Nat) : Nat := if isKb fmt then kbLen blk * kbBits fmt / 8 else if fmt = 2 then 1 else 2

/-- K_p of a pair of formats; 0 when they form no pair (R221). -/
def kpOf (a b : Nat) : Nat :=
  if a = 0 && b = 0 then 32
  else if a = 1 && b = 1 then 32
  else if a = 2 && b = 2 then 64
  else if isKb a && isKb b then
    (if a = 3 || b = 3 then 64 else if a = 5 && b = 5 then 256 else 128)
  else 0

/-- The fields of a format block (R219). -/
structure FmtBlock where
  afmt : Nat
  asgn : Bool
  ablk : Nat
  rm   : Nat
  isat : Bool
  bfmt : Nat
  bsgn : Bool
  bblk : Nat
  asstr : Nat
  bsstr : Nat
  ascale : Nat
  bscale : Nat
  deriving DecidableEq, Repr

/-- Read a format block. -/
def fmtBlock (f : BitVec 256) : FmtBlock :=
  let x := f.toNat
  { afmt := bits x 0 4, asgn := bit x 4, ablk := bits x 5 2, rm := bits x 8 2, isat := bit x 10, bfmt := bits x 16 4,
    bsgn := bit x 20, bblk := bits x 21 2, asstr := bits x 32 32, bsstr := bits x 64 32, ascale := bits x 128 56,
    bscale := bits x 192 56 }

/-- K_p of a format block. -/
def FmtBlock.kp (f : FmtBlock) : Nat := kpOf f.afmt f.bfmt

/-- Whether a format block breaks R219 or R221 (R220). -/
def fmtBroken (x : BitVec 256) : Bool :=
  let n := x.toNat
  let f := fmtBlock x
  let side := fun (fmt : Nat) (sgn : Bool) (blk str scale : Nat) =>
    5 < fmt || (fmt != 2 && sgn) || (!isKb fmt && (blk != 0 || str != 0 || scale != 0))
  bit n 7 || bits n 11 5 != 0 || bits n 23 9 != 0 || bits n 96 32 != 0 || bits n 184 8 != 0 || bits n 248 8 != 0 ||
    side f.afmt f.asgn f.ablk f.asstr f.ascale || side f.bfmt f.bsgn f.bblk f.bsstr f.bscale || f.kp == 0 ||
    (f.afmt == 2 && f.rm != 0) || (f.afmt != 2 && f.isat) ||
    (isKb f.afmt && isKb f.bfmt && f.kp < min (kbLen f.ablk) (kbLen f.bblk))

/-- Whether a scale address or stride of a format block is misaligned (R220). -/
def fmtMisaligned (x : BitVec 256) : Bool :=
  let f := fmtBlock x
  (isKb f.afmt && (f.ascale % scaleSize f.ablk != 0 || f.asstr % scaleSize f.ablk != 0)) ||
    (isKb f.bfmt && (f.bscale % scaleSize f.bblk != 0 || f.bsstr % scaleSize f.bblk != 0))

/-! ### Streams (R217, R314) -/

/-- Element `i` of a stream of `n`-bit elements. -/
def streamAt (bs : List Byte) (n i : Nat) : Nat := field bs (i * n / 8) 2 / 2 ^ (i * n % 8) % 2 ^ n

/-- The steps of a scale record, without its E (R218). -/
def scaleSteps (rec_ : List Byte) (blk : Nat) : Nat :=
  match blk with
  | 0 => field rec_ 1 1
  | 1 => field rec_ 2 2
  | 2 => field rec_ 4 4
  | _ => field rec_ 8 8

/-- A scale record from its E and steps, reserved bytes 0 (R218). -/
def scaleRec (blk e steps : Nat) : List Byte :=
  let k := scaleSize blk
  leBytes (k / 2) e ++ leBytes (k / 2) steps

end Sys2Proof.Machine
end

