-- ==== Sys2Proof/Machine/Async.lean ====
section
/-!
DEFINITION. Copies, batches, pushed commands and record loads (R269-R272, R438-R443): the instructions, up to the point where
an engine or a home takes over.
-/

namespace Sys2Proof.Machine

/-! ### Engine contexts (R269, R271) -/

/-- Update an engine context. -/
def State.updEngine (s : State) (eng : Nat) (f : Engine → Engine) : State :=
  if eng % 16 = 0 then s.updTeam (eng / 16) fun t => { t with copy := f t.copy }
  else if eng % 16 = 8 then s.updCtx (eng / 16) fun c => { c with sealEng := f c.sealEng }
  else s.updCtx (eng / 16) fun c => { c with coll := mapIf (fun (e : Engine) => e.id == eng % 16) f c.coll }

/-- How many accepted commands an engine context holds before they start (R269). -/
def queueDepth (code : Nat) : Nat := if code = 0 then 16 else if code = 8 then 4 else 32

/-- The check that `push` makes of a command's bytes for an engine (R272, R273, R279, R282, R289). -/
def cmdOk (code : Nat) (bs : List Byte) : Bool :=
  let opc := field bs 0 1
  let u := fun o => field bs o 8
  zeros (slice bs 1 7) && u 0x38 % 16 == 0 &&
    (if code = 0 then
       (opc == 1 && u 8 % 64 == 0 && u 0x10 % 64 == 0 && u 0x18 % 16 == 0 && zeros (slice bs 0x28 16)) ||
         (opc == 2 && u 8 % 64 == 0 && u 0x18 % 16 == 0 && zeros (slice bs 0x28 16))
     else if code = 8 then opc == 0x20 && u 8 % 64 == 0 && zeros (slice bs 0x10 40)
     else
       (opc == 0x10 && u 8 % 64 == 0 && u 0x10 < 8 && zeros (slice bs 0x18 32)) ||
         (opc == 0x11 && u 8 < 8 && u 0x10 % 64 == 0 && u 0x18 % 64 == 0 && zeros (slice bs 0x20 24)))

/-- The event that starts an engine's next command. -/
def startEvent (eng : Nat) (c : Cmd) : Ev :=
  match field c.bytes 0 1 with
  | 1 => .copy eng
  | 2 => .fill eng
  | 0x10 => .gload eng
  | 0x11 => .grun eng
  | _ => .seal eng

/-- An engine context accepts a command (R271); a seal is issued at once (R63), any other command starts when the ones before
it are over. -/
def State.accept (s : State) (eng : Nat) (e : Engine) (launch team : Nat) (bs : List Byte) : State :=
  let c : Cmd := { n := e.next, launch := launch, team := team, bytes := bs }
  let first := e.queue.isEmpty && e.running.isNone
  let s := s.updEngine eng fun e => { e with next := e.next + 1, queue := e.queue ++ [c] }
  if eng % 16 = 8 then s.post [.seal eng]
  else if first then s.pending [startEvent eng c] else s

/-- PUSH (R443). -/
def execPush (d a : BitVec 8) (x : BitVec 4) (s : State) : Out :=
  issue (sigOf (.push d a x)) 0 s fun i s =>
    let u := i.p.team
    let code := x.toNat
    if i.p.unit != 17 && !s.within u i.p.unit 15 0 15 15 0 then
      .next (s.setPark i.p (some (.counters 15 0 15 15 0 false)))
    else
      match s.team? u with
      | none => .fault .noIssuer
      | some t =>
        let bs := (upto a.toNat 16).flatMap fun r => leBytes 4 ((s.my i).sget r).toNat
        let eng := if code = 0 then 16 * u else 16 * s.ctxOf u + code
        match s.engineOf t code with
        | none => .next (s.trap 0x20 0x06)
        | some e =>
          if !cmdOk code bs then .next (s.trap 0x20 0x06)
          else if queueDepth code ≤ e.queue.length then .next ((s.upd i fun g => g.sput d.toNat 0).advance i)
          else
            let n := BitVec.ofNat 64 e.next
            .next (((s.accept eng e t.launch u bs).upd i fun g => g.sput d.toNat n).advance i)

/-! ### Copies and batches (R439, R440) -/

/-- The check of two records of a copy, or of a fill's record (R439). -/
def State.recordTrap (s : State) (i : Iss) (l : List (Option Tensor)) : Option State :=
  let ts := l.filterMap id
  if ts.length != l.length || ts.any (fun t => t.elem != (ts.headD t).elem || t.count != (ts.headD t).count) then
    some (s.trap 0x20 0x07)
  else if ts.any fun t => !s.spadRecordOk i.p.team t then some (s.trap 0x24 0x01)
  else none

/-- Start a group's copy in its core's copy engine (R281). -/
def State.groupCopy (s : State) (i : Iss) (src : Option (BitVec 512)) (pat : U64) (dst : BitVec 512) : State :=
  let id := s.nextId
  let c : GroupCopy :=
    { id := id, team := i.p.team, unit := i.p.unit, entry := i.p.entry, rgnc := (s.my i).rgnc, org := s.origin i, src := src, pat := pat, dst := dst,
      next := 0, moved := false, batch := some ((s.my i).batch + 1) }
  let put := fun (k : Core) => { k with copies := k.copies ++ [c], copyTurn := k.copyTurn ++ [16 * id + 1] }
  (s.bump.updCore (s.coreOf i.p.team) put).pending [.chunkEnd (16 * id + 1)]

/-- XCP (R439). -/
def execXcp (p : Pfx) (d a : BitVec 4) (s : State) : Out :=
  issue (sigOf (.xcp p d a)) p.mask s fun i s =>
    let src := sget (s.my i).d a.toNat
    let dst := sget (s.my i).d d.toNat
    if i.mask = 0 then .next (s.advance i) else
    match s.recordTrap i [tensorReg dst, tensorReg src] with
    | some s => .next s
    | none => .next ((s.groupCopy i (some src) 0 dst).advance i)

/-- XCP_FILL (R439). -/
def execXcpFill (p : Pfx) (d : BitVec 4) (a : BitVec 8) (s : State) : Out :=
  issue (sigOf (.xcpFill p d a)) p.mask s fun i s =>
    let dst := sget (s.my i).d d.toNat
    if i.mask = 0 then .next (s.advance i) else
    match s.recordTrap i [tensorReg dst] with
    | some s => .next s
    | none => .next ((s.groupCopy i none ((s.my i).sget a.toNat) dst).advance i)

/-- BAT (R177, R440). -/
def execBat (p : Pfx) (d : BitVec 8) (s : State) : Out :=
  issue (sigOf (.bat p d)) p.mask s fun i s =>
    if i.mask = 0 then .next (s.advance i) else
    .next ((s.upd i fun g => { g with batch := g.batch + 1 }.sput d.toNat ((g.batch + 1).setWidth 64)).advance i)

/-- WBAT (R177, R440). -/
def execWbat (a : BitVec 8) (s : State) : Out :=
  issue (sigOf (.wbat a)) 0 s fun i s =>
    let n : BitVec 32 := ((s.my i).sget a.toNat).setWidth 32
    if s.batchBusy i.p.team i.p.unit n then .next (s.setPark i.p (some (.batch n))) else .next (s.advance i)

/-! ### Record loads (R441, R442) -/

/-- A read of `n` bytes at the home for a d or an f register. -/
def recordLoad (sig : Sig) (p : Pfx) (a : BitVec 8) (k : BitVec 4) (n : Nat) (cls : Cls) (act : PendAct) (hold : Bool)
    (s : State) : Out :=
  issue sig p.mask s fun i s =>
    let g := s.my i
    let x := (g.sget a.toNat + BitVec.ofNat 64 (n * k.toNat)).toNat
    if i.mask = 0 then .next (s.advance i)
    else if x % n != 0 then .next (s.trap 0x24 0x00 x)
    else
      s.access i [(noLane, x)] false false fun s tr =>
        let tag := s.nextId
        let u := i.p.team
        let s := s.addPend i cls act [(noLane, x)] (if cls == .copy then some (g.batch + 1) else none)
        let s := s.readSpans tag u i.p.unit (s.coreOf u) (s.ctxOf u) false (tr.map fun e => (e.2.1, n, e.2.2))
        let s := s.advance i
        .next (if hold then s.setPark i.p (some (.read tag)) else s)

/-- DLD (R441). -/
def execDld (p : Pfx) (d : BitVec 4) (a : BitVec 8) (k : BitVec 4) (s : State) : Out :=
  recordLoad (sigOf (.dld p d a k)) p a k 64 .copy (.record d.toNat) false s

/-- FMT (R442): the fragment issues nothing until the block is written. -/
def execFmt (p : Pfx) (d : BitVec 3) (a : BitVec 8) (k : BitVec 4) (s : State) : Out :=
  recordLoad (sigOf (.fmt p d a k)) p a k 32 .none (.block d.toNat) true s

end Sys2Proof.Machine
end

