-- ==== Sys2Proof/Machine/Matrix.lean ====
section
/-!
DEFINITION. The matrix unit (R449-R465): operand windows, one array step, drains, planes and their swap, the instructions that
join a core's tile queue, and the event row TILE_OP_COMPLETION.
-/

namespace Sys2Proof.Machine

/-! ### Operand windows (R454) -/

/-- A window: the record, the format, the scale records' address and stride, the origin and K_p. -/
structure Window where
  t     : Tensor
  fmt   : Nat
  sgn   : Bool
  blk   : Nat
  scale : Nat
  sstr  : Nat
  r0    : Nat
  k0    : Nat
  kp    : Nat
  deriving DecidableEq, Repr

/-- The A window, and the B window, of a format block (R455, R456). -/
def FmtBlock.aWindow (f : FmtBlock) (t : Tensor) (origin : U64) : Window :=
  { t := t, fmt := f.afmt, sgn := f.asgn, blk := f.ablk, scale := f.ascale, sstr := f.asstr, r0 := origin.toNat / 2 ^ 32,
    k0 := origin.toNat % 2 ^ 32, kp := f.kp }
def FmtBlock.bWindow (f : FmtBlock) (t : Tensor) (origin : U64) : Window :=
  { t := t, fmt := f.bfmt, sgn := f.bsgn, blk := f.bblk, scale := f.bscale, sstr := f.bsstr, r0 := origin.toNat / 2 ^ 32,
    k0 := origin.toNat % 2 ^ 32, kp := f.kp }

/-- K positions in one element of the window's record. -/
def Window.per (w : Window) : Nat := if isKb w.fmt then kbLen w.blk else 1

/-- The record elements of dimension 0 that the window covers: the first, and how many lie in the record. -/
def Window.cols (w : Window) : Nat × Nat :=
  let j0 := w.k0 / w.per
  (j0, min (ceilDiv (w.k0 + w.kp) w.per) (w.t.dim 0) - j0)

/-- Whether line `i` of the window lies in the record. -/
def Window.has (w : Window) (i : Nat) : Bool := w.r0 + i < w.t.dim 1

/-- The elements that the window reads, as spans. -/
def Window.elems (w : Window) : List (Nat × Nat) :=
  (upto 0 32).flatMap fun i =>
    if w.has i then (upto w.cols.1 w.cols.2).map fun j => (w.t.at_ j (w.r0 + i) 0 0, w.t.elem) else []

/-- The scale records of line `i`: address and bytes (R218). -/
def Window.scales (w : Window) (i : Nat) : Nat × Nat :=
  if isKb w.fmt && w.has i then
    (w.scale + (w.r0 + i) * w.sstr + w.cols.1 * scaleSize w.blk, w.cols.2 * scaleSize w.blk)
  else (0, 0)

/-- The memory spans that the window reads: its elements, unless they lie in scratchpads, and its scale records. -/
def Window.spans (w : Window) : List (Nat × Nat) :=
  (if w.t.spad then [] else (upto 0 32).filterMap fun i =>
    if w.has i then some (w.t.at_ w.cols.1 (w.r0 + i) 0 0, w.cols.2 * w.t.elem) else none) ++
  (upto 0 32).map w.scales

/-- Whether the scratchpad elements that the window reads keep to R146. -/
def State.windowOk (s : State) (u : Nat) (w : Window) : Bool :=
  !w.t.spad || w.elems.all fun e => (s.spadSpan? u e.1 e.2).isSome

/-- The first element of a window that breaks R146. -/
def State.windowBad (s : State) (u : Nat) (w : Window) : Nat :=
  ((w.elems.find? fun e => (s.spadSpan? u e.1 e.2).isNone).getD (0, 0)).1

/-- `n` bytes of a list, zeros after its end. -/
def padTo (bs : List Byte) (n : Nat) : List Byte := bs.take n ++ List.replicate (n - bs.length) 0

/-- The element stream of line `i` from the window's first K position, 128 bytes (R217, R314). -/
def Window.stream (w : Window) (s : State) (u : Nat) (m : ByteMap) (i : Nat) : List Byte :=
  let row := if !w.has i then [] else
    if w.t.spad then
      (upto w.cols.1 w.cols.2).flatMap fun j =>
        (match s.spadSpan? u (w.t.at_ j (w.r0 + i) 0 0) w.t.elem with
         | some (x, off) => s.spadRead x off w.t.elem
         | none => List.replicate w.t.elem 0)
    else getBytes m (w.t.at_ w.cols.1 (w.r0 + i) 0 0) (w.cols.2 * w.t.elem)
  if isKb w.fmt then
    padTo ((row.drop (w.k0 % w.per * kbBits w.fmt / 8)).take (w.kp * kbBits w.fmt / 8)) 128
  else padTo (row.take (w.kp * w.t.elem)) 128

/-- The scale records of line `i` as a plane holds them, 128 bytes (R314). -/
def Window.scaleLine (w : Window) (m : ByteMap) (i : Nat) : List Byte :=
  if !isKb w.fmt then List.replicate 128 0
  else
    let size := scaleSize w.blk
    let (a, n) := w.scales i
    let recs := (upto 0 (n / size)).map fun j => getBytes m (a + j * size) size
    let put := fun (r : List Byte) (skip count : Nat) =>
      scaleRec w.blk (field r 0 1) (scaleSteps r w.blk / 2 ^ (2 * skip) % 2 ^ (2 * count))
    let bs := if w.kp < kbLen w.blk then put (recs.headD []) (w.k0 % kbLen w.blk / 4) (w.kp / 4)
      else recs.flatMap fun r => put r 0 (kbLen w.blk / 4)
    padTo bs 128

/-- The window as the layout of a plane: 32 streams, then 32 lines of scale records (R314). -/
def Window.image (w : Window) (s : State) (u : Nat) (m : ByteMap) : List Byte :=
  (upto 0 32).flatMap (w.stream s u m) ++ (upto 0 32).flatMap (w.scaleLine m)

/-! ### The array (R215, R216, R221-R225) -/

/-- The value of an INT8 or UINT8 element. -/
def intElem (line : List Byte) (sgn : Bool) (k : Nat) : Int :=
  if sgn then signNat (field line k 1) 8 else (field line k 1 : Int)

/-- The value of a BF16 or FP16 element. -/
def floatElem (line : List Byte) (fmt k : Nat) : FVal := (if fmt = 0 then bf16 else fp16).dec (field line (2 * k) 2)

/-- The value of a KB element, without its step: sign and magnitude (R216). -/
def kbElem (line : List Byte) (fmt k : Nat) : Int :=
  let n := kbBits fmt
  let x := streamAt line n k
  signed (2 ^ (n - 1) ≤ x) (x % 2 ^ (n - 1))

/-- Where the scale record of K position `k` begins in a line of scale records, and the quad's number in it. -/
def scalePos (blk kp k : Nat) : Nat × Nat :=
  if kp < kbLen blk then (0, k / 4) else (k / kbLen blk * scaleSize blk, k % kbLen blk / 4)

/-- E of the block at K position `k` (R216). -/
def kbExp (scales : List Byte) (blk kp k : Nat) : Nat := field scales (scalePos blk kp k).1 1

/-- The step of the quad at K position `k`. -/
def kbStep (scales : List Byte) (blk kp k : Nat) : Nat :=
  let p := scalePos blk kp k
  scaleSteps (slice scales p.1 (scaleSize blk)) blk / 2 ^ (2 * p.2) % 4

/-- One sub-block of a KB step (R223): its value under rounding, as an FP32 encoding. A sum that is exactly 0 gives +0 under every
rounding mode (DESIGN CHOICE, log 130: R223 rounds a number, and R213 gives the sign of a sum of two operands). -/
def kbSub (f : FmtBlock) (a as_ b bs : List Byte) (j l : Nat) : Nat :=
  let kp := f.kp
  let ea := kbExp as_ f.ablk kp (j * l)
  let eb := kbExp bs f.bblk kp (j * l)
  if ea = 0xFF || eb = 0xFF then fp32.nan
  else
    let t := (upto (j * l) l).foldl (fun (t : Int) k =>
      t + kbElem a f.afmt k * kbElem b f.bfmt k * 2 ^ (6 - kbStep as_ f.ablk kp k - kbStep bs f.bblk kp k)) 0
    fp32.enc f.rm (.fin (t < 0) t.natAbs ((ea : Int) + eb - 254 - 6))

/-- One accumulator element of a step (R223): row `a` of A and column `b` of B with their scale lines. -/
def stepElem (f : FmtBlock) (a as_ b bs : List Byte) (c : Lane) : Lane :=
  if f.afmt = 2 then
    let t := (upto 0 f.kp).foldl (fun (t : Int) k => t + intElem a f.asgn k * intElem b f.bsgn k) 0
    if f.isat then BitVec.ofInt 32 (satS (c.toInt + t) 32) else c + BitVec.ofInt 32 t
  else if f.afmt < 2 then
    BitVec.ofNat 32 ((upto 0 f.kp).foldl (fun c k =>
      fp32.enc f.rm ((fp32.dec c).add f.rm ((floatElem a f.afmt k).mul (floatElem b f.bfmt k)))) c.toNat)
  else
    let l := min (kbLen f.ablk) (kbLen f.bblk)
    BitVec.ofNat 32 ((upto 0 (f.kp / l)).foldl (fun c j => fp32.fadd f.rm c (kbSub f a as_ b bs j l)) c.toNat)

/-- Line `i` of a plane's layout, and its scale records. -/
def planeLine (p : List Byte) (i : Nat) : List Byte := slice p (128 * i) 128
def planeScale (p : List Byte) (i : Nat) : List Byte := slice p (4096 + 128 * i) 128

/-- The key of a tile element (R314). -/
def tileKey (t m n : Nat) : Nat := 1024 * t + 32 * m + n

/-- Replace a tile by what `f` gives for each element. -/
def Team.setTile (x : Team) (t : Nat) (f : Nat → Nat → Lane → Lane) : Team :=
  { x with tiles := ssets x.tiles ((upto 0 32).flatMap fun m => (upto 0 32).map fun n =>
      (tileKey t m n, f m n (sget x.tiles (tileKey t m n)))) }

/-- One `mmul` step (R223). -/
def Team.mmul (x : Team) (t : Nat) (z : Bool) (f : FmtBlock) (a b : List Byte) : Team :=
  x.setTile t fun m n c =>
    stepElem f (planeLine a m) (planeScale a m) (planeLine b n) (planeScale b n) (if z then 0 else c)

/-- `mrsum` (R458). -/
def Team.mrsum (x : Team) (t : Nat) (f : FmtBlock) (a : List Byte) (c : Lane) : Team :=
  x.setTile t fun m _ acc =>
    let r := (upto 0 64).foldl (fun (r : Int) k => r + intElem (planeLine a m) f.asgn k) 0
    if f.isat then BitVec.ofInt 32 (satS (acc.toInt + c.toInt * r) 32) else acc + BitVec.ofInt 32 (c.toInt * r)

/-! ### Planes (R452, R453) -/

/-- A pending swap takes effect. -/
def Core.applySwap (c : Core) : Core :=
  if c.swap then { c with front := c.shadow, shadow := c.front, swap := false } else c

/-- The bytes of a plane. -/
def Plane.bytes (p : Plane) : List Byte := sgets p.data 0 8192

/-- Whether an operation may change planes or their swap. -/
def TileKind.touchesPlane : TileKind → Bool
  | .mld _ _ _ _ => true
  | .mswp => true
  | .mrest obj _ _ => obj != 0
  | _ => false

/-- Whether an operation accumulates into its own destination (R297, R464). -/
def TileKind.accumulates : TileKind → Bool
  | .mmul _ z _ _ _ => !z
  | .mrsum _ _ _ _ _ => true
  | .mdrain _ clr code _ _ _ => clr || code == 5
  | _ => false

/-- The header that `msave` writes after a plane (R462). -/
def Plane.header (p : Plane) : List Byte :=
  padTo [BitVec.ofNat 8 p.bfmt.toNat, BitVec.ofNat 8 (b2n p.bsgn), BitVec.ofNat 8 p.bblk.toNat, 1,
    BitVec.ofNat 8 p.kp.toNat] 64

/-- The plane that `mrest` reads for a team: no owner where the header is not that of a valid plane (R462). -/
def planeFrom (old : Plane) (bs : List Byte) (u : Nat) : Plane :=
  let h := bs.drop 8192
  let b := fun i => field h i 1
  if b 0 ≤ 5 && b 1 ≤ 1 && b 2 ≤ 3 && b 3 == 1 && b 4 ≤ 3 && zeros (h.drop 5) then
    { data := ssets [] (pairsFrom 0 (bs.take 8192)), owner := some u, bfmt := BitVec.ofNat 4 (b 0), bsgn := b 1 == 1,
      bblk := BitVec.ofNat 2 (b 2), kp := BitVec.ofNat 2 (b 4) }
  else { old with owner := none }

/-- The plane that `mld` leaves (R455). -/
def FmtBlock.plane (f : FmtBlock) (img : List Byte) (u : Nat) : Plane :=
  { data := ssets [] (pairsFrom 0 img), owner := some u, bfmt := BitVec.ofNat 4 f.bfmt, bsgn := f.bsgn,
    bblk := BitVec.ofNat 2 f.bblk, kp := BitVec.ofNat 2 (Nat.log2 f.kp - 5) }

/-! ### Drains (R459-R461) -/

/-- The width that an output code writes. -/
def drainWidth (code : Nat) : Nat :=
  match code with
  | 0 => 4
  | 1 => 2
  | 2 => 2
  | 3 => 1
  | 4 => 1
  | _ => 64

/-- Requantise element `n` of a row (R460). -/
def requant (tbl : List Byte) (n : Nat) (sgn : Bool) (acc : Lane) : Nat :=
  let mul := signNat (field tbl (8 * n) 4) 32
  let sh := field tbl (8 * n + 4) 1
  let t := acc.toInt * mul
  let t := if 0 < sh then (t + 2 ^ (sh - 1)) / 2 ^ sh else t
  let y := t + signNat (field tbl (8 * n + 6) 2) 16
  wrap (if sgn then satS y 8 else satU y 8) 8

/-- Whether a requantisation table is one (R460). -/
def tableOk (tbl : List Byte) : Bool := (upto 0 32).all fun n => field tbl (8 * n + 4) 1 ≤ 62 && field tbl (8 * n + 5) 1 == 0

/-- The bytes that a drain writes for one element. -/
def drainBytes (code : Nat) (tbl : List Byte) (n : Nat) (x : Lane) : List Byte :=
  match code with
  | 0 => leBytes 4 x.toNat
  | 1 => leBytes 2 (fp32.conv bf16 0 x.toNat)
  | 2 => leBytes 2 (fp32.conv fp16 0 x.toNat)
  | 3 => leBytes 1 (requant tbl n true x)
  | _ => leBytes 1 (requant tbl n false x)

/-- The elements that a drain writes, in element order: row, column, address (R459). -/
def drainElems (t : Tensor) (origin : U64) : List (Nat × Nat × Nat) :=
  let r0 := origin.toNat / 2 ^ 32
  let c0 := origin.toNat % 2 ^ 32
  (upto 0 32).flatMap fun m => (upto 0 32).filterMap fun n =>
    if c0 + n < t.dim 0 && r0 + m < t.dim 1 then some (m, n, t.at_ (c0 + n) (r0 + m) 0 0) else none

/-! ### Operations in the unit (R451) -/

/-- On whose behalf a tile operation accesses memory. -/
def State.tileWho (s : State) (o : TileOp) (core : Nat) : Who :=
  { team := o.team, unit := o.unit, launch := (match s.team? o.team with
      | some t => t.launch
      | none => 0), ctx := s.ctxOf o.team, core := core, owner := o.id, entry := o.entry, cls := .tile, batch := o.batch,
    org := o.org }

/-- Write the bytes of scratchpad elements. -/
def State.spadScatter (s : State) (u : Nat) (l : List (Nat × List Byte)) : State :=
  l.foldl (fun s e => match s.spadSpan? u e.1 e.2.length with
    | some (t, off) => s.spadWrite t (pairsFrom off e.2)
    | none => s) s

/-- A drain (R459-R461). -/
def State.runDrain (s : State) (w : Who) (t code : Nat) (clr : Bool) (tr : Tensor) (origin : U64) (tbl : List Byte) :
    Seen Unit :=
  let tile := fun m n => match s.team? w.team with
    | some x => sget x.tiles (tileKey t m n)
    | none => 0
  let es := drainElems tr origin
  let fin := fun (s : State) => if clr then s.updTeam w.team (·.setTile t fun _ _ _ => 0) else s
  if code = 5 then
    if tr.spad then
      let s := es.foldl (fun (s : State) e => match s.spadSpan? w.team e.2.2 64 with
        | some (x, off) => s.spadWrite x (pairsFrom off (halfAdds (s.spadRead x off 64) [tile e.1 e.2.1]))
        | none => s) s
      .ok (fin s) ()
    else (s.addHalves w (es.map fun e => (e.2.2, [tile e.1 e.2.1]))).bind fun s _ => .ok (fin s) ()
  else
    let l := es.map fun e => (e.2.2, drainBytes code tbl e.2.1 (tile e.1 e.2.1))
    if tr.spad then .ok (fin (s.spadScatter w.team l)) ()
    else (s.scatter w (l.foldl (fun (m : ByteMap) e => putBytes m e.1 e.2) [])).bind fun s _ => .ok (fin s) ()

/-- Read a window. -/
def State.readWindow (s : State) (w : Who) (x : Window) : Seen (List Byte) :=
  (s.gather w x.spans).bind fun s m => .ok s (x.image s w.team m)

/-- Save a tile or a plane (R462). -/
def State.runSave (s : State) (w : Who) (obj t : Nat) (va : U64) : Seen Unit :=
  let c := if s.frozen w.core || obj = 0 then s.core w.core else (s.core w.core).applySwap
  let bs := if obj = 0 then
      (match s.team? w.team with
       | some x => (sgets x.tiles (tileKey t 0 0) 1024).flatMap fun l => leBytes 4 l.toNat
       | none => [])
    else let p := if obj = 1 then c.front else c.shadow; p.bytes ++ p.header
  (s.scatter w (putBytes [] va.toNat bs)).bind fun s _ =>
    .ok (s.updCore w.core fun k => { k with front := c.front, shadow := c.shadow, swap := c.swap }) ()

/-- Restore a tile or a plane (R462). -/
def State.runRest (s : State) (w : Who) (obj t : Nat) (va : U64) : Seen Unit :=
  let n := if obj = 0 then 4096 else 8256
  (s.gather w [(va.toNat, n)]).bind fun s m =>
    let bs := getBytes m va.toNat n
    if obj = 0 then
      .ok (s.updTeam w.team (·.setTile t fun m n _ => BitVec.ofNat 32 (field bs (4 * (32 * m + n)) 4))) ()
    else
      let c := if s.frozen w.core then s.core w.core else (s.core w.core).applySwap
      let c := if obj = 1 then { c with front := planeFrom c.front bs w.team }
        else { c with shadow := planeFrom c.shadow bs w.team }
      .ok (s.updCore w.core fun _ => c) ()

/-- Run one tile operation (R455-R462). -/
def State.runTile (s : State) (o : TileOp) (core : Nat) : Seen Unit :=
  let w := s.tileWho o core
  match o.kind with
  | .mld front tr origin f =>
    (match tensorReg tr with
     | none => .ok s ()
     | some t =>
       let fb := fmtBlock f
       (s.readWindow w (fb.bWindow t origin)).bind fun s img =>
         .ok (s.updCore core fun c =>
           let c := c.applySwap
           let p := fb.plane img o.team
           if front then { c with front := p } else { c with shadow := p }) ())
  | .mswp => .ok (s.updCore core fun c => { c with swap := !c.swap }) ()
  | .mmul t z tr origin f =>
    (match tensorReg tr with
     | none => .ok s ()
     | some x =>
       let fb := fmtBlock f
       (s.readWindow w (fb.aWindow x origin)).bind fun s img =>
         let s := s.updCore core (·.applySwap)
         let b := (s.core core).front.bytes
         .ok (s.updTeam o.team (·.mmul t z fb img b)) ())
  | .mzero t => .ok (s.updTeam o.team (·.setTile t fun _ _ _ => 0)) ()
  | .mdrain t clr code tr origin tbl =>
    (match tensorReg tr with
     | none => .ok s ()
     | some x => s.runDrain w t code clr x origin tbl)
  | .mrsum t tr origin f c =>
    (match tensorReg tr with
     | none => .ok s ()
     | some x =>
       let fb := fmtBlock f
       (s.readWindow w (fb.aWindow x origin)).bind fun s img => .ok (s.updTeam o.team (·.mrsum t fb img c)) ())
  | .msave obj t va => s.runSave w obj t va
  | .mrest obj t va => s.runRest w obj t va

/-- The operation that a core's unit serves next: its oldest, or while the unit is frozen the handler's oldest (R302). -/
def State.nextTile (s : State) (core : Nat) : Option TileOp :=
  if s.frozen core then (s.core core).tileQ.find? fun o => o.unit == 16 else (s.core core).tileQ.head?

/-- Take an operation out of the unit. -/
def State.dropTile (s : State) (core id : Nat) : State :=
  s.updCore core fun c => { c with tileQ := c.tileQ.filter fun o => o.id != id }

/-- Take an operation out of the unit, with those that its group or handler has issued after it: a replay issues all of them
again (R295, R297). -/
def State.dropTiles (s : State) (core : Nat) (o : TileOp) : State :=
  s.updCore core fun c => { c with tileQ := c.tileQ.filter fun x => !(x.team == o.team && x.unit == o.unit && o.id ≤ x.id) }

/-- TILE_OP_COMPLETION (R451): the unit completes its next operation; one that has to wait is tried again. One that meets
MIGRATING changes nothing: its group parks for a replay that issues it again, or, where it accumulates or no replay could issue it
again, it waits (R83, R297, R464). -/
def execTileOpCompletion (core : Nat) (s : State) : Out :=
  match s.nextTile core with
  | none => .next (if (s.core core).tileQ.isEmpty then s else s.pending [.tileOpCompletion core])
  | some o =>
    match s.runTile o core with
    | .wait s => .next (s.pending [.tileOpCompletion core])
    | .mig s a =>
      match (s.grp o.team o.unit).sendsBack o.entry o.rgnc o.id with
      | some e =>
        if o.kind.accumulates then .next (s.pending [.tileOpCompletion core])
        else .next ((s.dropTiles core o).setPark { team := o.team, unit := o.unit, entry := e } (some (.migrating a)))
      | none => .next (s.pending [.tileOpCompletion core])
    | .stop s st a => .next ((s.dropTile core o.id).endAccess o.team o.unit o.org st a 0)
    | .ok s _ => .next (s.dropTile core o.id)

/-! ### Instructions (R449-R463) -/

/-- A matrix instruction (R450): its mask must be the set of the group's lanes. -/
def matrixOp (sig : Sig) (p : Pfx) (s : State) (body : Iss → State → Out) : Out :=
  issue sig p.mask s fun i s => if i.mask != (s.my i).lanes then .next (s.trap 0x21 0x00) else body i s

/-- A tile operation of the issuing group. -/
def State.tileOp (s : State) (i : Iss) (kind : TileKind) : TileOp :=
  { id := s.nextId, team := i.p.team, unit := i.p.unit, entry := i.p.entry, rgnc := (s.my i).rgnc, org := s.origin i, kind := kind,
    batch := if kind.counts then some ((s.my i).batch + 1) else none }

/-- Put an operation into its core's queue. -/
def State.tileEnq (s : State) (o : TileOp) : State :=
  let core := s.coreOf o.team
  (s.updCore core fun c => { c with tileQ := c.tileQ ++ [o] }).pending [.tileOpCompletion core]

/-- Issue an operation: an accumulating one ends a region (R294). -/
def State.tileIssue (s : State) (i : Iss) (kind : TileKind) : State :=
  let s := s.bump.tileEnq (s.tileOp i kind)
  if kind.accumulates then s.advanceRegion i else s.advance i

/-- Whether an accumulating operation still waits for the group's loads (R297). -/
def State.loadsOut (s : State) (i : Iss) : Bool := s.count i.p.team i.p.unit .load != 0

/-- Whether the planes may still change before an instruction that looks at them now would be reached. -/
def State.planesBusy (s : State) (i : Iss) : Bool :=
  (s.core (s.coreOf i.p.team)).tileQ.any fun o => o.kind.touchesPlane && (i.p.unit != 16 || o.unit == 16)

/-- The planes as the next operation on a plane finds them; a frozen unit applies no swap (R453). -/
def State.planesNow (s : State) (i : Iss) : Core :=
  let c := s.core (s.coreOf i.p.team)
  if i.p.unit = 16 then c else c.applySwap

/-- The checks of a window at issue: record and ELEM, scratchpad bounds, KB origin (R454, R465). -/
def State.windowTrap (s : State) (i : Iss) (t : Option Tensor) (w : Tensor → Window) : Option State :=
  match t with
  | none => some (s.trap 0x20 0x07)
  | some t =>
    let x := w t
    if t.elem != fmtElem x.fmt x.blk then some (s.trap 0x20 0x07)
    else if !s.windowOk i.p.team x then some (s.trap 0x24 0x01 (s.windowBad i.p.team x))
    else if isKb x.fmt && x.k0 % min (kbLen x.blk) x.kp != 0 then some (s.trap 0x24 0x00 x.k0)
    else none

/-- MLD (R455). -/
def execMld (p : Pfx) (front : Bool) (r : BitVec 4) (f : BitVec 3) (o : BitVec 5) (s : State) : Out :=
  matrixOp (sigOf (.mld p front r f o)) p s fun i s =>
    let g := s.my i
    let fx := sget g.f f.toNat
    let tr := sget g.d r.toNat
    let org := g.sget o.toNat
    match s.windowTrap i (tensorReg tr) fun t => (fmtBlock fx).bWindow t org with
    | some s => .next s
    | none => .next (s.tileIssue i (.mld front tr org fx))

/-- MSWP (R453). -/
def execMswp (p : Pfx) (s : State) : Out :=
  matrixOp (sigOf (.mswp p)) p s fun i s =>
    if s.planesBusy i then .next s else
    let c := s.planesNow i
    if c.front.owner != some i.p.team || c.shadow.owner != some i.p.team then .next (s.trap 0x20 0x04)
    else .next (s.tileIssue i .mswp)

/-- MMUL (R456). -/
def execMmul (p : Pfx) (t : BitVec 6) (z : Bool) (r : BitVec 4) (f : BitVec 3) (o : BitVec 5) (s : State) : Out :=
  matrixOp (sigOf (.mmul p t z r f o)) p s fun i s =>
    if s.planesBusy i || (!z && s.loadsOut i) then .next s else
    let g := s.my i
    let fx := sget g.f f.toNat
    let fb := fmtBlock fx
    let tr := sget g.d r.toNat
    let org := g.sget o.toNat
    let q := (s.planesNow i).front
    if q.owner != some i.p.team || q.bfmt.toNat != fb.bfmt || q.bsgn != fb.bsgn || q.bblk.toNat != fb.bblk ||
        q.kp.toNat + 5 != Nat.log2 fb.kp then .next (s.trap 0x20 0x04)
    else
      match s.windowTrap i (tensorReg tr) fun t => fb.aWindow t org with
      | some s => .next s
      | none => .next (s.tileIssue i (.mmul t.toNat z tr org fx))

/-- MZERO (R457). -/
def execMzero (p : Pfx) (t : BitVec 6) (s : State) : Out :=
  matrixOp (sigOf (.mzero p t)) p s fun i s => .next (s.tileIssue i (.mzero t.toNat))

/-- MDRAIN (R459-R461): a requantising drain first reads its table, and the group waits for it; it ends a region only once its table
has passed its check (R293, R450). -/
def execMdrain (p : Pfx) (t : BitVec 6) (clr : Bool) (code : BitVec 3) (r : BitVec 4) (o : BitVec 5) (s : State) : Out :=
  matrixOp (sigOf (.mdrain p t clr code r o)) p s fun i s =>
    let g := s.my i
    let c := code.toNat
    let tr := sget g.d r.toNat
    let org := g.sget o.toNat
    let kind := TileKind.mdrain t.toNat clr c tr org []
    if kind.accumulates && s.loadsOut i then .next s else
    match tensorReg tr with
    | none => .next (s.trap 0x20 0x07)
    | some x =>
      if x.elem != drainWidth c then .next (s.trap 0x20 0x07)
      else if c = 5 && (x.base % 64 != 0 || x.strs.any fun k => k % 64 != 0) then .next (s.trap 0x24 0x00 x.base)
      else
        match (drainElems x org).find? fun e => x.spad && (s.spadSpan? i.p.team e.2.2 x.elem).isNone with
        | some e => .next (s.trap 0x24 0x01 e.2.2)
        | none =>
          if c != 3 && c != 4 then .next (s.tileIssue i kind)
          else
            let ta := (g.sget (o.toNat + 1)).toNat
            if ta % 8 != 0 then .next (s.trap 0x24 0x00 ta) else
            let ps := piecesOf [(ta, 256)]
            s.access i (ps.map fun e => (noLane, e.1)) false kind.accumulates fun s l =>
              let op := s.tileOp i kind
              let s := s.bump
              let tag := s.nextId
              let u := i.p.team
              let s := s.addPend i .none (.table op) [(noLane, ta)] none
              let s := s.readSpans tag u i.p.unit (s.coreOf u) (s.ctxOf u) false
                ((ps.zip l).map fun e => (e.1.1, e.1.2, e.2.2.2))
              .next ((s.advance i).setPark i.p (some (.read tag)))

/-- MRSUM (R458). -/
def execMrsum (p : Pfx) (t : BitVec 6) (r : BitVec 4) (f : BitVec 3) (o : BitVec 5) (s : State) : Out :=
  matrixOp (sigOf (.mrsum p t r f o)) p s fun i s =>
    if s.loadsOut i then .next s else
    let g := s.my i
    let fx := sget g.f f.toNat
    let fb := fmtBlock fx
    let tr := sget g.d r.toNat
    let org := g.sget o.toNat
    if fb.afmt != 2 then .next (s.trap 0x20 0x04)
    else
      match s.windowTrap i (tensorReg tr) fun t => fb.aWindow t org with
      | some s => .next s
      | none => .next (s.tileIssue i (.mrsum t.toNat tr org fx ((g.sget (o.toNat + 1)).setWidth 32)))

/-- MSAVE (R462). -/
def execMsave (p : Pfx) (obj : BitVec 2) (t : BitVec 6) (a : BitVec 8) (s : State) : Out :=
  matrixOp (sigOf (.msave p obj t a)) p s fun i s =>
    if obj != 0 && s.planesBusy i then .next s else
    let va := (s.my i).sget a.toNat
    let c := s.planesNow i
    let owner := if obj = 1 then c.front.owner else c.shadow.owner
    if obj != 0 && owner != some i.p.team then .next (s.trap 0x20 0x04)
    else if va.toNat % 64 != 0 then .next (s.trap 0x24 0x00 va.toNat)
    else .next (s.tileIssue i (.msave obj.toNat t.toNat va))

/-- MREST (R462). -/
def execMrest (p : Pfx) (obj : BitVec 2) (t : BitVec 6) (a : BitVec 8) (s : State) : Out :=
  matrixOp (sigOf (.mrest p obj t a)) p s fun i s =>
    let va := (s.my i).sget a.toNat
    if va.toNat % 64 != 0 then .next (s.trap 0x24 0x00 va.toNat)
    else .next (s.tileIssue i (.mrest obj.toNat t.toNat va))

/-- MSTAT (R463): in the handler slot, TQ is the trapped group's count. -/
def execMstat (p : Pfx) (d : BitVec 8) (s : State) : Out :=
  matrixOp (sigOf (.mstat p d)) p s fun i s =>
    let u := i.p.team
    let unit := if i.p.unit = 16 then (match s.inTrap u with
      | some x => x.unit
      | none => 16) else i.p.unit
    let v := s.mstat (s.coreOf u) u (s.count u unit .tile)
    .next ((s.upd i fun g => g.sput d.toNat (BitVec.ofNat 64 v)).advance i)

end Sys2Proof.Machine
end

