-- ==== Sys2Proof/Machine/Engines.lean ====
section
/-!
DEFINITION. The engines at work (R271-R290, R509): how commands start, complete and are discarded; copies in chunks;
collective graphs; seals. Every event that finds it has to wait stands ready again.
-/

namespace Sys2Proof.Machine

/-! ### Commands (R271-R275) -/

/-- The number that names what an engine is doing: the engine context and part `k` of its command. -/
def ownerOf (eng k : Nat) : Nat := 2 ^ 48 + eng + 2 ^ 56 * k

/-- On whose behalf an engine accesses memory (R274). -/
def State.engWho (s : State) (eng : Nat) (c : Cmd) (k : Nat) : Who :=
  { team := if eng % 16 = 0 then eng / 16 else 0, unit := 18, launch := c.launch,
    ctx := match s.launch? c.launch with
      | some l => l.ctx
      | none => 0,
    core := if eng % 16 = 0 then s.coreOf (eng / 16) else Config.cores, owner := ownerOf eng k, entry := ownerOf eng k,
    cls := .none, batch := none, org := Origin.none }

/-- Whether writes of a piece of work are still on their way (R165). -/
def State.ownBusy (s : State) (owner : Nat) : Bool :=
  s.pends.any fun p => p.act == .stores && p.cls == .none && p.entry == owner

/-- Update what an engine is doing. -/
def State.updRun (s : State) (eng : Nat) (f : Running → Running) : State :=
  s.updEngine eng fun e => { e with running := e.running.map f }

/-- The operation number in a command's address field (R273). -/
def Cmd.at_ (c : Cmd) (o : Nat) : Nat := field c.bytes o 8

/-- A command as it starts. -/
def Running.start (c : Cmd) : Running :=
  { cmd := c, recs := [], next := 0, moved := false, nodes := [], graph := [], bases := [], ctr := [], fail := none,
    fin := none, posted := false, phase := .running }

/-- Numbers above a timeline that are complete without a gap (R178): the new timeline and the others. -/
def settleDone : Nat → Nat → List Nat → Nat × List Nat
  | 0, t, l => (t, l)
  | k + 1, t, l => if l.contains (t + 1) then settleDone k (t + 1) (l.filter (· != t + 1)) else (t, l)

/-- Operation `n` is complete: the timeline advances past it once every earlier one is (R178, R273). -/
def Engine.complete (e : Engine) (n : Nat) : Engine :=
  let r := settleDone (e.done.length + 1) e.timeline (n :: e.done)
  { e with timeline := r.1, done := r.2 }

/-- The 16 bytes of a completion block (R273). -/
def cplBlock (status : BitVec 8) (n : Nat) : List Byte := leBytes 8 status.toNat ++ leBytes 8 n

/-- Whether a launch has ended with a status of its own, so that its commands are discarded (R275). -/
def State.deadLaunch (s : State) (l : Nat) : Bool :=
  match s.launch? l with
  | none => true
  | some x => (x.phase == .finishing || x.phase == .done) && x.status != 0

/-- A task-ending cause that an engine's command meets (R275, R306): the report names its address. -/
def State.endCmd (s : State) (c : Cmd) (status : BitVec 8) (addr : Nat) : State :=
  let tid := match s.team? c.team with
    | some t => t.tid
    | none => 0
  let org := Origin.none
  s.endTask c.launch status (some { gid := 0, tid := tid, regs := (org.info status.toNat 0 addr 0).regs false 0 0 0 })

/-- Post the start of an engine's next command; a seal has been issued at acceptance. -/
def State.cmdNext (s : State) (eng : Nat) : State :=
  match s.engine? eng with
  | none => s
  | some e =>
    match e.queue with
    | c :: _ => if eng % 16 = 8 then s else s.pending [startEvent eng c]
    | [] => s

/-- The running command is over (R273-R275): the timeline advances, the next one starts, and a cause that ends its launch does
so. -/
def State.cmdOver (s : State) (eng : Nat) (r : Running) (status : BitVec 8) (addr : Nat) : State :=
  let s := s.updEngine eng fun e => { e.complete r.cmd.n with running := none }
  let s := if eng % 16 = 0 then
      s.updCore (s.coreOf (eng / 16)) fun c => { c with copyTurn := c.copyTurn.filter (· != eng) }
    else s
  let s := s.cmdNext eng
  let s := if status = 0x10 ∨ status = 0x11 ∨ status = 0x12 then s.endCmd r.cmd status addr else s
  if eng % 16 = 0 then s.teamCheck (eng / 16) else s

/-- Complete the running command, whose status is known (R273): its writes are performed, then the block is written, then the
timeline advances. `again` is the event that goes on when there is a wait. -/
def State.finishCmd (s : State) (eng : Nat) (again : Ev) : Out :=
  match s.engine? eng with
  | none => .next s
  | some e =>
    match e.running with
    | none => .next s
    | some r =>
      match r.fin with
      | none => .next s
      | some (st, a) =>
        let w := s.engWho eng r.cmd 0
        if s.ownBusy w.owner then .next (s.pending [again])
        else if r.posted || r.cmd.at_ 0x38 = 0 then .next (s.cmdOver eng r st a)
        else
          match s.scatter w (putBytes [] (r.cmd.at_ 0x38) (cplBlock st r.cmd.n)) with
          | .wait s => .next (s.pending [again])
          | .mig s _ => .next (s.pending [again])
          | .stop s st2 a2 =>
            let fin := if st = 0x10 ∨ st = 0x11 ∨ st = 0x12 then (st, a) else (st2, a2)
            .next ((s.updRun eng fun r => { r with fin := some fin, posted := true }).pending [again])
          | .ok s _ => .next ((s.updRun eng fun r => { r with posted := true }).pending [again])

/-- Give the running command its status, and complete it. -/
def State.finCmd (s : State) (eng : Nat) (status : BitVec 8) (addr : Nat) (again : Ev) : Out :=
  (s.updRun eng fun r => { r with fin := some (status, addr) }).finishCmd eng again

/-- Take an engine's next command into execution. -/
def State.takeCmd (s : State) (eng : Nat) : State :=
  s.updEngine eng fun e =>
    match e.queue with
    | c :: rest => { e with queue := rest, running := some (Running.start c) }
    | [] => e

/-- Discard one command of a launch that has ended: its block says KILLED (R275). None while the block has to wait. -/
def State.killCmd (s : State) (eng : Nat) (c : Cmd) : State × Bool :=
  let finish := fun (s : State) => s.updEngine eng fun e =>
    { e.complete c.n with
      queue := e.queue.filter fun x => x.n != c.n
      running := match e.running with
        | some r => if r.cmd.n = c.n then none else some r
        | none => none }
  if c.at_ 0x38 = 0 then (finish s, true) else
  match s.scatter (s.engWho eng c 0) (putBytes [] (c.at_ 0x38) (cplBlock 0x14 c.n)) with
  | .wait s => (s, false)
  | .mig s _ => (s, false)
  | .stop s _ _ => (finish s, true)
  | .ok s _ => (finish s, true)

/-- An engine's commands that belong to launches that have ended with a status, the running one first. A seal that was issued
still makes its record (R63). -/
def State.deadCmds (s : State) (eng : Nat) (e : Engine) : List Cmd :=
  if eng % 16 = 8 then [] else
  let l := match e.running with
    | some r => if r.posted then e.queue else r.cmd :: e.queue
    | none => e.queue
  l.filter fun c => s.deadLaunch c.launch

/-- Discard them in order; false when one has to wait. -/
def State.killCmds (s : State) (eng : Nat) : List Cmd → State × Bool
  | [] => (s, true)
  | c :: t =>
    match s.killCmd eng c with
    | (s, true) => s.killCmds eng t
    | r => r

/-! ### Copies (R279-R281) -/

/-- Read element `n` of a record, in memory or in a scratchpad that team `u` reaches. -/
def State.readElem (s : State) (w : Who) (u : Nat) (t : Tensor) (n : Nat) : Seen (List Byte) :=
  let a := t.nth n
  if t.spad then
    match s.spadSpan? u a t.elem with
    | some (x, o) => .ok s (s.spadRead x o t.elem)
    | none => .stop s 0x40 a
  else (s.gather w [(a, t.elem)]).bind fun s m => .ok s (getBytes m a t.elem)

/-- Write element `n` of a record. -/
def State.writeElem (s : State) (w : Who) (u : Nat) (t : Tensor) (n : Nat) (bs : List Byte) : Seen Unit :=
  let a := t.nth n
  if t.spad then
    match s.spadSpan? u a t.elem with
    | some (x, o) => .ok (s.spadWrite x (pairsFrom o bs)) ()
    | none => .stop s 0x40 a
  else s.scatter w (putBytes [] a bs)

/-- Copy or fill one element (R279). -/
def State.copyElem (w : Who) (u : Nat) (src : Option Tensor) (pat : Nat) (dst : Tensor) (s : State) (n : Nat) : Seen Unit :=
  let x := match src with
    | some t => s.readElem w u t n
    | none => Seen.ok s (slice ((upto 0 16).flatMap fun _ => leBytes 8 pat) 0 dst.elem)
  x.bind fun s bs => s.writeElem w u dst n bs

/-- How far a run of pieces got: the number of the next piece, what stopped it, and the address at which it met MIGRATING. -/
structure Ran where
  s    : State
  next : Nat
  fail : Option (BitVec 8 × Nat)
  mig  : Option Nat

/-- Do up to `k` pieces of a piece of work one after another from number `n`: where it got to, and what stopped it. A piece
whose writes are on their way to a peer is the last. -/
def runPieces (owner : Nat) (f : State → Nat → Seen Unit) : Nat → Nat → State → Ran
  | 0, n, s => { s := s, next := n, fail := none, mig := none }
  | k + 1, n, s =>
    match f s n with
    | .wait s => { s := s, next := n, fail := none, mig := none }
    | .mig s a => { s := s, next := n, fail := none, mig := some a }
    | .stop s st a => { s := s, next := n, fail := some (st, a), mig := none }
    | .ok s _ =>
      if s.ownBusy owner then { s := s, next := n + 1, fail := none, mig := none } else runPieces owner f k (n + 1) s

/-- The records of a copy or a fill: source and destination; none when one is malformed, sizes or counts differ, or a
scratchpad record breaks R146 (R273, R279). -/
def State.copyRecs (s : State) (u : Nat) (fill : Bool) (bs : List Byte) : Option (Option Tensor × Tensor) :=
  match tensorOf (slice bs 0 64), (if fill then tensorOf (slice bs 0 64) else tensorOf (slice bs 64 64)) with
  | some a, some b =>
    if a.elem != b.elem || a.count != b.count || !s.spadRecordOk u a || !s.spadRecordOk u b then none
    else some (if fill then none else some a, b)
  | _, _ => none

/-- The VAs of a command's records. -/
def Cmd.recAt (c : Cmd) : List Nat := if field c.bytes 0 1 = 2 then [c.at_ 8] else [c.at_ 8, c.at_ 0x10]

/-- Read a command's records. -/
def State.readRecs (s : State) (eng : Nat) (c : Cmd) : Seen (List Byte) :=
  (s.gather (s.engWho eng c 0) (c.recAt.map fun a => (a, 64))).bind fun s m =>
    .ok s (c.recAt.flatMap fun a => getBytes m a 64)

/-- A copy or a fill starts (R279): its records are read and checked. -/
def State.startCopy (s : State) (eng : Nat) (again : Ev) : Out :=
  match s.engine? eng with
  | none => .next s
  | some e =>
    match e.running, e.queue with
    | some _, _ => s.finishCmd eng again
    | none, [] => .next s
    | none, c :: _ =>
      if s.deadLaunch c.launch then .next (s.post [.chunkEnd eng]) else
      let u := eng / 16
      if (match s.team? u with
        | some t => t.stopCopy
        | none => true) then .next s else
      match s.readRecs eng c with
      | .wait s => .next (s.pending [again])
      | .mig s _ => .next (s.pending [again])
      | .stop s st a => (s.takeCmd eng).finCmd eng st a again
      | .ok s bs =>
        let s := s.takeCmd eng
        match s.copyRecs u (field c.bytes 0 1 == 2) bs with
        | none => s.finCmd eng 0x40 0 again
        | some (_, d) =>
          if d.count < c.at_ 0x20 then s.finCmd eng 0x40 0 again
          else
            let s := s.updRun eng fun r => { r with recs := bs, next := c.at_ 0x20, moved := c.at_ 0x20 == d.count }
            .next ((s.updCore (s.coreOf u) fun k => { k with copyTurn := k.copyTurn ++ [eng] }).pending [.chunkEnd eng])

/-- COPY (R279). -/
def execCopy (eng : Nat) (s : State) : Out := s.startCopy eng (.copy eng)
/-- FILL (R279). -/
def execFill (eng : Nat) (s : State) : Out := s.startCopy eng (.fill eng)

/-- Whether a place in the copy engine's rotation has a copy to go on with (R281). -/
def State.turnAlive (s : State) (core key : Nat) : Bool :=
  if key % 16 = 1 then (s.core core).copies.any fun c => c.id == key / 16
  else
    match s.engine? key with
    | none => false
    | some e =>
      match e.running with
      | none => false
      | some r => r.fin.isNone && (r.phase == .running || r.moved)

/-- Whether it is the turn of a place. -/
def State.isTurn (s : State) (core key : Nat) : Bool :=
  ((s.core core).copyTurn.find? (s.turnAlive core)) == some key

/-- Pass the turn on (R281). -/
def State.passTurn (s : State) (core key : Nat) : State :=
  s.updCore core fun c => { c with copyTurn := (c.copyTurn.filter (· != key)) ++ [key] }

/-- How many elements the next chunk may copy: at least one (R280). -/
def State.chunkSize (s : State) : Nat := 1 + Config.freeDelay s.free

/-- The 16 bytes of a cursor block (R280). -/
def cursorBlock (next state : Nat) : List Byte := leBytes 8 next ++ leBytes 8 state

/-- The cursor block of a copy's chunk (R280), then the next chunk, the stop of a team that is saved, or the end. -/
def State.copyCursor (s : State) (eng : Nat) (r : Running) (count : Nat) : Out :=
  let again := Ev.chunkEnd eng
  let w := s.engWho eng r.cmd 0
  let cur := r.cmd.at_ 0x18
  let state := if r.fail.isSome then 3 else if r.next = count then 1 else if r.phase = .stopped then 2 else 0
  let go := fun (s : State) (fail : Option (BitVec 8 × Nat)) =>
    match fail with
    | some (st, a) => s.finCmd eng st a again
    | none =>
      if r.next = count then s.finCmd eng 0 0 again
      else
        let s := (s.updRun eng fun r => { r with moved := false }).passTurn w.core eng
        .next (if r.phase = .stopped then s else s.pending [again])
  if cur = 0 then go s r.fail else
  match s.scatter w (putBytes [] cur (cursorBlock r.next state)) with
  | .wait s => .next (s.pending [again])
  | .mig s _ => .next (s.pending [again])
  | .stop s st a => go s (some (r.fail.getD (st, a)))
  | .ok s _ => go s r.fail

/-- A chunk of a team's copy (R280). -/
def State.copyChunk (s : State) (eng : Nat) (r : Running) : Out :=
  let again := Ev.chunkEnd eng
  let u := eng / 16
  let fill := field r.cmd.bytes 0 1 == 2
  let w := s.engWho eng r.cmd 0
  if r.fin.isSome then s.finishCmd eng again
  else if s.ownBusy w.owner || !s.isTurn w.core eng then .next (s.pending [again])
  else if r.recs.isEmpty then
    match s.readRecs eng r.cmd with
    | .wait s => .next (s.pending [again])
    | .mig s _ => .next (s.pending [again])
    | .stop s st a => .next ((s.updRun eng fun r => { r with fail := some (st, a), moved := true }).pending [again])
    | .ok s bs => .next ((s.updRun eng fun r => { r with recs := bs }).pending [again])
  else
    match s.copyRecs u fill r.recs with
    | none => s.finCmd eng 0x40 0 again
    | some (src, dst) =>
      if r.moved then s.copyCursor eng r dst.count
      else if r.phase = .stopped then .next s
      else
        let f := State.copyElem w u src (r.cmd.at_ 0x10) dst
        let k := min (dst.count - r.next) s.chunkSize
        let x := runPieces w.owner f k r.next (s.draw 1)
        let moved := r.next < x.next || x.fail.isSome
        .next ((x.s.updRun eng fun r => { r with next := x.next, fail := x.fail, moved := moved }).pending [again])

/-- The first address of a copy that meets MIGRATING now (R83): of any of its elements, read or written. -/
def State.copyMeets (s : State) (w : Who) (src : Option Tensor) (dst : Tensor) : Option Nat :=
  let ends := src.toList.map (fun t => (t, false)) ++ [(dst, true)]
  (upto 0 dst.count).findSome? fun n => ends.findSome? fun e =>
    if e.1.spad then none
    else ((piecesOf [(e.1.nth n, e.1.elem)]).find? fun p => s.trFor w p.1 e.2 == .drain true).map (·.1)

/-- A chunk of a group's copy (R281): it has no cursor and no number. A copy of which some element meets MIGRATING before the first is
written leaves its destination unchanged and is issued again by a replay (R297); where no replay could issue it again, or a part of it
has been copied, it waits and then uses the new walk, as copies do (R83). -/
def State.groupChunk (s : State) (key : Nat) (core : Nat) (c : GroupCopy) : Out :=
  let again := Ev.chunkEnd key
  let own := ownerOf key 0
  let w : Who :=
    { team := c.team, unit := c.unit,
      launch := match s.team? c.team with
        | some t => t.launch
        | none => 0,
      ctx := s.ctxOf c.team, core := core, owner := own, entry := own, cls := .none, batch := none, org := c.org }
  let finish := fun (s : State) => s.updCore core fun k =>
    { k with copies := k.copies.filter (fun x => x.id != c.id), copyTurn := k.copyTurn.filter (· != key) }
  if s.ownBusy own || !s.isTurn core key then .next (s.pending [again])
  else
    match tensorReg c.dst with
    | none => .next (finish s)
    | some dst =>
      if c.next = dst.count then .next (finish s)
      else
        let src := match c.src with
          | some x => tensorReg x
          | none => none
        match (if c.next = 0 then s.copyMeets w src dst else none) with
        | some a =>
          (match (s.grp c.team c.unit).sendsBack c.entry c.rgnc c.id with
           | some e => .next ((finish s).setPark { team := c.team, unit := c.unit, entry := e } (some (.migrating a)))
           | none => .next ((s.passTurn core key).pending [again]))
        | none =>
          let k := min (dst.count - c.next) s.chunkSize
          let x := runPieces own (State.copyElem w c.team src c.pat.toNat dst) k c.next (s.draw 1)
          match x.fail with
          | some (st, a) => .next ((finish x.s).endAccess c.team c.unit c.org st a 0)
          | none =>
            let up := fun (y : GroupCopy) => { y with next := x.next }
            .next (((x.s.updCore core fun k => { k with copies := mapIf (fun y => y.id == c.id) up k.copies }).passTurn core
              key).pending [again])

/-- CHUNK_END (R275, R280): commands of launches that have ended are discarded; a copy ends its chunk and goes on. -/
def execChunkEnd (eng : Nat) (s : State) : Out :=
  if eng % 16 = 1 then
    match s.cores.findSome? fun k => (k.2.copies.find? fun c => c.id == eng / 16).map fun c => (k.1, c) with
    | none => .next s
    | some (core, c) => s.groupChunk eng core c
  else
    match s.engine? eng with
    | none => .next s
    | some e =>
      let dead := s.deadCmds eng e
      if !dead.isEmpty then
        match s.killCmds eng dead with
        | (s, true) =>
          let s := if eng % 16 = 0 then
              (s.updCore (s.coreOf (eng / 16)) fun c => { c with copyTurn := c.copyTurn.filter (· != eng) }).teamCheck (eng / 16)
            else s
          let s := match s.engine? eng with
            | some e => if e.running.isNone then s.cmdNext eng else s
            | none => s
          .next s
        | (s, false) => .next (s.pending [.chunkEnd eng])
      else
        match e.running with
        | none => .next s
        | some r => if eng % 16 = 0 then s.copyChunk eng r else if r.fin.isSome then s.finishCmd eng (.chunkEnd eng) else .next s

/-! ### Graphs (R282-R284) -/

/-- The nodes of an image (R283). -/
def nodeOf (bs : List Byte) (i : Nat) : Node :=
  let o := 0x20 + 32 * i
  let f := fun k n => field bs (o + k) n
  { kind := BitVec.ofNat 8 (f 0 1), dep := f 1 1, ctr := f 2 1, peer := f 3 1,
    succ := (upto 4 4).map fun k => f k 1, sbuf := f 8 1 % 16, dbuf := f 8 1 / 16, pctx := f 9 1, peng := f 0x0A 1,
    rnode := f 0x0B 1, thr := f 0x0C 4, soff := f 0x10 5, doff := f 0x15 5, len := f 0x1A 4 }

/-- KIND, RTYPE and TRIG of a node. -/
def Node.code (n : Node) : Nat := n.kind.toNat % 16
def Node.rtype (n : Node) : Nat := bits n.kind.toNat 4 2
def Node.trig (n : Node) : Bool := bit n.kind.toNat 6

/-- The successors that a node names. -/
def Node.succs (n : Node) : List Nat := n.succ.filter (· != 0xFF)

/-- Whether a node uses assigned codes, and only the fields of its kind (R283, R284). -/
def Node.fieldsOk (n : Node) (e1 : Nat) : Bool :=
  let k := n.code
  let send := k == 1
  let recv := k == 2
  let src := k == 1 || k == 3 || k == 4
  let dst := k == 2 || k == 3 || k == 4
  k ≤ 4 && n.rtype ≤ 1 && (k == 3 || n.rtype == 0) && (send || !n.trig) && !bit n.kind.toNat 7 &&
    n.ctr < 64 && n.peer < 64 && n.pctx < 64 && n.peng < 4 && e1 == 0 &&
    (recv || (send && n.trig) || n.ctr == 0) && (send || recv || (n.peer == 0 && n.pctx == 0 && n.peng == 0)) &&
    (send || n.rnode == 0) && ((send && n.trig) || n.thr == 0) && (src || (n.sbuf == 0 && n.soff == 0)) &&
    (dst || (n.dbuf == 0 && n.doff == 0)) && (if k = 0 then n.len == 0 else n.len != 0)

/-- Whether no element stands twice in a list. -/
def noRepeat : List Nat → Bool
  | [] => true
  | x :: t => !t.contains x && noRepeat t

/-- Whether a graph has no cycle: removing nodes without predecessors leaves none. -/
def acyclic (g : List Node) : Nat → List Nat → Bool
  | 0, left => left.isEmpty
  | k + 1, left =>
    let keep := left.filter fun i => left.any fun j => match g[j]? with
      | some n => n.succs.contains i
      | none => false
    if keep.length = left.length then left.isEmpty else acyclic g k keep

/-- The checks of GLOAD (R284): the graph of an image, or none. -/
def graphOf (bs : List Byte) : Option (List Node) :=
  let nn := field bs 2 1
  let g := (upto 0 nn).map (nodeOf bs)
  let ok := fun (i : Nat) (n : Node) =>
    n.fieldsOk (field bs (0x20 + 32 * i + 0x1E) 2) && n.succs.all (fun j => j < nn && j != i) && noRepeat n.succs &&
      n.dep == (g.flatMap Node.succs).count i &&
      (!(n.code == 3 && n.rtype == 0) || n.len % 4 == 0) &&
      (!(n.code == 3 && n.rtype == 1) || (n.len % 64 == 0 && n.soff % 64 == 0 && n.doff % 64 == 0))
  if field bs 0 2 == 1 && 1 ≤ nn && zeros (slice bs 3 29) && (g.zip (upto 0 nn)).all (fun e => ok e.2 e.1) &&
      acyclic g (nn + 1) (upto 0 nn) then some g
  else none

/-- GLOAD (R282, R284). -/
def execGload (eng : Nat) (s : State) : Out :=
  let again := Ev.gload eng
  match s.engine? eng with
  | none => .next s
  | some e =>
    match e.running, e.queue with
    | some _, _ => s.finishCmd eng again
    | none, [] => .next s
    | none, c :: _ =>
      if s.deadLaunch c.launch then .next (s.post [.chunkEnd eng]) else
      let a := c.at_ 8
      let img := (s.gather (s.engWho eng c 0) [(a, 32)]).bind fun s m =>
        let n := (getBytes m (a + 2) 1).headD 0
        (s.gather (s.engWho eng c 1) [(a, 32 + 32 * n.toNat)]).bind fun s m => .ok s (getBytes m a (32 + 32 * n.toNat))
      match img with
      | .wait s => .next (s.pending [again])
      | .mig s _ => .next (s.pending [again])
      | .stop s st a => (s.takeCmd eng).finCmd eng st a again
      | .ok s bs =>
        let s := s.takeCmd eng
        match graphOf bs with
        | none => s.finCmd eng 0x41 0 again
        | some g =>
          let slot := c.at_ 0x10
          let up := fun (e : Engine) =>
            { e with graphs := (slot, g) :: e.graphs.filter (fun x => x.1 != slot), credits := [] }
          (s.updEngine eng up).finCmd eng 0 0 again

/-! ### Running a graph (R285-R288, R509) -/

/-- Update a node that runs. -/
def State.updNode (s : State) (eng i : Nat) (f : NodeRun → NodeRun) : State :=
  s.updRun eng fun r => { r with nodes := modAt r.nodes i f }

/-- Whether a node has started and not ended. -/
def NodeRun.on (n : NodeRun) : Bool := n.phase == .started || n.phase == .armed || n.phase == .sending

/-- Post the progress of every node that has started. -/
def State.wakeNodes (s : State) (eng : Nat) : State :=
  match s.engine? eng with
  | none => s
  | some e =>
    match e.running with
    | none => s
    | some r =>
      s.pending (((upto 0 r.nodes.length).filter fun i => match r.nodes[i]? with
        | some n => n.on
        | none => false).map fun i => .nodeCompletion eng i)

/-- The engine context of a collective engine number, and its context. -/
def engCtx (eng : Nat) : Nat := eng / 16
def engNum (eng : Nat) : Nat := eng % 16 - 4

/-- The ADDR field of a chunk or a credit (R509). -/
def collAddr (dctx deng node seng off : Nat) : Nat := dctx + deng * 64 + node * 256 + seng * 65536 + off * 16777216

/-- Send a message to a peer, or to the package itself through the harbour die (R286), where it has arrived behind those that came
before it. None when the peer cannot be reached. -/
def State.sendColl (s : State) (m : Msg) (self : Msg → Ev) : Option State :=
  if m.dst = s.dev.peerId then some ({ s with inbox := m :: s.inbox }.pending [self m])
  else if s.peerUp m.dst.toNat then s.send m else none

/-- A node starts (R286): a RECV sends its credit, a triggered SEND is armed. -/
def State.startNode (s : State) (eng : Nat) (n : Node) (i : Nat) : State :=
  let s := s.updNode eng i fun x => { x with phase := if n.code = 1 && n.trig then .armed else .started }
  let s := if n.code = 2 then
      let m := s.msg 9 n.peer (collAddr n.pctx n.peng i (engNum eng) 0) (engCtx eng) 0 []
      match s.sendColl m .collectiveCredit with
      | some s => s
      | none => s.updNode eng i fun x => { x with fail := some 0x11 }
    else s
  s.pending [.nodeCompletion eng i]

/-- Start every node whose predecessors have completed, unless a node has failed (R285). -/
def State.startNodes (s : State) (eng : Nat) : State :=
  match s.engine? eng with
  | none => s
  | some e =>
    match e.running with
    | none => s
    | some r =>
      if r.fail.isSome then s else
      (upto 0 r.nodes.length).foldl (fun s i =>
        match r.nodes[i]?, r.graph[i]? with
        | some x, some n => if x.phase = .waiting && x.d = 0 then s.startNode eng n i else s
        | _, _ => s) s

/-- GRUN (R282, R285). -/
def execGrun (eng : Nat) (s : State) : Out :=
  let again := Ev.grun eng
  match s.engine? eng with
  | none => .next s
  | some e =>
    match e.running, e.queue with
    | some _, _ => s.finishCmd eng again
    | none, [] => .next s
    | none, c :: _ =>
      if s.deadLaunch c.launch then .next (s.post [.chunkEnd eng]) else
      match e.graphs.find? fun g => g.1 == c.at_ 8 with
      | none => (s.takeCmd eng).finCmd eng 0x40 0 again
      | some g =>
        let a := c.at_ 0x10
        match s.gather (s.engWho eng c 0) [(a, 128)] with
        | .wait s => .next (s.pending [again])
        | .mig s _ => .next (s.pending [again])
        | .stop s st a => (s.takeCmd eng).finCmd eng st a again
        | .ok s m =>
          let bases := (upto 0 16).map fun i => BitVec.ofNat 64 (field (getBytes m a 128) (8 * i) 8)
          let s := s.takeCmd eng
          if bases.any fun b => 2 ^ 56 ≤ b.toNat then s.finCmd eng 0x40 0 again
          else
            let fresh := fun (n : Node) =>
              ({ d := n.dep, phase := .waiting, bytes := 0, open_ := [], fail := none } : NodeRun)
            .next ((s.updRun eng fun r => { r with graph := g.2, bases := bases, nodes := g.2.map fresh }).startNodes eng)

/-- The addresses of a node's source and destination. -/
def Running.src (r : Running) (n : Node) : Nat := (r.bases.getD n.sbuf 0).toNat + n.soff
def Running.dst (r : Running) (n : Node) : Nat := (r.bases.getD n.dbuf 0).toNat + n.doff

/-- The unit in which a COPY or a REDUCE moves on: a byte, a word or a half-line. -/
def Node.unit (n : Node) : Nat := if n.code = 3 then (if n.rtype = 0 then 4 else 64) else 1

/-- One unit of a COPY or a REDUCE (R286). -/
def nodePiece (w : Who) (n : Node) (src dst : Nat) (s : State) (i : Nat) : Seen Unit :=
  let k := n.unit
  let a := src + k * i
  let b := dst + k * i
  if a % k != 0 then .stop s 0x40 a
  else if b % k != 0 then .stop s 0x40 b
  else
    (s.gather w (if n.code = 3 then [(a, k), (b, k)] else [(a, k)])).bind fun s m =>
      let x := getBytes m a k
      let new := if n.code = 4 then x
        else if n.rtype = 0 then leBytes 4 (fp32.fadd 0 (leNat (getBytes m b k)) (leNat x))
        else halfMerge (getBytes m b k) x
      s.scatter w (putBytes [] b new)

/-- A node completes or fails (R285): its counter, its successors, and the nodes that may start now. -/
def State.nodeOver (s : State) (eng i : Nat) (n : Node) (fail : Option (BitVec 8 × Nat)) : State :=
  let s := s.updNode eng i fun x => { x with phase := .ended }
  let s := match fail with
    | some f => s.updRun eng fun r => { r with fail := some (r.fail.getD f) }
    | none =>
      s.updRun eng fun r =>
        { r with ctr := if n.code = 2 then sset r.ctr n.ctr (sget r.ctr n.ctr + 1) else r.ctr
                 nodes := n.succs.foldl (fun l j => modAt l j fun x => { x with d := x.d - 1 }) r.nodes }
  ((s.startNodes eng).wakeNodes eng).pending [.nodeCompletion eng 255]

/-- The credit that a SEND consumes (R288). -/
def Engine.creditFor (e : Engine) (n : Node) : Option Credit :=
  e.credits.find? fun c => c.peer == n.peer && c.node == n.rnode && c.ctx == n.pctx && c.eng == n.peng

/-- Drop one credit. -/
def Engine.useCredit (e : Engine) (n : Node) : Engine :=
  match e.creditFor n with
  | some c => { e with credits := e.credits.erase c }
  | none => e

/-- A SEND that has its credit sends its next chunk (R286, R509); what crosses a link is charged to its command's launch (R94, R274). -/
def State.sendChunk (s : State) (eng i : Nat) (r : Running) (n : Node) (x : NodeRun) : Out :=
  let again := Ev.nodeCompletion eng i
  if x.bytes = n.len then
    if x.open_.isEmpty then .next (s.nodeOver eng i n none) else .next s
  else
    let k := min 512 (n.len - x.bytes)
    let a := r.src n + x.bytes
    match s.gather (s.engWho eng r.cmd (i + 2)) [(a, k)] with
    | .wait s => .next (s.pending [again])
    | .mig s _ => .next (s.pending [again])
    | .stop s st a => .next (s.nodeOver eng i n (some (st, a)))
    | .ok s m =>
      let txn := s.nextId
      let msg := s.msg 8 n.peer (collAddr n.pctx n.peng n.rnode (engNum eng) x.bytes) (engCtx eng) txn (getBytes m a k)
      match s.bump.sendColl msg .collectiveChunk with
      | none => .next (s.nodeOver eng i n (some (0x11, a)))
      | some s =>
        let s := if msg.dst == s.dev.peerId then s else s.bwCharge r.cmd.launch k
        .next ((s.updNode eng i fun x => { x with bytes := x.bytes + k, open_ := txn :: x.open_ }).pending [again])

/-- The engine context that a chunk or a credit names, and its node (R509). -/
def msgEngine (m : Msg) : Nat := 16 * (m.addr.toNat % 64) + 4 + bits m.addr.toNat 6 2
def msgNode (m : Msg) : Nat := bits m.addr.toNat 8 8

/-- Whether a SEND's peer cannot be reached (R28): it waits in vain. -/
def State.sendLost (s : State) (n : Node) : Bool := n.peer != s.dev.peerId.toNat && !s.peerUp n.peer

/-- The progress of a started node (R286-R288). A RECV ends when every chunk that it has taken is performed. -/
def State.nodeStep (s : State) (eng i : Nat) (e : Engine) (r : Running) (n : Node) (x : NodeRun) : Out :=
  let again := Ev.nodeCompletion eng i
  let w := s.engWho eng r.cmd (i + 2)
  match x.fail with
  | some st => .next (s.nodeOver eng i n (some (st, 0)))
  | none =>
    if s.ownBusy w.owner then .next (s.pending [again])
    else if n.code = 0 then .next (s.nodeOver eng i n none)
    else if n.code = 1 then
      if x.phase != .sending && s.sendLost n then .next (s.nodeOver eng i n (some (0x11, 0)))
      else if x.phase = .armed && (sget r.ctr n.ctr).toNat < n.thr then .next s
      else if x.phase = .sending then s.sendChunk eng i r n x
      else
        match e.creditFor n with
        | none => .next (s.updNode eng i fun x => { x with phase := .started })
        | some _ =>
          .next (((s.updEngine eng (·.useCredit n)).updNode eng i fun x => { x with phase := .sending }).pending [again])
    else if n.code = 2 then
      .next (if x.bytes != n.len || !x.open_.isEmpty then s else s.nodeOver eng i n none)
    else
      let done := x.bytes / n.unit
      if x.bytes = n.len then .next (s.nodeOver eng i n none)
      else
        let k := min (n.len / n.unit - done) s.chunkSize
        let y := runPieces w.owner (nodePiece w n (r.src n) (r.dst n)) k done (s.draw 1)
        match y.fail with
        | some f => .next (y.s.nodeOver eng i n (some f))
        | none => .next ((y.s.updNode eng i fun x => { x with bytes := y.next * n.unit }).pending [again])

/-- The end of a run (R285): once every started node has ended, the counters go to CTROUT and the command completes. -/
def State.graphEnd (s : State) (eng : Nat) (r : Running) : Out :=
  let again := Ev.nodeCompletion eng 255
  let w := s.engWho eng r.cmd 0
  let isOver := if r.fail.isSome then r.nodes.all (fun x => !x.on) else r.nodes.all fun x => x.phase == .ended
  if !isOver then .next s
  else if r.fin.isSome then s.finishCmd eng again
  else
    let (st, a) := r.fail.getD (0, 0)
    let out := r.cmd.at_ 0x18
    if out = 0 then s.finCmd eng st a again
    else
      match s.scatter w (putBytes [] out ((upto 0 64).flatMap fun c => leBytes 4 (sget r.ctr c).toNat)) with
      | .wait s => .next (s.pending [again])
      | .mig s _ => .next (s.pending [again])
      | .stop s st2 a2 => let f := r.fail.getD (st2, a2); s.finCmd eng f.1 f.2 again
      | .ok s _ => s.finCmd eng st a again

/-- NODE_COMPLETION (R285-R288): the progress of a node; node 255 is the end of the run. -/
def execNodeCompletion (eng node : Nat) (s : State) : Out :=
  match s.engine? eng with
  | none => .next s
  | some e =>
    match e.running with
    | none => .next s
    | some r =>
      if node = 255 then (if r.nodes.isEmpty then .next s else s.graphEnd eng r)
      else
        match r.nodes[node]?, r.graph[node]? with
        | some x, some n => if x.on then s.nodeStep eng node e r n x else .next s
        | _, _ => .next s

/-- Every node that waits on a lost peer fails (R288). -/
def Engine.loseNodes (e : Engine) (p : Nat) : Engine :=
  { e with running := e.running.map fun r =>
      { r with nodes := (r.nodes.zip r.graph).map fun x =>
          if x.1.on && (x.2.code == 1 || x.2.code == 2) && x.2.peer == p then { x.1 with fail := some 0x11 } else x.1 } }

/-! ### Seals (R61-R63, R289) -/

/-- The seal descriptor's fields (R61). -/
structure SealDesc where
  sout   : Nat
  nonce  : List Byte
  ranges : List (Nat × Nat)
  deriving DecidableEq, Repr

/-- Whether a span lies inside one lease range. -/
def LaunchRec.inLease (r : LaunchRec) (base len : Nat) (wr : Bool) : Bool :=
  (base + len ≤ Config.saveBase || Config.saveEnd < base) &&
  r.leases.any fun g => g.base ≤ base && base + len ≤ g.base + g.len && (!wr || g.w)

/-- Read a descriptor; none when it breaks R61. -/
def sealDesc (r : LaunchRec) (bs : List Byte) : Option SealDesc :=
  let n := field bs 8 1
  let ranges := (upto 0 n).map fun i => (field bs (0x40 + 16 * i) 8, field bs (0x48 + 16 * i) 8)
  let sout := field bs 0 8
  if sout % 256 == 0 && r.inLease sout 256 true && 1 ≤ n && n ≤ 16 && zeros (slice bs 9 23) &&
      ranges.all fun e => r.inLease e.1 e.2 false then
    some { sout := sout, nonce := slice bs 0x20 32, ranges := ranges }
  else none

/-- A number as `n` bytes, most significant first. -/
def beBytes (n x : Nat) : List Byte := (leBytes n x).reverse

/-- SHA-384 of the measurement slots (R62). -/
def State.fwDigest (s : State) : List Byte := sha384 s.dev.slots.flatten

/-- The bytes of a seal record (R62), signed. -/
def State.sealRecord (s : State) (reason : BitVec 8) (ctx tag : Nat) (n : Nat) (digest nonce : List Byte) : List Byte :=
  let head := leBytes 2 1 ++ leBytes 1 (b2n (reason != 0)) ++ leBytes 1 reason.toNat ++ leBytes 1 ctx ++
    leBytes 1 s.dev.peerId.toNat ++ leBytes 2 0 ++ leBytes 8 s.dev.sealSeq ++ leBytes 4 tag ++ leBytes 4 n ++ s.fwDigest ++
    digest ++ nonce ++ leBytes 8 0
  head ++ beBytes 96 (Config.signature head).toNat

/-- What the ranges of a descriptor hash to: each entry followed by the range's bytes (R62). -/
def rangeDigest (m : ByteMap) (l : List (Nat × Nat)) : List Byte :=
  sha384 (l.flatMap fun e => leBytes 8 e.1 ++ leBytes 8 e.2 ++ getBytes m e.1 e.2)

/-- SEAL (R289): the engine accepts a seal command, which issues the seal. -/
def execSeal (eng : Nat) (s : State) : Out :=
  match s.engine? eng with
  | none => .next s
  | some e =>
    match e.queue.find? fun c => !s.seals.any fun j => j.cmd && j.ctx == eng / 16 && j.n == c.n with
    | none => .next s
    | some c =>
      let j : SealJob := { id := s.nextId, ctx := eng / 16, launch := c.launch, cmd := true, n := c.n, desc := c.at_ 8, tag := 0, head := [] }
      .next ({ s.bump with seals := s.seals ++ [j] }.pending [.sealRecord j.id])

/-- A seal job leaves. -/
def State.dropSeal (s : State) (id : Nat) : State := { s with seals := s.seals.filter fun (j : SealJob) => j.id != id }

/-- A seal is over: its command completes with `st`, or its launch goes on to completion with SEQ or SEAL_FAIL (R59, R61). -/
def State.sealOver (s : State) (j : SealJob) (st : BitVec 8) (addr seq : Nat) : Out :=
  let s := s.dropSeal j.id
  if j.cmd then s.finCmd (16 * j.ctx + 8) st addr (.chunkEnd (16 * j.ctx + 8))
  else
    let f := fun (l : Launch) => { l with sealed := true, sealSeq := seq, status := if st = 0 then l.status else 0x16 }
    .next ((s.updLaunch j.launch f).pending [.gridCompletion j.launch])

/-- Whose writes a seal's are: the engine context's, or those of the launch that is sealed. -/
def SealJob.writer (j : SealJob) : Nat := if j.cmd then ownerOf (16 * j.ctx + 8) 0 else ownerOf (16 * j.launch + 10) 0

/-- The accesses of a seal. -/
def State.sealWho (s : State) (j : SealJob) (k : Nat) : Who :=
  { s.engWho (16 * j.ctx + 8) { n := 0, launch := j.launch, team := 0, bytes := [] } 0 with
    owner := ownerOf (16 * j.id + 9) k, entry := j.writer }

/-- Write a seal record at SOUT and take its SEQ. -/
def State.sealWrite (s : State) (j : SealJob) (d : SealDesc) (reason : BitVec 8) (digest : List Byte) : Out :=
  let again := Ev.sealRecord j.id
  let seq := s.dev.sealSeq
  let rec_ := s.sealRecord reason j.ctx j.tag d.ranges.length digest d.nonce
  match s.scatter (s.sealWho j 2) (putBytes [] d.sout rec_) with
  | .wait s => .next (s.pending [again])
  | .mig s _ => .next (s.pending [again])
  | .stop s st a => s.sealOver j st a 0
  | .ok s _ =>
    let s := { s with dev := { s.dev with sealSeq := seq + 1 } }
    s.sealOver j (if j.cmd && s.deadLaunch j.launch then 0x14 else 0) 0 seq

/-- Whether it is a seal's turn: a launch's seal has no queue; a command's waits for those before it. -/
def State.sealTurn (s : State) (j : SealJob) : Bool :=
  !j.cmd ||
    (match s.engine? (16 * j.ctx + 8) with
     | none => false
     | some e =>
       match e.running with
       | some r => r.cmd.n == j.n
       | none => (match e.queue with
         | c :: _ => c.n == j.n
         | [] => false))

/-- How many bytes a seal descriptor takes, from its first 64 bytes (R61). -/
def sealDescSize (head : List Byte) : Nat := 64 + 16 * min 16 (field head 8 1)

/-- Read the descriptor of a seal: its first 64 bytes say how many ranges follow (R61). -/
def State.sealDescBytes (s : State) (j : SealJob) : Seen (List Byte) :=
  (s.gather (s.sealWho j 0) [(j.desc, 64)]).bind fun s m =>
    (s.gather (s.sealWho j 1) [(j.desc, sealDescSize (getBytes m j.desc 64))]).bind fun s x =>
      .ok s (getBytes x j.desc (sealDescSize (getBytes m j.desc 64)))

/-- Whether a seal's context is gone or being retired (R63). -/
def State.sealGone (s : State) (j : SealJob) : Bool :=
  match s.ctx? j.ctx with
  | some c => c.retiring
  | none => true

/-- A pushed seal whose engine runs nothing is taken from its ring. -/
def State.sealTake (s : State) (j : SealJob) : State :=
  let eng := 16 * j.ctx + 8
  let idle := match s.engine? eng with
    | some e => e.running.isNone
    | none => false
  if j.cmd && idle then s.takeCmd eng else s

/-- SEAL_RECORD (R61-R63, R289): the descriptor is checked, the ranges are read, the record is signed and written. The seal of a
launch that has ended with a status is void with KILLED. -/
def execSealRecord (sl : Nat) (s : State) : Out :=
  let again := Ev.sealRecord sl
  match s.seals.find? fun j => j.id == sl with
  | none => .next s
  | some j =>
    if s.sealGone j then .next s
    else if !s.sealTurn j then .next (s.pending [again]) else
    match s.launch? j.launch with
    | none => .next (s.dropSeal sl)
    | some l =>
      let s := s.sealTake j
      match s.sealDescBytes j with
      | .wait s => .next (s.pending [again])
      | .mig s _ => .next (s.pending [again])
      | .stop s st a => s.sealOver j st a 0
      | .ok s bs =>
        match sealDesc l.lr bs with
        | none => s.sealOver j 0x16 0 0
        | some d =>
          if j.cmd && s.deadLaunch j.launch then s.sealWrite j d 0x14 (List.replicate 48 0)
          else
            match s.gather (s.sealWho j 2) d.ranges with
            | .wait s => .next (s.pending [again])
            | .mig s _ => .next (s.pending [again])
            | .stop s st _ => s.sealWrite j d st (List.replicate 48 0)
            | .ok s m => s.sealWrite j d 0 (rangeDigest m d.ranges)

end Sys2Proof.Machine
end

