-- ==== Sys2Proof/Machine/Sync.lean ====
section
/-!
DEFINITION. Synchronisation (R169-R178, R431-R437): sync objects, fences, barriers, timelines and counter waits, with the
event rows ACQUIRE_GRANT, RELEASE_ACKNOWLEDGED, BARRIER_COMPLETION, TIMELINE_REACHED and BATCH_COMPLETE.
-/

namespace Sys2Proof.Machine

/-! ### Sync objects (R169-R173, R432) -/

/-- The fields of a sync object (R169). -/
structure SyncObj where
  held   : Bool
  ctx    : Nat
  gid    : Nat
  tid    : Nat
  relseq : Nat
  bad    : Bool
  deriving DecidableEq, Repr

/-- Read a sync object. -/
def syncOf (bs : List Byte) : SyncObj :=
  let w := field bs 0 8
  { held := bit w 0, ctx := bits w 6 6, gid := bits w 12 4, tid := bits w 16 32, relseq := field bs 8 8,
    bad := bits w 1 5 != 0 || bits w 48 16 != 0 || !zeros (bs.drop 16) }

/-- Its first 16 bytes. -/
def SyncObj.bytes (o : SyncObj) : List Byte :=
  leBytes 8 (b2n o.held + o.ctx * 2 ^ 6 + o.gid * 2 ^ 12 + o.tid * 2 ^ 16) ++ leBytes 8 o.relseq

/-- GID and TID that a unit holds objects under: the handler slot acts for the group it handles. -/
def State.holder (s : State) (u unit : Nat) : Nat × Nat :=
  match s.team? u with
  | none => (0, 0)
  | some t =>
    let gid := if unit < 16 then unit else
      match t.inTrap with
      | some x => if x.unit < 16 then x.unit else 0
      | none => 0
    (gid, t.tid)

/-- Whether an object names a request's group as its holder. -/
def State.holds (s : State) (o : SyncObj) (r : Req) : Bool :=
  o.held && o.ctx == r.ctx && (o.gid, o.tid) == s.holder r.team r.unit

/-- Send an acquire or a release; the group parks (R170, R171). -/
def State.sendSync (s : State) (i : Iss) (addr : Nat) (t : Tgt) (kind : ReqKind) : State :=
  let id := s.nextId
  let u := i.p.team
  (s.addReq id u i.p.unit (s.coreOf u) (s.ctxOf u) addr 64 t kind).setPark i.p (some (.sync id i.next))

/-- An acquire or a release: nothing under an empty mask, the checks of R173 and R432, `gate` first. -/
def syncOp (sig : Sig) (p : Pfx) (a : BitVec 8) (kind : ReqKind) (gate : Iss → State → Option State) (s : State) : Out :=
  issue sig p.mask s fun i s =>
    let x := ((s.my i).sget a.toNat).toNat
    if i.mask = 0 then .next (s.advance i)
    else if x % 64 != 0 then .next (s.trap 0x24 0x00 x)
    else
      match gate i s with
      | some s => .next s
      | none =>
        s.access i [(noLane, x)] true false fun s tr =>
          match tr with
          | [(_, _, .home d false c)] => .next (s.sendSync i x (.home d false c) kind)
          | [(_, _, .peer p d)] => .next (s.sendSync i x (.peer p d) kind)
          | _ => .next (s.trap 0x20 0x03 x)

/-- ACQ (R170). -/
def execAcq (p : Pfx) (a : BitVec 8) (s : State) : Out := syncOp (sigOf (.acq p a)) p a .acq (fun _ _ => none) s

/-- REL (R171): first the store and remote-op counters fall to 0. -/
def execRel (p : Pfx) (a : BitVec 8) (s : State) : Out :=
  syncOp (sigOf (.rel p a)) p a .rel (fun i s =>
    if s.within i.p.team i.p.unit 15 0 15 15 0 then none
    else some (s.setPark i.p (some (.counters 15 0 15 15 0 false)))) s

/-- The fragment that waits for a sync request. -/
def State.syncParty (s : State) (r : Req) : Option (Party × U64) :=
  let g := s.grp r.team r.unit
  (upto 0 g.split.length).findSome? fun e =>
    match (g.entry e).park with
    | some (.sync id next) => if id = r.id then some ({ team := r.team, unit := r.unit, entry := e }, next) else none
    | _ => none

/-- Forget a request. -/
def State.dropReq (s : State) (id : Nat) : State := { s with reqs := s.reqs.filter fun r => r.id != id }

/-- A sync use that R173 forbids traps at its fragment. -/
def State.syncTrap (s : State) (r : Req) : State :=
  let s' := s.dropReq r.id
  match s.syncParty r with
  | none => s'
  | some (p, _) =>
    let pc := (s.entry p).pc
    s'.takeTrap p
      { cause := 0x20, detail := 0x03, addr := r.va, lanes := 0, fpc := pc, resume := pc, frop := 0, inrun := false,
        emitted := false, widx := 0, seq := 0, epc := 0 }

/-- A sync request meets a task-ending cause (R88, R204, R306): the task of the group that waits for it ends. -/
def State.syncFail (s : State) (r : Req) (st : BitVec 8) : State :=
  let s' := s.dropReq r.id
  match s.syncParty r with
  | none => s'
  | some (p, _) => s'.endAccess r.team r.unit { Origin.none with pc := (s.entry p).pc } st r.va 0

/-- Give an object to a request at its home (R170). -/
def State.syncGrant (s : State) (r : Req) (dpa : Nat) (o : SyncObj) : State :=
  let h := s.holder r.team r.unit
  let s := s.homeWrite r.ctx (s.launchIdOf r.team) dpa (pairsFrom 0 { o with held := true, ctx := r.ctx, gid := h.1, tid := h.2 }.bytes)
  (s.updReq r.id fun r => { r with phase := .served }).pending [.acquireGrant r.id]

/-- An acquire waits at the home in order of arrival. -/
def State.syncQueue (s : State) (r : Req) : State :=
  { s with reqs := (s.reqs.filter fun x => x.id != r.id) ++ [{ r with phase := .waiting }] }

/-- The home serves an acquire (R170, R173); a poisoned object ends the task (R204). -/
def State.serveAcq (s : State) (r : Req) (dpa : Nat) : State :=
  let o := syncOf (s.pointRead r.ctx dpa false 64)
  if s.spanBad r.ctx dpa false 64 then s.syncFail r 0x12
  else if o.bad || s.holds o r then s.syncTrap r
  else if o.held || s.reqs.any (fun x => x.kind == .acq && x.phase == .waiting && x.tgt.spot == r.tgt.spot) then s.syncQueue r
  else s.syncGrant r dpa o

/-- The home serves a release and grants the object to the next acquire that waits (R171, R173). -/
def State.serveRel (s : State) (r : Req) (dpa : Nat) : State :=
  let o := syncOf (s.pointRead r.ctx dpa false 64)
  if s.spanBad r.ctx dpa false 64 then s.syncFail r 0x12
  else if o.bad || !s.holds o r then s.syncTrap r
  else
    let o : SyncObj := { o with held := false, relseq := (o.relseq + 1) % 2 ^ 64 }
    let s := s.homeWrite r.ctx (s.launchIdOf r.team) dpa (pairsFrom 0 o.bytes)
    let s := (s.updReq r.id fun r => { r with phase := .served }).pending [.releaseAcknowledged r.id]
    match s.reqs.find? fun x => x.kind == .acq && x.phase == .waiting && x.tgt.spot == r.tgt.spot with
    | some w => s.syncGrant w dpa o
    | none => s

/-- A fragment goes on at an address; a trapped group's image takes the address too (R304). -/
def State.resumeAt (s : State) (p : Party) (pc : U64) : State :=
  ((s.setPark p none).setPc p pc).putImage p.team p.unit (0x108 + 64 * p.entry) (leBytes 8 pc.toNat)

/-- Whether a sync request's answer can be here: its home has served it, or it is on a peer. -/
def Req.answered (r : Req) (kind : ReqKind) : Bool :=
  r.kind == kind && (r.phase == .served || (r.phase == .waiting && (match r.tgt with
    | .peer _ _ => true
    | _ => false)))

/-- Whether a withdrawn acquire was of the group of a request, and of the same object (R184). -/
def KeptAcq.of_ (k : KeptAcq) (s : State) (r : Req) : Bool :=
  k.launch == s.launchIdOf r.team && (k.gid, k.tid) == s.holder r.team r.unit && r.tgt.spot == (1, k.peer, k.addr)

/-- What is kept of a group's withdrawn acquires of an object is over. -/
def State.dropKept (s : State) (r : Req) : State := { s with kept := s.kept.filter fun k => !k.of_ s r }

/-- An acquire's grant is back (R170): the core's L1 is cleared and the group resumes. -/
def State.granted (s : State) (r : Req) : State :=
  let s' := ((s.dropKept r).dropReq r.id).clearL1All r.core
  match s.syncParty r with
  | some (p, next) => s'.resumeAt p next
  | none => s'

/-- A release's acknowledgement is back (R171). -/
def State.released (s : State) (r : Req) : State :=
  match s.syncParty r with
  | some (p, next) => (s.dropReq r.id).resumeAt p next
  | none => s.dropReq r.id

/-- The grant of a withdrawn acquire comes: it holds (R184), for the acquire that the group has sent again, or will send. -/
def State.lateGrant (s : State) (op : Nat) : State :=
  match s.kept.find? fun k => k.id == op with
  | none => s
  | some k =>
    match s.reqs.find? fun r => r.answered .acq && k.of_ s r with
    | some r => (s.dropKept r).granted r
    | none => { s with kept := mapIf (fun (k : KeptAcq) => k.id == op) (fun k => { k with came := true }) s.kept }

/-- ACQUIRE_GRANT (R170, R184). -/
def execAcquireGrant (op : Nat) (s : State) : Out :=
  match s.reqs.find? fun r => r.id == op with
  | none => .next (s.lateGrant op)
  | some r => if r.answered .acq then .next (s.granted r) else .next s

/-- RELEASE_ACKNOWLEDGED (R171). -/
def execReleaseAcknowledged (op : Nat) (s : State) : Out :=
  match s.reqs.find? fun r => r.id == op with
  | none => .next s
  | some r => if r.answered .rel then .next (s.released r) else .next s

/-! ### Fences and barriers (R176, R433-R435) -/

/-- FENCE (R176): waits, then clears the context's words of the core's L1 at cluster scope and above. -/
def execFence (x : BitVec 4) (s : State) : Out :=
  issue (sigOf (.fence x)) 0 s fun i s =>
    let u := i.p.team
    if !s.fenceOpen u i.p.unit x.toNat then .next (s.setPark i.p (some (.fence x.toNat)))
    else
      let s := if x = 0 then s else s.clearL1Ctx (s.coreOf u) (s.ctxOf u)
      .next (s.advance i)

/-- A barrier (R434): a fence at its scope, then the fragment parks. -/
def barrierOp (sig : Sig) (cluster : Bool) (s : State) : Out :=
  issue sig 0 s fun i s =>
    if !s.fenceOpen i.p.team i.p.unit (b2n cluster) then .next (s.setPark i.p (some (.fence (b2n cluster))))
    else .next (s.setPark i.p (some (.bar cluster i.next)))

/-- BAR (R434). -/
def execBar (s : State) : Out := barrierOp (sigOf .bar) false s
/-- CBAR (R434). -/
def execCbar (s : State) : Out := barrierOp (sigOf .cbar) true s

/-- A fragment parked at a barrier of a kind continues after it. -/
def Entry.leaveBar (e : Entry) (cluster : Bool) : Entry :=
  match e.park with
  | .some (.bar c next) => if c = cluster then { e with pc := next, park := .none } else e
  | _ => e

/-- Every parked fragment of a team leaves its barrier. -/
def Team.leaveBar (t : Team) (cluster : Bool) : Team :=
  { t with groups := t.groups.map fun (g : Grp) => { g with split := g.split.map fun (e : Entry) => e.leaveBar cluster } }

/-- BARRIER_COMPLETION (R434). -/
def execBarrierCompletion (team : Nat) (cluster : Bool) (s : State) : Out :=
  match s.team? team with
  | none => .next s
  | some t =>
    if !s.barrierFull t cluster then .next s else
    let mine := fun (x : Team) => x.uid == t.uid || (cluster && x.launch == t.launch && x.cluster == t.cluster)
    let cores := (s.teams.filter mine).map (·.core)
    let s := if cluster then cores.foldl (fun s c => s.clearL1Ctx c (s.ctxOf team)) s else s
    .next { s with teams := mapIf mine (fun (x : Team) => x.leaveBar cluster) s.teams }

/-! ### Timelines, batches and counters (R175, R177, R178, R436, R437) -/

/-- TLW (R178): the group parks until the timeline has come so far. -/
def execTlw (a : BitVec 8) (x : BitVec 4) (s : State) : Out :=
  issue (sigOf (.tlw a x)) 0 s fun i s =>
    let u := i.p.team
    match s.team? u with
    | none => .fault .noIssuer
    | some t =>
      match s.engineOf t x.toNat with
      | none => .next (s.trap 0x20 0x06)
      | some g =>
        let n := (s.my i).sget a.toNat
        if n.toNat ≤ g.timeline then .next ((s.clearL1Ctx (s.coreOf u) (s.ctxOf u)).advance i)
        else .next (s.setPark i.p (some (.timeline x.toNat n)))

/-- TLR (R178, R437). -/
def execTlr (d : BitVec 8) (x : BitVec 4) (s : State) : Out :=
  issue (sigOf (.tlr d x)) 0 s fun i s =>
    match s.team? i.p.team with
    | none => .fault .noIssuer
    | some t =>
      match s.engineOf t x.toNat with
      | none => .next (s.trap 0x20 0x06)
      | some g => .next ((s.upd i fun r => r.sput d.toNat (BitVec.ofNat 64 g.timeline)).advance i)

/-- WAIT (R175). -/
def execWait (l st c t r : BitVec 4) (s : State) : Out :=
  issue (sigOf (.wait l st c t r)) 0 s fun i s =>
    if s.within i.p.team i.p.unit l.toNat st.toNat c.toNat t.toNat r.toNat then .next (s.advance i)
    else .next (s.setPark i.p (some (.counters l.toNat st.toNat c.toNat t.toNat r.toNat true)))

/-- TIMELINE_REACHED (R178): the context's words of the core's L1 are cleared and the group resumes after its `tlw`. -/
def execTimelineReached (team g e : Nat) (s : State) : Out :=
  let p : Party := { team := team, unit := g, entry := e }
  match s.team? team, (s.entry p).park with
  | some t, some (.timeline x n) =>
    (match s.engineOf t x with
     | none => .next s
     | some eng =>
       if n.toNat ≤ eng.timeline then
         .next ((s.clearL1Ctx (s.coreOf team) (s.ctxOf team)).resumeAt p ((s.entry p).pc + 4))
       else .next s)
  | _, _ => .next s

/-- BATCH_COMPLETE (R177): the group resumes after its `wbat`. -/
def execBatchComplete (team g e : Nat) (s : State) : Out :=
  let p : Party := { team := team, unit := g, entry := e }
  match (s.entry p).park with
  | some (.batch n) => if s.batchBusy team g n then .next s else .next (s.resumeAt p ((s.entry p).pc + 4))
  | _ => .next s

end Sys2Proof.Machine
end

