-- ==== Sys2Proof/Machine/SumExact.lean ====
section
/-!
DEFINITION. Summary instructions (R466-R471) and exact-sum instructions (R472-R474): their checks and reads at issue, and what
a summary instruction does when its reads have returned.
-/

namespace Sys2Proof.Machine

/-! ### Summary instructions -/

/-- The check of one summary address: the details of ALIGN (R232, R146). -/
def State.sumBad (s : State) (u : Nat) (sp : Bool) (x : U64) (n : Nat) : Option Nat :=
  if x.toNat % n != 0 then some 0
  else if !sp then none
  else if x.toNat / 2 ^ 32 != 0 then some 1
  else
    match s.spadAt u x.toNat n with
    | .bad d => some d
    | .at_ _ _ => none

/-- What the summary instructions have in common (R467): an address of `n` bytes in each of the registers `regs`, the first of
them written where `wr` says; the fragment advances, and it and its group are held until the reads have returned. -/
def sumRead (inst : Instr) (sig : Sig) (p : Pfx) (n : Nat) (sp wr : Bool) (regs : List Nat) (s : State) : Out :=
  issue sig p.mask s fun i s =>
    if i.mask = 0 then .next (s.advance i) else
    let u := i.p.team
    let xs := regs.map fun r => (s.my i).sget r
    let bad := fun (d : Nat) => xs.find? fun x => s.sumBad u sp x n == some d
    match bad 0, bad 1 with
    | some x, _ => .next (s.trap 0x24 0x00 x.toNat)
    | none, some x => .next (s.trap 0x24 0x01 x.toNat)
    | none, none =>
      let as_ := xs.map fun x => (noLane, x.toNat)
      let go := fun (s : State) (l : List (Nat × Nat × Tgt)) =>
        let tag := s.nextId
        let s := s.addPend i .none (.summary inst i.mask) as_ none
        let s := if sp then s.spadSpans tag u i.p.unit (as_.map fun e => (e.2, n))
          else s.readSpans tag u i.p.unit (s.coreOf u) (s.ctxOf u) true (l.map fun e => (e.2.1, n, e.2.2))
        Host.Outcome.next (((s.readsDone tag).advance i).setPark i.p (some (.read tag)))
      if sp then go s []
      else s.access i (as_.take 1) wr false fun s a => s.access i (as_.drop 1) false false fun s b => go s (a ++ b)

/-- SKD (R468). -/
def execSkd (p : Pfx) (d a : BitVec 8) (w sp : Bool) (s : State) : Out :=
  sumRead (.skd p d a w sp) (sigOf (.skd p d a w sp)) p 256 sp true [a.toNat] s
/-- SKH (R468). -/
def execSkh (p : Pfx) (d a : BitVec 8) (w sp : Bool) (s : State) : Out :=
  sumRead (.skh p d a w sp) (sigOf (.skh p d a w sp)) p 256 sp true [a.toNat] s
/-- SKQ (R468). -/
def execSkq (p : Pfx) (d a : BitVec 8) (sp : Bool) (s : State) : Out :=
  sumRead (.skq p d a sp) (sigOf (.skq p d a sp)) p 1024 sp true [a.toNat] s

/-- The kind of a code (R466). -/
def sumKind (code : Nat) : SumKind := if code = 0 then .dcr else if code = 1 then .hhl else .qsk

/-- SKM (R469). -/
def execSkm (p : Pfx) (d a : BitVec 8) (kind : BitVec 2) (sp : Bool) (s : State) : Out :=
  sumRead (.skm p d a kind sp) (sigOf (.skm p d a kind sp)) p (sumKind kind.toNat).size sp true [d.toNat, a.toNat] s
/-- SKQV (R471). -/
def execSkqv (p : Pfx) (d a : BitVec 8) (sp : Bool) (s : State) : Out :=
  sumRead (.skqv p d a sp) (sigOf (.skqv p d a sp)) p 1024 sp false [a.toNat] s
/-- SKEST (R471). -/
def execSkest (p : Pfx) (d a : BitVec 8) (sp : Bool) (s : State) : Out :=
  sumRead (.skest p d a sp) (sigOf (.skest p d a sp)) p 256 sp false [a.toNat] s
/-- SKTOP (R471). -/
def execSktop (p : Pfx) (d a : BitVec 8) (sp : Bool) (s : State) : Out :=
  sumRead (.sktop p d a sp) (sigOf (.sktop p d a sp)) p 256 sp false [a.toNat] s

/-- Write a summary back, as `st` or `sts` writes (R467). -/
def State.sumWrite (s : State) (pd : Pend) (sp : Bool) (a : Nat) (t : List (Nat × Nat × Tgt)) (bs : List Byte) : State :=
  let tag := s.nextId
  let q : Pend := { pd with tag := tag, cls := .store, act := .stores, lanes := [], got := [] }
  let s := { s with pends := s.pends ++ [q] }.bump
  let map := putBytes [] a bs
  if sp then s.spadMap tag pd.team pd.unit map
  else
    let core := s.coreOf pd.team
    let ctx := s.ctxOf pd.team
    let s := if t.all fun e => e.2.2.cached then s.l1Store core ctx map else s.l1Drop core ctx a bs.length
    s.writeMap tag pd.team pd.unit core ctx map fun b => t.head?.map fun e => e.2.2.move b e.2.1

/-- SKSD (R470): the empty summary is written and nothing is read. -/
def execSksd (p : Pfx) (d a : BitVec 8) (kind : BitVec 2) (sp : Bool) (s : State) : Out :=
  issue (sigOf (.sksd p d a kind sp)) p.mask s fun i s =>
    if i.mask = 0 then .next (s.advance i) else
    let u := i.p.team
    let k := sumKind kind.toNat
    let x := (s.my i).sget a.toNat
    let bs := k.empty ((s.my i).sget d.toNat)
    match s.sumBad u sp x k.size with
    | some d => .next (s.trap 0x24 d x.toNat)
    | none =>
      let pd : Pend :=
        { tag := 0, itag := 0, team := u, unit := i.p.unit, entry := i.p.entry, cls := .store, act := .stores, lanes := [], got := [],
          batch := none, org := s.origin i, bad := [] }
      if sp then .next ((s.sumWrite pd true x.toNat [] bs).advance i)
      else s.access i [(noLane, x.toNat)] true false fun s t => .next ((s.sumWrite pd false x.toNat t bs).advance i)

/-- Keys or values of the active lanes in rising lane order (R234). -/
def Grp.laneKeys (g : Grp) (d : Nat) (w : Bool) (mask : LaneMask) : List (Nat × Nat) :=
  (lanesOf mask).map fun l => ((g.vget d l).toNat, if w then (g.vget (d + 1) l).toNat else 1)

/-- What a summary instruction writes: the new bytes of its first summary, or registers of its group; none when a summary is
malformed (R233). -/
inductive SumEffect where
  | bytes (bs : List Byte)
  | regs (l : List (Nat × Nat × Lane))
  | uniform (d : Nat) (x : U64)
  deriving DecidableEq, Repr

/-- The effect of a summary instruction on the bytes it has read (R468-R471): `bs` of its first summary, `src` of a second. -/
def sumEffect (i : Instr) (g : Grp) (mask : LaneMask) (bs src : List Byte) : Option SumEffect :=
  match i with
  | .skd _ d _ w _ =>
    some (.bytes ((g.laneKeys d.toNat w mask).foldl (fun b k =>
      dcrInsert b (BitVec.ofNat 64 (k.1 + if w then k.2 * 2 ^ 32 else 0))) bs))
  | .skh _ d _ w _ =>
    (hhlOf bs).map fun h => .bytes ((g.laneKeys d.toNat w mask).foldl (fun (h : Hhl) k => h.insert k.1 k.2) h).bytes
  | .skq _ d _ _ =>
    (qskOf bs).map fun h => .bytes ((lanesOf mask).foldl (fun (h : Qsk) l => h.insert (g.vget d.toNat l).toNat) h).bytes
  | .skm _ _ _ kind _ => ((sumKind kind.toNat).merge bs src).map .bytes
  | .skqv _ d _ _ =>
    (qskOf bs).map fun h => .regs ((lanesOf mask).map fun l =>
      (d.toNat, l, BitVec.ofNat 32 (h.quantile (g.vget d.toNat l).toNat)))
  | .skest _ d _ _ => some (.uniform d.toNat (BitVec.ofNat 64 (dcrEstimate bs)))
  | .sktop _ d _ _ =>
    (hhlOf bs).map fun h => .regs ((lanesOf mask).flatMap fun l =>
      match h.entries[l]? with
      | some e => [(d.toNat, l, BitVec.ofNat 32 e.key), (d.toNat + 1, l, BitVec.ofNat 32 e.count),
                   (d.toNat + 2, l, BitVec.ofNat 32 e.err)]
      | none => (upto d.toNat 3).map fun r => (r, l, 0))
  | _ => none

/-- The size of the summaries of an instruction, and whether they lie in scratchpads. -/
def sumForm (i : Instr) : Nat × Bool :=
  match i with
  | .skd _ _ _ _ sp => (256, sp)
  | .skh _ _ _ _ sp => (256, sp)
  | .skq _ _ _ sp => (1024, sp)
  | .skm _ _ _ kind sp => ((sumKind kind.toNat).size, sp)
  | .skqv _ _ _ sp => (1024, sp)
  | .skest _ _ _ sp => (256, sp)
  | .sktop _ _ _ sp => (256, sp)
  | _ => (0, false)

/-- A trap of an instruction that has already been passed: the fragment that issued it goes back to it (R293, R296). -/
def State.lateTrap (s : State) (p : Pend) (cause detail addr : Nat) (lanes : LaneMask) : State :=
  s.takeTrapAt p.team p.unit p.entry
    { p.org.info cause detail addr lanes with resume := if p.org.widx.isSome then 0 else p.org.pc }

/-- A fragment that waits for an issued instruction goes on. -/
def State.wakeRead (s : State) (u unit tag : Nat) : State :=
  let wake := fun (e : Entry) => if e.park = some (Park.read tag) then { e with park := none } else e
  s.updGrp u unit fun g => { g with split := g.split.map wake }

/-- The reads of a summary instruction have returned (R467): its effect, or its trap. A page of the target that is draining
holds the write back, or brings a replay (R83). -/
def State.sumDone (s : State) (p : Pend) (i : Instr) (mask : LaneMask) (again : Ev) : State :=
  let (n, sp) := sumForm i
  let at_ := fun k => ((p.lanes[k]?).getD (0, 0)).2
  let g := s.grp p.team p.unit
  let drop := ({ s with pends := s.pends.filter fun q => q.tag != p.tag }.wakeRead p.team p.unit p.tag)
  match sumEffect i g mask (getBytes p.got (at_ 0) n) (getBytes p.got (at_ 1) n) with
  | none => drop.lateTrap p 0x20 0x05 (at_ 0) 0
  | some (.regs l) => drop.putLanes p.team p.unit l fun g => g.vsets l
  | some (.uniform d x) => drop.putUniform p.team p.unit d x
  | some (.bytes bs) =>
    if sp then drop.sumWrite p true (at_ 0) [] bs
    else
      match s.translateFor p.team p.unit (at_ 0) true with
      | .ok t => drop.sumWrite p false (at_ 0) [(0, at_ 0, t)] bs
      | .drain true => drop.setPark { team := p.team, unit := p.unit, entry := p.entry } (some (.migrating (at_ 0)))
      | .drain false => s.pending [again]
      | .absent => s.pending [again]
      | .bad st => drop.endAccess p.team p.unit p.org st (at_ 0) 0
      | .miss => drop.endAccess p.team p.unit p.org 0x10 (at_ 0) 0
      | .lost => drop.endAccess p.team p.unit p.org 0x11 (at_ 0) 0
      | .double => drop.endAccess p.team p.unit p.org 0x13 (at_ 0) 0

/-! ### Exact sums (R472-R474) -/

/-- The half-lines of the active lanes: (lane, address). -/
def halfAddrs (x : Nat) (v : Bool) (mask : LaneMask) : List (Nat × Nat) :=
  (lanesOf mask).map fun l => (l, if v then x + 64 * l else x)

/-- The checks of an exact-sum instruction (R472): under SP, the half-lines too. -/
def State.halfTrap (s : State) (i : Iss) (x : U64) (v sp : Bool) : Option State :=
  if x.toNat % 64 != 0 then some (s.trap 0x24 0x00 x.toNat i.mask)
  else if !sp then none
  else if x.toNat / 2 ^ 32 != 0 then some (s.trap 0x24 0x01 x.toNat i.mask)
  else
    let bad := (halfAddrs x.toNat v i.mask).filterMap fun e => match s.spadAt i.p.team (e.2 % 2 ^ 32) 64 with
      | .bad d => some (e.1, e.2, d)
      | .at_ _ _ => none
    if bad.isEmpty then none else some (s.alignTrap bad)

/-- Lanes that name one half-line together: (address, lanes). -/
def byHalf (l : List (Nat × Nat)) : List (Nat × List Nat) :=
  (distinct (l.map fun e => e.2)).map fun a => (a, (l.filter fun e => e.2 == a).map fun e => e.1)

/-- An exact-sum instruction: its checks, its translation, then one request for each half-line (`req` sends it). -/
def halfOp (sig : Sig) (p : Pfx) (a : BitVec 8) (v sp wr keep region : Bool) (cls : Cls) (act : PendAct)
    (req : Grp → Nat → Iss → State → Nat → List Nat → Tgt → State) (s : State) : Out :=
  issue sig p.mask s fun i s =>
    let u := i.p.team
    let fin := fun (s : State) => Host.Outcome.next (if region then s.advanceRegion i else s.advance i)
    if keep && s.count u i.p.unit .load != 0 then .next s
    else if i.mask = 0 then fin s
    else
      let g := s.my i
      let x := g.sget a.toNat
      match s.halfTrap i x v sp with
      | some s => .next s
      | none =>
        let l := halfAddrs x.toNat v i.mask
        let go := fun (s : State) (tgt : Nat → Tgt) =>
          let tag := s.nextId
          let s := s.addPend i cls act l none
          fin (((byHalf l).foldl (fun s e => req g tag i s e.1 e.2 (tgt e.1)) s).readsDone tag)
        if sp then go s fun a => s.spadTgt u (a % 2 ^ 32) 64
        else s.access i l wr keep fun s tr => go s fun a =>
          match tr.find? fun e => e.2.1 == a with
          | some e => e.2.2
          | none => .spad 0 0

/-- Send one half-line request; a write also takes the words out of the core's L1 (R153, R472). -/
def State.halfReq (s : State) (i : Iss) (tag a : Nat) (t : Tgt) (kind : ReqKind) (drop : Bool) : State :=
  let u := i.p.team
  let core := s.coreOf u
  let s := if drop then (match t with
    | .spad _ _ => s
    | _ => s.l1Drop core (s.ctxOf u) a 64) else s
  s.addReq tag u i.p.unit core (s.ctxOf u) a 64 t kind

/-- XADD (R231, R473): one request to a half-line adds all its lanes in one step. -/
def execXadd (p : Pfx) (d a : BitVec 8) (v sp : Bool) (s : State) : Out :=
  halfOp (sigOf (.xadd p d a v sp)) p a v sp true true true .store .stores (fun g tag i s x ls t =>
    s.halfReq i tag x t (.xadd (ls.map fun l => g.vget d.toNat l)) true) s

/-- XRND (R473). -/
def execXrnd (p : Pfx) (d a : BitVec 8) (v sp : Bool) (s : State) : Out :=
  halfOp (sigOf (.xrnd p d a v sp)) p a v sp false false false .load (.round d.toNat v)
    (fun _ tag i s x _ t => s.halfReq i tag x t (.read []) false) s

/-- XCLR (R473). -/
def execXclr (p : Pfx) (a : BitVec 8) (v sp : Bool) (s : State) : Out :=
  halfOp (sigOf (.xclr p a v sp)) p a v sp true false false .store .stores
    (fun _ tag i s x _ t => s.halfReq i tag x t (.write (pairsFrom 0 (List.replicate 64 0))) true) s

end Sys2Proof.Machine
end

