-- ==== Sys2Proof/Machine/Tideway.lean ====
section
/-!
DEFINITION. The Tideway at its stations (R255-R265, R444-R448): the instructions that join a station's queue, the service of
a passing slot, and the event rows SLOT_PASS and NOTAG.
-/

namespace Sys2Proof.Machine

/-! ### Rewrites (R261) -/

/-- The width of a rewrite, and the bytes of its operand. -/
def rwrWidth (code : Nat) : Nat :=
  match code with
  | 1 => 8
  | 6 => 8
  | 7 => 8
  | 8 => 64
  | _ => 4

/-- The bytes of a rewrite's operand. -/
def rwrOperand (code : Nat) : Nat := if code = 7 then 16 else rwrWidth code

/-- The new value that a rewrite gives the old bytes (R261). -/
def rwrNew (code : Nat) (old x : List Byte) : List Byte :=
  let o := leNat old
  let y := leNat (x.take (rwrWidth code))
  let a := BitVec.ofNat 32 o
  let b := BitVec.ofNat 32 y
  match code with
  | 0 => leBytes 4 (o + y)
  | 1 => leBytes 8 (o + y)
  | 2 => if b.slt a then leBytes 4 y else old
  | 3 => if a.slt b then leBytes 4 y else old
  | 4 => leBytes 4 (min o y)
  | 5 => leBytes 4 (max o y)
  | 6 => leBytes 8 y
  | 7 => if o = y then leBytes 8 (field x 8 8) else old
  | 8 => List.zipWith (fun p q => if p.toNat < q.toNat then q else p) old x
  | _ => leBytes 4 (fp32.fadd 0 o y)

/-! ### Operations leave the queue -/

/-- The oldest operation of each group in a station's queue has its window running (R262). -/
def startWindows (clk : Nat) (l : List TideOp) : List TideOp :=
  (l.foldl (fun (a : List TideOp) o =>
    let oldest := !a.any fun x => x.team == o.team && x.unit == o.unit
    a ++ [if oldest && o.win.isNone then { o with win := some clk } else o]) [])

/-- Take an operation out of a station's queue. -/
def State.leaveStation (s : State) (core id : Nat) : State :=
  s.updCore core fun c => { c with station := startWindows s.clk (c.station.filter fun o => o.id != id) }

/-- Put payload bytes into uniform registers from `r`, eight to each (R446). -/
def Grp.putPayload (g : Grp) (r : Nat) (bs : List Byte) : Grp :=
  (upto 0 (bs.length / 8)).foldl (fun (g : Grp) i => g.sput (r + i) (BitVec.ofNat 64 (field bs (8 * i) 8))) g

/-- What an operation returns into registers from regX (R446): a 4-byte value is zero-extended. -/
def Grp.putReturn (g : Grp) (r : Nat) (bs : List Byte) : Grp :=
  if bs.length = 4 then g.sput r (BitVec.ofNat 64 (leNat bs)) else g.putPayload r bs

/-- The results of a completed operation (R445, R446). Where the tag register is one of the return's registers, the manual
does not say which write is the last. -/
def Grp.tideResult (g : Grp) (o : TideOp) (flag : Nat) (ret : List Byte) (last : Bool) : Grp :=
  let tag := BitVec.ofNat 64 ((g.sget o.regA).toNat % 2 ^ 22 + flag * 2 ^ 32)
  if last then (g.putReturn o.regX ret).sput o.regA tag else (g.sput o.regA tag).putReturn o.regX ret

/-- TWST.NOTAG of a group is set (R262); of a trapped group, in its image as well. -/
def State.setNotag (s : State) (u unit : Nat) : State :=
  (s.updGrp u unit fun g => { g with notag := true }).putImage u unit 56 [1]

/-- An operation completes with a flag and a return (R260, R262, R445, R447): its group goes on after it, a region entry
falling there. -/
def State.endTide (s : State) (core : Nat) (o : TideOp) (flag : Nat) (ret : List Byte) : State :=
  let s := s.leaveStation core o.id
  if o.returns then
    let p : Party := { team := o.team, unit := o.unit, entry := o.entry }
    if (s.entry p).park != some (.tide o.id) then s else
    let pc := (s.entry p).pc + 4
    let last := Config.freePick s.free % 2 == 0
    let s := (s.draw 1).updGrp o.team o.unit fun g => (g.tideResult o flag ret last).regionAt pc
    s.resumeAt p pc
  else if flag = 0 then s else s.setNotag o.team o.unit

/-! ### Slots -/

/-- Whether an operation matches a slot (R259): a released slot keeps its header until it passes a junction (R258). -/
def TideOp.matches_ (o : TideOp) (x : Slot) : Bool :=
  match o.kind with
  | .board => x.asg && !x.rel && x.launch == o.launch && !x.occ
  | _ => x.asg && x.occ && x.ctx == o.ctx && x.tag == o.tag

/-- What an operation makes of a slot, and what it returns (R260, R261). -/
def TideOp.apply (o : TideOp) (x : Slot) : Slot × List Byte :=
  let pay := leBytes 64 x.payload.toNat
  match o.kind with
  | .board => ({ x with occ := true, tag := o.tag, payload := BitVec.ofNat 512 (leNat o.x) }, [])
  | .alight => ({ x with occ := false, tag := 0, payload := 0 }, pay)
  | .catch_ => (x, pay)
  | .rwr code _ =>
    let old := slice pay o.off (rwrWidth code)
    ({ x with payload := BitVec.ofNat 512 (leNat (splice pay o.off (rwrNew code old o.x))) }, old)

/-- Whether an operation is a catch. -/
def TideOp.isCatch (o : TideOp) : Bool := o.kind == .catch_

/-- Update a slot of the ring. -/
def State.updSlot (s : State) (n : Nat) (f : Slot → Slot) : State :=
  { s with ring := { s.ring with slots := mapIf (fun (x : Slot) => x.n == n) f s.ring.slots } }

/-- Serve a station's operations on the slot numbered `n` (R259): the operations still to be looked at, and the writes so
far. -/
def State.serveSlot (s : State) (core n : Nat) : List TideOp → Nat → State
  | [], _ => s
  | o :: rest, writes =>
    let ahead := (s.core core).station.takeWhile fun x => x.id != o.id
    match s.ring.slots.find? fun x => x.n == n with
    | none => s
    | some x =>
      if ahead.any (fun y => y.team == o.team && y.unit == o.unit) || !o.matches_ x then
        s.serveSlot core n rest writes
      else if !o.isCatch && writes = 4 then
        let again := fun (y : TideOp) => { y with win := some s.clk }
        let put := fun (c : Core) => { c with station := mapIf (fun (y : TideOp) => y.id == o.id) again c.station }
        (s.updCore core put).serveSlot core n rest writes
      else
        let r := o.apply x
        ((s.updSlot n fun _ => r.1).endTide core o 0 r.2).serveSlot core n rest (if o.isCatch then writes else writes + 1)

/-- SLOT_PASS (R259, R264): the slot at a core's station. -/
def execSlotPass (core : Nat) (s : State) : Out :=
  .next (s.serveSlot core (slotAt s.ring.t (stationPos core)) (s.core core).station 0)

/-- NOTAG (R262): an operation whose window has passed; a board ends with NOSLOT. -/
def execNotag (core tid : Nat) (s : State) : Out :=
  match (s.core core).station.find? fun o => o.id == tid with
  | none => .next s
  | some o =>
    match o.win with
    | none => .next s
    | some w =>
      if s.clk < w + 2176 then .next s
      else .next (s.endTide core o (if o.kind == .board then 2 else 1) [])

/-! ### Instructions (R444-R448) -/

/-- A Tideway instruction joins its station's queue, or waits at issue while it is full (R259, R447). -/
def tideJoin (sig : Sig) (kind : TideKind) (d a : Nat) (n : Nat) (s : State) : Out :=
  issue sig 0 s fun i s =>
    let u := i.p.team
    let core := s.coreOf u
    let g := s.my i
    let w := (g.sget a).toNat
    let off := bits w 16 6
    let bytes := ((upto d (ceilDiv n 8)).flatMap fun r => leBytes 8 (g.sget r).toNat).take n
    let bad := match kind with
      | .rwr code _ => off % rwrWidth code != 0
      | _ => false
    let none_ := kind == .board && (match s.launchOf u with
      | some l => l.lr.ring == 0
      | none => true)
    let o : TideOp :=
      { id := s.nextId, ctx := s.ctxOf u, launch := s.launchIdOf u, team := u, unit := i.p.unit, entry := i.p.entry, kind := kind,
        tag := BitVec.ofNat 16 w, off := off,
        x := bytes, regA := a, regX := d, win := none }
    if bad then .next (s.trap 0x24 0x00 off)
    else if none_ then .next ((s.upd i fun g => g.tideResult o 2 [] true).advanceRegion i)
    else if 16 ≤ (s.core core).station.length then .next s
    else
      let s := s.bump.updCore core fun c => { c with station := startWindows s.clk (c.station ++ [o]) }
      if o.returns then .next (s.setPark i.p (some (.tide o.id))) else .next (s.advanceRegion i)

/-- BOARD (R260). -/
def execBoard (d a : BitVec 8) (s : State) : Out := tideJoin (sigOf (.board d a)) .board d.toNat a.toNat 64 s
/-- ALIGHT (R260). -/
def execAlight (d a : BitVec 8) (s : State) : Out := tideJoin (sigOf (.alight d a)) .alight d.toNat a.toNat 0 s
/-- CATCH (R260). -/
def execCatch (d a : BitVec 8) (s : State) : Out := tideJoin (sigOf (.catch d a)) .catch_ d.toNat a.toNat 0 s
/-- RWR (R261). -/
def execRwr (d a : BitVec 8) (x : BitVec 4) (s : State) : Out :=
  tideJoin (sigOf (.rwr d a x)) (.rwr x.toNat false) d.toNat a.toNat (rwrOperand x.toNat) s
/-- RWR_R (R261). -/
def execRwrR (d a : BitVec 8) (x : BitVec 4) (s : State) : Out :=
  tideJoin (sigOf (.rwrR d a x)) (.rwr x.toNat true) d.toNat a.toNat (rwrOperand x.toNat) s

/-- MSTONE (R448): the station's copy of TWREV. -/
def execMstone (d : BitVec 8) (s : State) : Out :=
  issue (sigOf (.mstone d)) 0 s fun i s =>
    let v := twrev s.ring.t (s.coreOf i.p.team)
    .next ((s.upd i fun g => g.sput d.toNat (BitVec.ofNat 64 v)).advance i)

end Sys2Proof.Machine
end

