-- ==== Sys2Proof/Machine/Remote.lean ====
section
/-!
DEFINITION. Remote opcodes at the issuing group (R186-R188, R425-R430): the checks at issue in their order, operands,
requests; definitions, and the state that `rstat` reads. What a unit does with a granule is in `Machine/Units.lean`.
-/

namespace Sys2Proof.Machine

/-! ### Requests (R425-R428) -/

/-- A ROP_FAULT that traps at issue (R187, R428): the report's fields known there. -/
def State.ropTrap (s : State) (i : Iss) (status : BitVec 8) (id : Nat) (gen : BitVec 8) (fpol addr : Nat) (lanes : LaneMask) :
    State :=
  match s.cur with
  | none => s
  | some c =>
    let frop := status.toNat + id * 2 ^ 8 + gen.toNat * 2 ^ 14 + fpol * 2 ^ 22 + lowLane lanes * 2 ^ 24
    s.takeTrap i.p { trapInfo (s.my i) c 0x27 status.toNat addr lanes with frop := BitVec.ofNat 64 frop }

/-- Whether `n` registers from `d` lie wholly in the team's share or wholly in w0-w7 (R428, R467). -/
def regsOk (vregs d n : Nat) : Bool := if d < 248 then d + n ≤ 248 && d + n ≤ vregs else d + n ≤ 256

/-- The address that a lane's register pair names (R425). -/
def Grp.pairAddr (g : Grp) (a i : Nat) : Nat := (g.vget a i).toNat + (g.vget (a + 1) i).toNat * 2 ^ 32

/-- The bytes of `n` registers of a lane from `d` (R426). -/
def Grp.regBytes (g : Grp) (d n i : Nat) : List Byte := (upto d n).flatMap fun r => leBytes 4 (g.vget r i).toNat

/-- A scratchpad operand of `n` bytes at `a`: a multiple of 4 that keeps to R146 (R426). -/
def State.spadSpanAt (s : State) (u a n : Nat) : Option (Nat × Nat) :=
  match s.spadAt u a 4 with
  | .bad _ => none
  | .at_ t off =>
    match s.team? t with
    | some x => if off + n ≤ x.spadBytes then some (t, off) else none
    | none => none

/-- Whether a group has a scratchpad write to a team on its way, which a later access may not pass (R147). -/
def State.spadBusy (s : State) (u unit t : Nat) : Bool :=
  s.reqs.any fun r => r.team == u && r.unit == unit && r.phase == .sent && (match r.tgt with
    | .spad x _ => x == t
    | _ => false)

/-- Whether some register from `d` is owed to the unit (R103). -/
def State.owedV (s : State) (u unit d n : Nat) : Bool :=
  s.pends.any fun p => p.team == u && p.unit == unit && p.owes.v.any fun r => d ≤ r && r < d + n

/-- The granules of one lane's request (R186). `addr` is the start address, `xs` the operand, `ns` the next number. -/
def granules (o : Opcode) (addr ng : Nat) (xs : List Byte) (tgt : Nat → Tgt) (src : Nat → Option Tgt) (ns : Nat) : List Gran :=
  (upto 0 ng).map fun k =>
    { va := addr + k * o.gran, size := o.gran, tgt := tgt k, x := slice xs (k * o.opsz) o.opsz, src := src k, phase := .sent,
      sent := k == 0 || o.fpol != 0, txn := ns + k, status := 0, ret := [], arr := 0 }

/-- What stops a remote instruction at issue before its addresses are translated (R428, checks 1 to 3): a status, or the
lanes that break alignment. -/
inductive RopBad where
  | status (st : BitVec 8)
  | align (l : List (Nat × Nat × Nat))
  deriving DecidableEq, Repr

/-- The operand bytes of a lane: registers, or scratchpad bytes for `ropw` (R426). -/
def State.ropOperand (s : State) (i : Iss) (spadOp : Bool) (d n l : Nat) : List Byte :=
  if spadOp then
    match s.spadSpanAt i.p.team ((s.my i).vget d l).toNat n with
    | some (t, off) => s.spadRead t off n
    | none => []
  else (s.my i).regBytes d (ceilDiv n 4) l

/-- The checks 1 to 3 of R428. `spadOp` marks `ropw`. -/
def State.ropCheck (s : State) (i : Iss) (o : Option Opcode) (ret spadOp : Bool) (d a ng vregs : Nat) : Option RopBad :=
  match o with
  | none => some (.status 0x35)
  | some o =>
    let g := s.my i
    let rc := if spadOp then 0 else ceilDiv (ng * o.opsz) 4
    let rt := if ret then ceilDiv (ng * o.rb) 4 else 0
    if !o.shapeOk ret || 8 < max rc rt || !regsOk vregs d (max rc rt) || (spadOp && 1024 < ng * o.opsz) then
      some (.status 0x36)
    else
      let bad := (lanesOf i.mask).filterMap fun l =>
        let x := g.pairAddr a l
        if x % o.align != 0 || o.gran < x % o.gran + o.window then some (l, x, 0)
        else if spadOp && o.opsz != 0 && (s.spadSpanAt i.p.team (g.vget d l).toNat (ng * o.opsz)).isNone then
          some (l, (g.vget d l).toNat, 1)
        else if o.builtin && 13 ≤ o.id && (upto 0 ng).any (fun k =>
            field (s.ropOperand i spadOp d (ng * o.opsz) l) (8 * k) 8 % builtinFoot o.id != 0) then some (l, x, 0)
        else none
      if bad.isEmpty then none else some (.align bad)

/-- The teams whose scratchpads a `ropw` reads. -/
def State.ropSpads (s : State) (i : Iss) (d n : Nat) : List Nat :=
  (lanesOf i.mask).filterMap fun l => (s.spadSpanAt i.p.team ((s.my i).vget d l).toNat n).map (·.1)

/-- The signature of an instruction as selection sees it: a remote instruction reads and marks the registers that its definition
gives it too (R105, R426, R427). -/
def State.sigAt (s : State) (u : Nat) (j : Instr) : Sig :=
  let more := fun (d id ng : Nat) (ret : Bool) =>
    match s.opcode? (s.ctxOf u) id with
    | none => sigOf j
    | some (o, _) =>
      let rc := upto (d + 1) (ceilDiv ((ng + 1) * o.opsz) 4 - 1)
      let rt := if ret then upto (d + 1) (ceilDiv ((ng + 1) * o.rb) 4 - 1) else []
      { sigOf j with vr := (sigOf j).vr ++ rc, vw := (sigOf j).vw ++ rt }
  match j with
  | .rop _ d _ id ng => more d.toNat id.toNat ng.toNat false
  | .ropr _ d _ id ng => more d.toNat id.toNat ng.toNat true
  | _ => sigOf j

/-- Send a remote op request of one lane. -/
def State.sendRop (s : State) (i : Iss) (tag : Nat) (o : Opcode) (gen : BitVec 8) (ret : Bool) (d lane ng addr : Nat)
    (xs : List Byte) (tgt : Nat → Tgt) (src : Nat → Option Tgt) : State :=
  let org := s.origin i
  let id := s.nextId
  let r : Rop :=
    { id := id, tag := tag, out := false, team := i.p.team, unit := i.p.unit, core := s.coreOf i.p.team, ctx := s.ctxOf i.p.team,
      lane := lane, op := o.id, gen := gen, ret := ret, fpol := o.fpol, d := d, rb := o.rb,
      grans := granules o addr ng xs tgt src (id + 1), ipc := org.pc,
      emitted := org.emitted, seq := org.seq, epc := org.epc, widx := org.widx }
  let s := { s with rops := s.rops ++ [r], nextId := id + 1 + ng }
  s.pending ((upto 0 ng).filterMap fun k => if k = 0 || o.fpol != 0 then some (.remoteOpApply id k 0) else none)

/-- The addresses that a request's granules and sources have translated: (lane, address). -/
def ropAddrs (o : Opcode) (ng : Nat) (l : List (Nat × Nat)) : List (Nat × Nat) :=
  l.flatMap fun e => (upto 0 ng).map fun k => (e.1, (e.2 + k * o.gran) % 2 ^ 64)

/-- A remote instruction (R428). -/
def remoteOp (sig : Sig) (p : Pfx) (d a : BitVec 8) (id : BitVec 6) (ng : BitVec 3) (ret spadOp : Bool) (s : State) : Out :=
  issue sig p.mask s fun i s =>
    let u := i.p.team
    let ctx := s.ctxOf u
    let n := ng.toNat + 1
    let vregs := if i.p.unit = 16 then 64 else match s.team? u with
      | some t => t.vregs
      | none => 0
    let found := s.opcode? ctx id.toNat
    let g := s.my i
    if i.mask = 0 then .next (s.advanceRegion i)
    else if spadOp && found.any (fun f => (s.ropSpads i d.toNat (n * f.1.opsz)).any (s.spadBusy u i.p.unit)) then .next s else
    match s.ropCheck i (found.map (·.1)) ret spadOp d.toNat a.toNat n vregs, found with
    | some (.status st), _ =>
      .next (s.ropTrap i st id.toNat (s.opGen ctx id.toNat) (match found with
        | some f => f.1.fpol
        | none => 0) (g.pairAddr a.toNat (lowLane i.mask)) i.mask)
    | some (.align bad), _ => .next (s.alignTrap bad)
    | none, none => .fault .noIssuer
    | none, some (o, gen) =>
      let total := n * o.opsz
      let rc := if spadOp then 1 else ceilDiv total 4
      let marks := max (if ret then ceilDiv (n * o.rb) 4 else 0) (if ret then rc else 0)
      if s.owedV u i.p.unit d.toNat (max rc marks) then .next s else
      let lanes := (lanesOf i.mask).map fun l => (l, g.pairAddr a.toNat l)
      let merges := o.builtin && 13 ≤ o.id
      let xs := lanes.map fun e => (e.1, s.ropOperand i spadOp d.toNat total e.1)
      let srcs := if merges then xs.flatMap fun e => (upto 0 n).map fun k => (e.1, field e.2 (8 * k) 8) else []
      s.access i (ropAddrs o n lanes) true false fun s tr =>
      s.access i srcs false false fun s sr =>
        let tag := s.nextId
        let s := s.addPend i .rop (.remote ret d.toNat marks) [] none
        let s := tr.foldl (fun s e => s.l1Drop (s.coreOf u) ctx (e.2.1 / o.gran * o.gran) o.gran) s
        let at_ := fun (l : List (Nat × Nat × Tgt)) (lane va : Nat) =>
          match l.find? fun e => e.1 == lane && e.2.1 == va with
          | some e => some e.2.2
          | none => none
        let s := lanes.foldl (fun s e =>
          let x := (xs.find? fun y => y.1 == e.1).map (·.2)
          let x := x.getD []
          s.sendRop i tag o gen ret d.toNat e.1 n e.2 x
            (fun k => (at_ tr e.1 ((e.2 + k * o.gran) % 2 ^ 64)).getD (.spad 0 0))
            (fun k => if merges then at_ sr e.1 (field x (8 * k) 8) else none)) s
        .next (s.advanceRegion i)

/-- ROP (R425, R428). -/
def execRop (p : Pfx) (d a : BitVec 8) (id : BitVec 6) (ng : BitVec 3) (s : State) : Out :=
  remoteOp (sigOf (.rop p d a id ng)) p d a id ng false false s
/-- ROPR (R427, R428). -/
def execRopr (p : Pfx) (d a : BitVec 8) (id : BitVec 6) (ng : BitVec 3) (s : State) : Out :=
  remoteOp (sigOf (.ropr p d a id ng)) p d a id ng true false s
/-- ROPW (R426, R428). -/
def execRopw (p : Pfx) (d a : BitVec 8) (id : BitVec 6) (ng : BitVec 3) (s : State) : Out :=
  remoteOp (sigOf (.ropw p d a id ng)) p d a id ng false true s

/-! ### Definitions (R188, R429, R430) -/

/-- Replace an entry of a context's opcode table; its generation increments (R188). -/
def State.setOp (s : State) (ctx id : Nat) (defn : Option (List Byte)) : State :=
  let e : Nat × OpEntry := (id, { defn := defn, gen := s.opGen ctx id + 1 })
  s.updCtx ctx fun c => { c with ops := e :: c.ops.filter fun x => x.1 != id }

/-- The result word of `rdef` and `rdel` (R429). -/
def defResult (st : BitVec 8) (gen : BitVec 8) : U64 := BitVec.ofNat 64 (st.toNat + gen.toNat * 2 ^ 8)

/-- The definition that an entry holds, if it holds one. -/
def State.defnOf (s : State) (ctx id : Nat) : Option (List Byte) :=
  if id < 16 then none else (s.opcode? ctx id).map (·.1.defn)

/-- RDEF (R429): the fragment waits for its record. -/
def execRdef (d a : BitVec 8) (s : State) : Out :=
  issue (sigOf (.rdef d a)) 0 s fun i s =>
    let x := ((s.my i).sget a.toNat).toNat
    let id := ((s.my i).sget d.toNat).toNat % 64
    if x % 64 != 0 then .next (s.trap 0x24 0x00 x) else
    s.access i [(noLane, x)] false false fun s tr =>
      let tag := s.nextId
      let u := i.p.team
      let s := s.addPend i .none (.define d.toNat id) [(noLane, x)] none
      let s := s.readSpans tag u i.p.unit (s.coreOf u) (s.ctxOf u) false (tr.map fun e => (e.2.1, 64, e.2.2))
      .next ((s.advance i).setPark i.p (some (.read tag)))

/-- RDEL (R430): the entry becomes undefined, and the fragment waits until units have dropped the old definition. -/
def execRdel (d : BitVec 8) (s : State) : Out :=
  issue (sigOf (.rdel d)) 0 s fun i s =>
    let id := ((s.my i).sget d.toNat).toNat % 64
    let ctx := s.ctxOf i.p.team
    let gen := s.opGen ctx id
    let old := s.defnOf ctx id
    let (s, r) := if id < 16 then (s, defResult rdefOp 0) else (s.setOp ctx id none, defResult 0 (gen + 1))
    let tag := s.nextId
    let s := s.addPend i .none (.defining d.toNat id old gen r) [] none
    .next (((s.pending [.rdefCompletion tag]).advance i).setPark i.p (some (.read tag)))

/-- The entry state of R209. -/
def State.entryState (s : State) (ctx id : Nat) : Nat :=
  match s.opcode? ctx id with
  | some (o, gen) => 1 + b2n o.builtin * 2 + gen.toNat * 4 + o.hdr * 2 ^ 16
  | none => (s.opGen ctx id).toNat * 4

/-- RSTAT (R430). -/
def execRstat (d a : BitVec 8) (s : State) : Out :=
  issue (sigOf (.rstat d a)) 0 s fun i s =>
    let id := ((s.my i).sget a.toNat).toNat % 64
    .next ((s.upd i fun g => g.sput d.toNat (BitVec.ofNat 64 (s.entryState (s.ctxOf i.p.team) id))).advance i)

/-- The remote statistics of R209. -/
def Ctx.remoteStats (c : Ctx) : Nat :=
  c.skipped.toNat + c.poisoned.toNat * 2 ^ 16 + c.resets.toNat * 2 ^ 32 + c.combined.toNat * 2 ^ 48

/-- RSTAT_STAT (R430). -/
def execRstatStat (d : BitVec 8) (s : State) : Out :=
  issue (sigOf (.rstatStat d)) 0 s fun i s =>
    let v := match s.ctx? (s.ctxOf i.p.team) with
      | some c => c.remoteStats
      | none => 0
    .next ((s.upd i fun g => g.sput d.toNat (BitVec.ofNat 64 v)).advance i)

end Sys2Proof.Machine
end

