-- ==== Sys2Proof/Machine/Units.lean ====
section
/-!
DEFINITION. Update units and pseudo-channels (R159-R163, R185-R210): applying a granule, folding it into a partial, the
status that returns and the fault policy, and the event rows REMOTE_OP_APPLY, ROP_STATUS_RETURN, RDEF_COMPLETION,
COMBINING_AGE_OUT, LOCK_LAPSE, CUU_WATCHDOG, IDLE_TIMER, CHANNEL_POWER_ENTRY and CHANNEL_WAKE.
-/

namespace Sys2Proof.Machine

/-! ### Applying a granule (R185, R194, R203, R204, R251) -/

/-- What a unit is asked to do: the opcode, the generation it came with, operand, source summary and the granule's place. -/
structure UnitJob where
  who   : Asker                -- the tuple of what it reads (R158)
  ctx   : Nat
  launch : Nat                 -- whose traffic it is (R94); 0 for a peer's
  op    : Opcode
  gen   : Option (BitVec 8)
  x     : List Byte
  src   : Option Tgt
  carry : Option (List Byte)   -- source bytes that a peer's message carried (R210)
  dpa   : Nat
  uam   : Bool
  comb  : Bool                 -- the request is combinable (R196)
  resid : Nat
  deriving DecidableEq, Repr

/-- The granule's first byte. -/
def UnitJob.base (j : UnitJob) : Nat := j.dpa / j.op.gran * j.op.gran

/-- The source summary's bytes: carried, or read at its home (R189, R251). -/
def State.sourceOf (s : State) (j : UnitJob) : State × List Byte :=
  match j.carry with
  | some bs => (s, bs)
  | none =>
    match j.src with
    | some (.home d uam _) =>
      let s := s.mergeHeld d j.op.gran
      (s, s.pointRead j.ctx d uam j.op.gran)
    | _ => (s, [])

/-- Whether the source overlaps the target (R251). -/
def UnitJob.overlaps (j : UnitJob) : Bool :=
  match j.src with
  | some (.home d _ _) => d < j.base + j.op.gran && j.base < d + j.op.gran
  | _ => false

/-- Whether the source, on its own package, holds a poisoned word (R204). -/
def State.sourcePoisoned (s : State) (j : UnitJob) : Bool :=
  match j.src with
  | some (.home d uam _) => s.spanBad j.ctx d uam j.op.gran
  | _ => false

/-- Whether the home of a merge's source can be read now (R189): `n` bytes at `src`. `ok` says whether all else is to be had; the tuples
of an update-at-memory source then leave the channels. -/
def State.sourceReady (s : State) (who : Asker) (ctx launch n : Nat) (src : Option Tgt) (ok : Bool) : State × Bool :=
  match src with
  | some (.home d uam _) =>
    let r := s.spanReady who ctx launch d n uam false
    (if uam && ok && r.2 then r.1.spanDone who d n else r.1, ok && r.2)
  | _ => (s, ok)

/-- Whether what a job reads is to be had now (R155, R158, R160, R162): the granule's lines in their slices, and the source's
lines, which an ordinary read reaches (R189). -/
def State.jobReady (s : State) (j : UnitJob) : State × Bool :=
  let own := if j.uam then (s, true) else s.spanReady j.who j.ctx j.launch j.base j.op.gran false false
  if j.overlaps || j.carry.isSome then own else own.1.sourceReady j.who j.ctx j.launch j.op.gran j.src own.2

/-- Whether the page selects no unit for the job (R185, R206). -/
def UnitJob.unmapped (j : UnitJob) : Bool :=
  (!j.op.builtin && defTgt j.op.defn != j.uam) || (match j.src with
    | some (.peer _ _) => true
    | _ => false)

/-- The lines of a granule, for poisoning (R204). -/
def UnitJob.lineSpan (j : UnitJob) : Nat × Nat :=
  let lo := j.base / 128 * 128
  (lo, (j.base + j.op.gran + 127) / 128 * 128 - lo)

/-- What is merged before a granule is applied (R198-R200): every held contribution, but before a combinable request only the
home's own entry; its visitor partials may stay. -/
def State.mergeBefore (s : State) (j : UnitJob) : State :=
  if j.comb then
    (s.combs.filter fun (c : Comb) => c.line == j.base / 128 && c.slice == homeOf j.dpa).foldl (fun s c => s.mergeComb c) s
  else s.mergeHeld j.base j.op.gran

/-- A unit applies one granule (R194): the new state, the status of R206, the return. A definition that stores nothing commits
nothing. A merge whose source overlaps its target answers ROP_SHAPE before a poisoned word is looked for (DESIGN CHOICE, log 131). -/
def State.unitApply (s : State) (j : UnitJob) : State × BitVec 8 × List Byte :=
  if j.unmapped then (s, 0x31, [])
  else
    let s := s.mergeBefore j
    if j.overlaps then (s, 0x36, [])
    else if s.spanBad j.ctx j.base j.uam j.op.gran || s.sourcePoisoned j then (s, 0x32, [])
    else if j.uam && 2 ≤ j.resid then
      ({ s with mem := s.mem.taint j.lineSpan.1 j.lineSpan.2 }, 0x33, [])
    else
      let (s, src) := s.sourceOf j
      match j.op.apply (j.dpa - j.base) j.x src (s.pointRead j.ctx j.base j.uam j.op.gran) with
      | none => (s, 0x36, [])
      | some (new, ret) =>
        (if j.op.stores then s.pointWrite j.ctx j.launch j.base j.uam (pairsFrom 0 new) else s, 0, ret)

/-- The old definition that a unit may still hold while an `rdef` or `rdel` of the entry has not completed (R188, R429). -/
def State.oldOpcode (s : State) (ctx id : Nat) (gen : BitVec 8) : Option Opcode :=
  let hit := s.pends.findSome? fun p => match p.act with
    | .defining _ i (some d) g _ => if i = id && g = gen && s.ctxOf p.team = ctx then some d else none
    | _ => none
  match hit with
  | some d => if Config.freePick s.tick % 2 = 0 then some { id := id, defn := d } else none
  | none => none

/-- The definition a unit applies for a request of generation `gen` (R188): the table's, or, while an `rdef` or `rdel` of the
entry has not completed, perhaps still the old one; none makes the op stale. -/
def State.unitOpcode (s : State) (ctx id : Nat) (gen : BitVec 8) : Option Opcode :=
  match s.opcode? ctx id with
  | some (o, g) => if g = gen then some o else s.oldOpcode ctx id gen
  | none => s.oldOpcode ctx id gen

/-! ### Combining (R196-R199) -/

/-- Fold a request into an entry of a slice; none when the slice has no entry to take (R197). -/
def State.foldAt (s : State) (slice_ ctx launch : Nat) (o : Opcode) (gen : BitVec 8) (dpa : Nat) (x : List Byte) : Option State :=
  let line := dpa / 128
  let mine := fun (c : Comb) => c.slice == slice_ && c.line == line && c.ctx == ctx && c.op == o.id && c.gen == gen
  let up := fun (c : Comb) => { c with part_ := o.fold c.part_ (dpa % 128) x }
  let count := fun (s : State) => s.updCtx ctx fun c => { c with combined := sat16 c.combined 1 }
  if s.combs.any mine then some (count { s with combs := mapIf mine up s.combs })
  else if 16 ≤ (s.combs.filter fun c => c.slice == slice_).length then none
  else
    let c : Comb :=
      { id := s.nextId, slice := slice_, line := line, ctx := ctx, launch := launch, op := o.id, gen := gen, defn := o.defn,
        part_ := o.fold o.fresh (dpa % 128) x, born := s.clk }
    some (count { s with combs := s.combs ++ [c], nextId := s.nextId + 1 })

/-- Lines of a home that carry marks of visitors: its directory holds 4,096 (R199). -/
def State.markedLines (s : State) (home : Nat) : Nat :=
  (distinct ((s.combs.filter fun c => homeOf (c.line * 128) == home && c.slice != home).map fun c => c.line)).length

/-- Whether the home of a line has a mark for it, or room for one more (R199). -/
def State.markRoom (s : State) (home line : Nat) : Bool :=
  s.markedLines home < 4096 || s.combs.any fun c => c.line == line && c.slice != home

/-- The slices where a combinable request may be held, the first first (R198, R199): a visitor partial on the issuing core's die, while
the home's directory has room (the part always takes it: DESIGN CHOICE, log 49); at the home only while the slice lacks a sector of the
granule, or a CUU holds the line (what R198 calls absent: DESIGN CHOICE, log 118). -/
def State.foldSlices (s : State) (core : Nat) (j : UnitJob) : List Nat :=
  let home := homeOf j.dpa
  (if core / 512 != dieOf j.dpa && s.markRoom home (j.dpa / 128) then [core / 512 * 128 + s7Of j.dpa] else []) ++
    if s.dramBytes j.ctx j.base j.op.gran false false = 0 && !s.lockedLine (j.dpa / 128) then [] else [home]

/-- Merge a held contribution once its home line is in its slice (R198); false while it is not. -/
def State.mergeIn (s : State) (c : Comb) : State × Bool :=
  let r := s.bring (.comb c.id) c.ctx c.line c.launch (upto 0 4)
  if r.2 then (r.1.mergeComb c, true) else r

/-- Merge held contributions, each once its home line is in its slice; whether all of them are merged. -/
def State.mergeAll (s : State) (l : List Comb) : State × Bool :=
  l.foldl (fun (a : State × Bool) c => let r := a.1.mergeIn c; (r.1, a.2 && r.2)) (s, true)

/-! ### Status and fault policy (R207, R208) -/

/-- Update a remote op. -/
def State.updRop (s : State) (id : Nat) (f : Rop → Rop) : State :=
  { s with rops := mapIf (fun (r : Rop) => r.id == id) f s.rops }

/-- Update one granule of a remote op. -/
def Rop.updGran (r : Rop) (k : Nat) (f : Gran → Gran) : Rop := { r with grans := modAt r.grans k f }

/-- A unit has answered granule `k`: the status returns to the group. -/
def State.granServed (s : State) (id k : Nat) (st : BitVec 8) (ret : List Byte) : State :=
  (s.updRop id fun r => r.updGran k fun g => { g with phase := .served, sent := true, status := st, ret := ret }).pending
    [.ropStatusReturn id k]

/-- Whether a status is a ROP_FAULT under a policy (R207). -/
def faultsUnder (fpol : Nat) (st : BitVec 8) : Bool :=
  st != 0 && (fpol == 0 || !(st == 0x31 || st == 0x32 || st == 0x33))

/-- What a status adds to the remote statistics (R207, R209). -/
def Ctx.countStatus (c : Ctx) (fpol : Nat) (st : BitVec 8) : Ctx :=
  if st = 0x30 then { c with resets := sat16 c.resets 1 }
  else if fpol = 0 then c
  else if st = 0x31 || (st = 0x32 && fpol = 1) then { c with skipped := sat16 c.skipped 1 }
  else if st = 0x32 || st = 0x33 then { c with poisoned := sat16 c.poisoned 1 }
  else c

/-- The report of a ROP_FAULT (R208). The unit of a granule on a peer comes in the answer (R497). -/
def Rop.report (r : Rop) (k entry : Nat) (g : Gran) : RopReport :=
  let unit := match g.tgt with
    | .home d uam _ => (if uam then pchOf d else homeOf d, uam)
    | _ => (field g.ret 0 2 % 1024, bit (field g.ret 0 2) 10)
  let done := ((r.grans.take k).filter fun x => x.phase == .served && x.status == 0).length
  { status := g.status, ropid := BitVec.ofNat 6 r.op, gen := r.gen, fpol := BitVec.ofNat 2 r.fpol,
    lane := BitVec.ofNat 6 r.lane, gidx := BitVec.ofNat 3 k, gdone := BitVec.ofNat 4 done,
    unit := BitVec.ofNat 10 unit.1, ukind := unit.2, more := 0, addr := BitVec.ofNat 56 g.va, ipc := r.ipc, emitted := r.emitted,
    seq := r.seq, epc := r.epc, widx := r.widx, entry := entry }

/-- A group notes a report: the first is kept, later ones are counted (R208). -/
def Grp.note (g : Grp) (r : RopReport) : Grp :=
  match g.rop with
  | .none => { g with rop := .some r }
  | .some x => { g with rop := .some { x with more := if x.more = 255 then 255 else x.more + 1 } }

/-- The registers that a lane's return writes (R427): (register, lane, value). -/
def Rop.writes (r : Rop) : List (Nat × Nat × Lane) :=
  let bs := r.grans.flatMap fun g => if g.status = 0 then slice g.ret 0 r.rb else List.replicate r.rb 0
  (upto 0 (bs.length / 4)).map fun q => (r.d + q, r.lane, BitVec.ofNat 32 (field bs (4 * q) 4))

/-- Whether a lane's request is over: every granule that was sent has returned, and every granule was sent unless an ABORT
request has failed (R186, R207) or the launch ends. -/
def Rop.isOver (r : Rop) : Bool :=
  r.grans.all (fun g => !g.sent) &&
    (r.grans.all (fun g => g.phase == .served) ||
      r.grans.any fun g => g.phase == .served && g.status != 0 && (r.fpol == 0 || g.status.toNat < 0x20))

/-- A lane's request that is over leaves; the instruction completes with its last (R174, R427). -/
def State.ropOver (s : State) (id : Nat) : State :=
  match s.rops.find? fun (r : Rop) => r.id == id with
  | none => s
  | some r =>
    if !r.isOver then s else
    let failed := r.grans.any fun g => g.status != 0 && (r.fpol == 0 || g.status.toNat < 0x20)
    let s := if r.ret && !failed && s.pends.any (fun p => p.tag == r.tag) then
        s.putLanes r.team r.unit r.writes fun g => g.vsets r.writes else s
    let s := { s with rops := s.rops.filter fun (x : Rop) => x.id != id }
    if s.rops.any fun (x : Rop) => x.tag == r.tag then s
    else { s with pends := s.pends.filter fun p => p.tag != r.tag }

/-- The 24 bytes of a pending report in a group image (R315). -/
def RopReport.bytes (r : RopReport) : List Byte := leBytes 8 r.frop ++ leBytes 8 r.addr.toNat ++ leBytes 8 r.ipc.toNat

/-- A report reaches a group (R208); one that is stopped for a trap has it in its image too, from which it is reloaded (R304, R310). -/
def State.noteRop (s : State) (u unit : Nat) (r : RopReport) : State :=
  let s := s.updGrp u unit fun x => x.note r
  match (s.grp u unit).rop with
  | some x => s.putImage u unit 0x40 x.bytes
  | none => s

/-- The status of granule `k` reaches the group (R208): the policy acts, the next granule of an ABORT request goes out. -/
def State.ropReturned (s : State) (r : Rop) (k : Nat) (g : Gran) : State :=
  let org : Origin := { pc := r.ipc, emitted := r.emitted, seq := r.seq, epc := r.epc, widx := r.widx }
  if g.status = 0x10 || g.status = 0x11 || g.status = 0x12 then
    let s := s.updRop r.id fun r => r.updGran k fun g => { g with sent := false }
    (s.endAccess r.team r.unit org g.status g.va (1#64 <<< r.lane)).ropOver r.id
  else
    let s := s.updRop r.id fun r => r.updGran k fun g => { g with sent := false }
    let s := s.updCtx r.ctx fun c => c.countStatus r.fpol g.status
    let entry := match s.pends.find? fun p => p.tag == r.tag with
      | some p => p.entry
      | none => 0
    let s := if faultsUnder r.fpol g.status then s.noteRop r.team r.unit (r.report k entry g) else s
    let next := r.fpol == 0 && g.status == 0 && k + 1 < r.grans.length
    let s := if next then
        (s.updRop r.id fun r => r.updGran (k + 1) fun g => { g with sent := true }).pending [.remoteOpApply r.id (k + 1) 0]
      else s
    s.ropOver r.id

/-! ### Event rows of remote ops -/

/-- Whether two granules have a line in common. -/
def Gran.meets (g h : Gran) : Bool :=
  let a := g.tgt.spot
  let b := h.tgt.spot
  let lo := fun (x : Nat) (n : Nat) => x / n * n
  a.1 == b.1 && a.2.1 == b.2.1 && decide (lo a.2.2 g.size / 128 ≤ (lo b.2.2 h.size + h.size - 1) / 128) &&
    decide (lo b.2.2 h.size / 128 ≤ (lo a.2.2 g.size + g.size - 1) / 128)

/-- Whether an earlier request of the same group to a common line has not arrived yet (R180, R167). -/
def State.ropBehind (s : State) (r : Rop) (k : Nat) (g : Gran) : Bool :=
  s.rops.any fun (x : Rop) => x.team == r.team && x.unit == r.unit && (upto 0 x.grans.length).any fun j =>
    (x.id < r.id || (x.id == r.id && j < k)) && (match x.grans[j]? with
      | none => false
      | some h => h.phase == .sent && g.meets h)

/-- Whether an earlier op of the same peer to a common line has not arrived yet (R26, R180, R210). -/
def State.peerBehind (s : State) (r : PeerRop) : Bool :=
  s.peerRops.any fun (x : PeerRop) => x.peer == r.peer && x.id < r.id && x.gran.phase == .sent && r.gran.meets x.gran

/-- The requests of a remote instruction leave the coalescer together, or the window holds all of them (R97, R157). -/
def State.sendRops (s : State) (r : Rop) : State :=
  let bytes := s.rops.foldl (fun a (q : Rop) =>
    if q.tag == r.tag && !q.out then q.grans.foldl (fun a g => a + s.granBytes q.ctx g) a else a) 0
  let b := s.bwPass (s.launchIdOf r.team) r.tag bytes
  if !b.2 then b.1
  else { b.1.bwDone r.tag with rops := mapIf (fun (q : Rop) => q.tag == r.tag) (fun q => { q with out := true }) b.1.rops }

/-- Whether a granule is first in its CUU's queue. -/
def State.cuuFirst (s : State) (pch arr : Nat) : Bool := (s.cuuQueue pch).all fun e => arr ≤ e.1

/-- A granule arrives at a CUU's queue (R160, R163). -/
def State.cuuArrive (s : State) (dpa : Nat) : State :=
  let p := pchOf dpa
  let s := (s.chanServe dpa).1
  if (s.cuuQueue p).isEmpty then s.updChan p fun c => { c with last := s.clk } else s

/-- What a CUU does with a granule that waits there: first in its queue, it takes the lock once the turn at the channel is the
granule's tuple's (R158), behind every access that came before, those that waited for the last lock among them (R162); and commits
under the lock once it has what it reads; `done` commits. The event comes again until it has committed. -/
def State.cuuStep (s : State) (j : UnitJob) (op k arr : Nat) (again : Ev) (done : State → State) : State :=
  let p := pchOf j.dpa
  match (s.chan p).busy with
  | some (o, i, _) =>
    if o = op && i = k then
      let r := s.jobReady j
      if r.2 then (done r.1).updChan p fun c => { c with busy := none, last := s.clk } else r.1.pending [again]
    else s.pending [again]
  | none =>
    if !s.cuuFirst p arr then s.pending [again]
    else
      let r := s.chanAlone j.who j.base j.op.gran
      if r.2 then ((r.1.chanDone j.who j.base).updChan p fun c => { c with busy := some (op, k, s.clk) }).pending [again]
      else r.1.pending [again]

/-- The operand or source bytes that a message to a peer carries (R210): definition record, operand; a merge carries the
source, read at its home. -/
def State.ropData (s : State) (r : Rop) (g : Gran) : State × List Byte :=
  match s.unitOpcode r.ctx r.op r.gen with
  | none => (s, g.x)
  | some o =>
    if o.builtin && 13 ≤ o.id then
      match g.src with
      | some (.home d uam _) =>
        let s := s.mergeHeld d o.gran
        (s, s.pointRead r.ctx d uam o.gran)
      | _ => (s, [])
    else (s, o.defn ++ g.x)

/-- Send a granule to a peer: one message, or two for a quantile sketch (R186, R210). The source of a merge is read first, once
it is to be had (R189). -/
def State.ropToPeer (s : State) (r : Rop) (k : Nat) (g : Gran) (p a : Nat) : State :=
  let ready := s.sourceReady (.gran r.id k) r.ctx (s.launchIdOf r.team) g.size g.src true
  let s := ready.1
  if !s.peerUp p then s.granServed r.id k 0x11 []
  else if !ready.2 then s.pending [.remoteOpApply r.id k 0]
  else
    let srcBad : Option (BitVec 8) := match g.src with
      | some (.peer _ _) => some 0x31
      | some (.home d uam _) => if s.spanBad r.ctx d uam g.size then some 0x32 else none
      | _ => none
    match srcBad with
    | some st => s.granServed r.id k st []
    | none =>
      if r.op < 16 || (s.unitOpcode r.ctx r.op r.gen).isSome then
        let (s, data) := s.ropData r g
        let s := s.bwCharge (s.launchIdOf r.team) g.size
        let m := { s.msg (if r.ret then 6 else 5) p a r.ctx g.txn data with ropid := BitVec.ofNat 6 r.op }
        let s := s.updRop r.id fun r => r.updGran k fun g => { g with phase := .waiting }
        if 512 < data.length then
          let s := (s.send { m with part := 1, data := data.take 512 }).getD s
          (s.send { m with part := 2, data := data.drop 512 }).getD s
        else (s.send m).getD s
      else s.granServed r.id k 0x34 []

/-- A local granule at its unit: an SUU applies or holds it at once, when the slice has its lines; a CUU queues it. -/
def State.ropLocal (s : State) (r : Rop) (k : Nat) (g : Gran) (dpa : Nat) (uam cmb : Bool) (resid : Nat) : State :=
  let again := Ev.remoteOpApply r.id k resid
  match s.unitOpcode r.ctx r.op r.gen with
  | none => s.granServed r.id k 0x34 []
  | some o =>
    let job : UnitJob :=
      { who := .gran r.id k, ctx := r.ctx, launch := s.launchIdOf r.team, op := o, gen := some r.gen, x := g.x, src := g.src, carry := none, dpa := dpa, uam := uam,
        comb := o.combines && !r.ret && cmb && !uam, resid := resid }
    let apply := fun (s : State) =>
      let x := s.unitApply job
      x.1.granServed r.id k x.2.1 x.2.2
    if job.unmapped then s.granServed r.id k 0x31 []
    else if uam then
      if g.phase = .sent then
        let s := (s.cuuArrive dpa).bwCharge job.launch g.size
        ((s.updRop r.id fun r => r.updGran k fun g => { g with phase := .waiting, arr := s.nextId }).bump).pending [again]
      else s.cuuStep job r.id k g.arr again apply
    else
      let direct := fun (s : State) =>
        let x := s.jobReady job
        if x.2 then apply x.1 else x.1.pending [again]
      let folds := if job.comb then s.foldSlices r.core job else []
      match folds.findSome? fun sl => s.foldAt sl r.ctx job.launch o r.gen dpa g.x with
      | some s => s.granServed r.id k 0 []
      | none => direct s

/-- A peer's granule at its unit (R210): the answer goes back as a remote op response, with CTX and ROPID 0 (DESIGN CHOICE, log 105:
R22 does not say what they hold in a response). -/
def State.peerRopStep (s : State) (r : PeerRop) (resid : Nat) : State :=
  match r.gran.tgt with
  | .home dpa uam _ =>
    let o : Opcode := { id := r.op, defn := r.defn }
    let merges := o.builtin && 13 ≤ o.id
    let job : UnitJob :=
      { who := .gran r.id 0, ctx := r.ctx, launch := 0, op := o, gen := none, x := r.gran.x, src := none, carry := if merges then some r.gran.x else none,
        dpa := dpa, uam := uam, comb := false, resid := resid }
    let answer := fun (s : State) (st : BitVec 8) (ret : List Byte) =>
      let s := { s with peerRops := s.peerRops.filter fun (x : PeerRop) => x.id != r.id }
      let unit := (if uam then pchOf dpa else homeOf dpa) + 1024 * b2n uam
      let data := if st != 0 then leBytes 2 unit else if r.ret then ret else []
      s.reply { s.msg 7 r.peer r.addr 0 r.txn.toNat data with status := st }
    let apply := fun (s : State) =>
      let x := s.unitApply job
      answer x.1 x.2.1 x.2.2
    if r.gran.phase = .sent && s.peerBehind r then s.pending [.remoteOpApply r.id 0 resid]
    else if job.unmapped then answer s 0x31 []
    else if uam then
      if r.gran.phase = .sent then
        let s := s.cuuArrive dpa
        let up := fun (x : PeerRop) => { x with gran := { x.gran with phase := .waiting, arr := s.nextId } }
        ({ s with peerRops := mapIf (fun (x : PeerRop) => x.id == r.id) up s.peerRops }.bump).pending [.remoteOpApply r.id 0 resid]
      else s.cuuStep job r.id 0 r.gran.arr (.remoteOpApply r.id 0 resid) apply
    else
      let x := s.jobReady job
      if x.2 then apply x.1 else x.1.pending [.remoteOpApply r.id 0 resid]
  | _ => s

/-- REMOTE_OP_APPLY (R194): granule `k` of op `op` at its unit. `resid` is how many runs of it meet a residue mismatch
(R203, R204). -/
def execRemoteOpApply (op k resid : Nat) (s : State) : Out :=
  match s.rops.find? fun (r : Rop) => r.id == op with
  | some r =>
    match r.grans[k]? with
    | none => .next s
    | some g =>
      if g.phase = .served || !g.sent then .next s
      else if g.phase = .sent && s.ropBehind r k g then .next (s.pending [.remoteOpApply op k resid])
      else if !r.out then .next ((s.sendRops r).pending [.remoteOpApply op k resid])
      else
        match g.tgt with
        | .home d uam cmb => .next (s.ropLocal r k g d uam cmb resid)
        | .peer p a => if g.phase = .sent then .next (s.ropToPeer r k g p a) else .next s
        | .spad _ _ => .next s
  | none =>
    match s.peerRops.find? fun (r : PeerRop) => r.id == op with
    | some r => .next (s.peerRopStep r resid)
    | none => .next s

/-- ROP_STATUS_RETURN (R208). -/
def execRopStatusReturn (op k : Nat) (s : State) : Out :=
  match s.rops.find? fun (r : Rop) => r.id == op with
  | none => .next s
  | some r =>
    match r.grans[k]? with
    | none => .next s
    | some g => if g.phase = .served && g.sent then .next (s.ropReturned r k g) else .next s

/-- RDEF_COMPLETION (R429): old partials are merged, the result is written, the fragment goes on. -/
def execRdefCompletion (op : Nat) (s : State) : Out :=
  match s.pends.find? fun p => p.tag == op with
  | none => .next s
  | some p =>
    match p.act with
    | .defining d id _ gen r =>
      let ctx := s.ctxOf p.team
      let running := s.chans.any fun c => match c.busy with
        | none => false
        | some (o, _, _) => s.rops.any fun (x : Rop) => x.id == o && x.ctx == ctx && x.op == id && x.gen == gen
      if running then .next (s.pending [.rdefCompletion op]) else
      let old := s.combs.filter fun c => c.ctx == ctx && c.op == id && c.gen == gen && 16 ≤ id
      let m := s.mergeAll old
      if !m.2 then .next (m.1.pending [.rdefCompletion op]) else
      let s := m.1
      let s := { s with pends := s.pends.filter fun q => q.tag != op }
      let s := s.putUniform p.team p.unit d r
      .next (s.setPark { team := p.team, unit := p.unit, entry := p.entry } none)
    | _ => .next s

/-! ### Event rows of buffers and channels -/

/-- COMBINING_AGE_OUT (R197-R199): the entry is merged into its home, once its line is there; the home merges its own entry when
the line's fill completes, and a slice may give up a visitor partial earlier. -/
def execCombiningAgeOut (e : Nat) (s : State) : Out :=
  match s.combs.find? fun c => c.id == e with
  | none => .next s
  | some c => .next (s.mergeIn c).1

/-- LOCK_LAPSE (R162, R205): the operation in progress stays at the head of the queue, without effect. -/
def execLockLapse (pch : Nat) (s : State) : Out :=
  match (s.chan pch).busy with
  | some (_, _, t) =>
    if t + 64 ≤ s.clk then .next (s.updChan pch fun c => { c with busy := none }) else .next s
  | none => .next s

/-- CUU_WATCHDOG (R163): every op queued at the CUU returns with CUU_RESET. -/
def execCuuWatchdog (pch : Nat) (s : State) : Out :=
  let q := s.cuuQueue pch
  if q.isEmpty || s.clk < (s.chan pch).last + 4096 then .next s else
  let s := q.foldl (fun s e =>
    if s.rops.any fun (r : Rop) => r.id == e.2.1 then s.granServed e.2.1 e.2.2 0x30 []
    else
      match s.peerRops.find? fun (r : PeerRop) => r.id == e.2.1 with
      | none => s
      | some r =>
        let s := { s with peerRops := s.peerRops.filter fun (x : PeerRop) => x.id != r.id }
        s.reply { s.msg 7 r.peer r.addr 0 r.txn.toNat (leBytes 2 (pch + 1024)) with status := 0x30 }) s
  let s := s.updChan pch fun c => { c with busy := none, last := s.clk }
  .next { s with dev := { s.dev with cuurst := sat16 s.dev.cuurst 1 } }

/-- IDLE_TIMER (R159): entry becomes pending. -/
def execIdleTimer (pch : Nat) (s : State) : Out :=
  match s.idleTarget (s.chan pch) with
  | some p => .next (s.updChan pch fun c => { c with entry := some p })
  | none => .next s

/-- CHANNEL_POWER_ENTRY (R159): a pending entry takes effect once the CUU is idle, with nothing in progress and nothing in its queue. -/
def execChannelPowerEntry (pch : Nat) (s : State) : Out :=
  let c := s.chan pch
  match c.entry with
  | some p =>
    if c.busy.isNone && !s.chanQueued pch then
      .next (s.updChan pch fun c => { c with power := p, entry := none })
    else .next s
  | none => .next s

/-- CHANNEL_WAKE (R160). -/
def execChannelWake (pch : Nat) (s : State) : Out :=
  match (s.chan pch).wake with
  | some w =>
    if w ≤ s.clk then .next (s.updChan pch fun c => { c with power := .active, wake := none, entry := none, idle := s.clk })
    else .next s
  | none => .next s

end Sys2Proof.Machine
end

