-- ==== Sys2Proof/Machine/MemEvents.lean ====
section
/-!
DEFINITION. What becomes of requests after issue: the accesses at the points of service (R147, R152, R156, R162, R165-R167),
the return of fills, loads and records, the end of stores, replays (R83, R295, R296), soft errors, task-ending causes (R306)
and the zeroing of pool units (R149).
-/

namespace Sys2Proof.Machine

/-! ### The order of requests -/

/-- Whether two requests have a byte in common. -/
def Req.meets (r q : Req) : Bool :=
  let a := r.tgt.spot
  let b := q.tgt.spot
  a.1 == b.1 && a.2.1 == b.2.1 && a.2.2 < b.2.2 + q.n && b.2.2 < a.2.2 + r.n &&
    r.parts.any fun x => q.parts.any fun y => a.2.2 + x.1 < b.2.2 + y.1 + y.2 && b.2.2 + y.1 < a.2.2 + x.1 + x.2

/-- Whether a request writes. -/
def Req.writes (r : Req) : Bool :=
  match r.kind with
  | .write _ => true
  | .xadd _ => true
  | _ => false

/-- Whether a request of a core is a fill or a store that touches a sector of a fill. -/
def Req.inSector (q r : Req) : Bool :=
  q.core == r.core && q.ctx == r.ctx && q.va < r.va + r.n && r.va < q.va + q.n && (q.isFill || q.writes) &&
    q.parts.any fun x => r.parts.any fun y => q.va + x.1 < r.va + y.1 + 32 && r.va + y.1 < q.va + x.1 + x.2

/-- Whether a request reads past L1. -/
def Req.isRead (r : Req) : Bool :=
  match r.kind with
  | .read _ => true
  | _ => false

/-- Whether a request has to come after one of another instruction that stands before it: an earlier one of its group to a common byte
(R166) or, in a cluster, to the same scratchpad (R147); for a fill, a store of its core to a sector that is not acknowledged (R166),
or another fill of one (R152); for a store, and for a read past L1, an earlier store of its core to a common byte, as the core's L1
took them (R166). -/
def State.reqBehind (s : State) (r : Req) : Bool :=
  s.reqs.any fun q => q.id < r.id && q.tag != r.tag &&
    ((q.team == r.team && q.unit == r.unit && q.phase == .sent && (q.meets r || (match q.tgt, r.tgt with
        | .spad a _, .spad b _ => a == b
        | _, _ => false))) ||
      (r.isFill && q.inSector r) || ((r.writes || r.isRead) && q.writes && q.core == r.core && q.phase == .sent && q.meets r))

/-- Whether a request of the same instruction has to come after one that stands before it. -/
def State.tagBehind (s : State) (tag : Nat) : Bool := s.reqs.any fun r => r.tag == tag && s.reqBehind r

/-! ### Results and failures of requests -/

/-- An issued instruction is complete (R174). -/
def State.dropPend (s : State) (p : Pend) : State :=
  { s with pends := s.pends.filter fun q => q.tag != p.tag }.wakeRead p.team p.unit p.tag

/-- Instruction bytes of a peer have come, or a status instead of them (R85). -/
def State.fetchCame (s : State) (r : Req) (bs : List Byte) (st : BitVec 8) : State :=
  let got := fun (b : FetchBuf) => { b with tag := 0, bytes := bs, bad := st }
  { s.dropReq r.id with
    pends := s.pends.filter fun q => q.tag != r.tag
    fetches := mapIf (fun (b : FetchBuf) => b.tag == r.tag) got s.fetches }

/-- Bytes that a request brings, put at every address by which its instruction reads them (R231). -/
def Req.put (r : Req) (bs : List Byte) (m : ByteMap) : ByteMap := (r.va :: r.also).foldl (fun m a => putBytes m a bs) m

/-- Bytes that a request brings reach the instruction that waits for them; the words that a load has read past L1 leave its
core's L1 (R166). -/
def State.deliver (s : State) (r : Req) (bs : List Byte) : State :=
  match s.pends.find? fun p => p.tag == r.tag with
  | none => s.dropReq r.id
  | some p =>
    match p.act with
    | .fetch => s.fetchCame r bs 0
    | .hold _ _ => ((s.updPend r.tag fun p => { p with got := r.put bs p.got }).dropReq r.id).readsDone r.tag
    | _ =>
      let s := match r.tgt with
        | .spad _ _ => s
        | _ => (r.va :: r.also).foldl (fun (s : State) a => s.l1Drop r.core r.ctx a r.n) s
      ((s.updPend r.tag fun p => { p with got := r.put bs p.got }).dropReq r.id).readsDone r.tag

/-- A write of an instruction is performed; the instruction completes with its last (R174). -/
def State.performed (s : State) (r : Req) : State :=
  let s := s.dropReq r.id
  if s.reqs.any fun q => q.tag == r.tag then s else
  match s.pends.find? fun p => p.tag == r.tag with
  | none => s
  | some p => if p.bad.isEmpty then s.dropPend p else s.failPend p

/-- A write of piece of work `k` of an engine fails (R275): its command ends with the status, or its node does; an element of a copy
that did not reach its peer has not been copied (R280). A launch's seal that does not reach a peer has failed (R59, R61). -/
def State.workFail (s : State) (eng k : Nat) (st : BitVec 8) (addr : Nat) : State :=
  if eng % 16 = 10 then s.updLaunch (eng / 16) fun l => { l with status := 0x16, sealSeq := 0 }
  else if 2 ≤ k then (s.updNode eng (k - 2) fun x => { x with fail := some st }).pending [.nodeCompletion eng (k - 2)]
  else
    s.updRun eng fun r =>
      match r.fin with
      | some _ => { r with fin := some (st, addr) }
      | none =>
        if r.fail.isSome then r
        else { r with fail := some (st, addr), moved := true, next := if r.moved then r.next - 1 else r.next }

/-- A write under the number `owner` fails. -/
def State.engineFail (s : State) (owner : Nat) (st : BitVec 8) (addr : Nat) : State :=
  s.workFail ((owner - 2 ^ 48) % 2 ^ 56) (owner / 2 ^ 56) st addr

/-- A request meets a task-ending cause: what waits for it learns of it (R88, R204, R306). -/
def State.failReq (s : State) (r : Req) (st : BitVec 8) : State :=
  match s.pends.find? fun p => p.tag == r.tag with
  | none => s.syncFail r st
  | some p =>
    match p.act with
    | .fetch => s.fetchCame r [] st
    | .hold o _ => (s.updPend r.tag fun p => { p with act := .hold o (some st) }).dropReq r.id
    | .prefetch => (s.dropReq r.id).readsDone r.tag
    | _ =>
      if p.unit = 18 then
        ({ s.dropReq r.id with pends := s.pends.filter fun q => q.tag != p.tag }).engineFail p.entry st r.va
      else
        let s := s.updPend r.tag fun p => { p with bad := p.bad ++ (r.va :: r.also).map fun a => (a, r.n, st) }
        if r.writes then s.performed r else (s.dropReq r.id).readsDone r.tag

/-! ### HOME_ACCESS -/

/-- The poisoned words that a read of a request meets (R204): address of the context, bytes, status. -/
def State.poisonOf (s : State) (r : Req) (d : Nat) (uam : Bool) : List (Nat × Nat × BitVec 8) :=
  ((upto (d / 4) ((d + r.n - 1) / 4 - d / 4 + 1)).filter fun w =>
    s.wordBad r.ctx uam w && r.parts.any fun x => d + x.1 < 4 * w + 4 && 4 * w < d + x.1 + x.2).flatMap fun w =>
    (r.va :: r.also).map fun a => (a + 4 * w - d, 4, 0x12)

/-- The instruction of a request notes spans that came back with a status. -/
def State.noteBad (s : State) (r : Req) (l : List (Nat × Nat × BitVec 8)) : State :=
  let touches := fun (p : Pend) (b : Nat × Nat × BitVec 8) => p.lanes.isEmpty || p.lanes.any fun e =>
    b.1 < e.2 + p.size && e.2 < b.1 + b.2.1
  s.updPend r.tag fun p => { p with bad := p.bad ++ l.filter (touches p) }

/-- A home serves a request; held contributions are merged first (R156, R200). -/
def State.serveHome (s : State) (r : Req) (d : Nat) (uam : Bool) : State :=
  let s := s.mergeHeld d r.n
  let done := fun (s : State) => (s.updReq r.id fun r => { r with phase := .served }).pending [.storePerformed r.id]
  match r.kind with
  | .fill _ =>
    let bad := s.poisonOf r d uam
    let data := s.pointRead r.ctx d uam r.n
    let up := fun (r : Req) => { r with phase := .served, data := data, clr := r.clr ++ bad.map fun b => b.1 / 4 }
    ((s.noteBad r bad).updReq r.id up).pending [.mergingFillReturn r.id]
  | .read _ => (s.noteBad r (s.poisonOf r d uam)).deliver r (s.pointRead r.ctx d uam r.n)
  | .write bs => done (s.pointWrite r.ctx (s.launchIdOf r.team) d uam bs)
  | .xadd xs =>
    if s.spanBad r.ctx d uam 64 then s.failReq r 0x12
    else done (s.pointWrite r.ctx (s.launchIdOf r.team) d uam (pairsFrom 0 (halfAdds (s.pointRead r.ctx d uam 64) xs)))
  | .acq => s.serveAcq r d
  | .rel => s.serveRel r d

/-- A scratchpad serves a request. -/
def State.serveSpad (s : State) (r : Req) (t o : Nat) : State :=
  let done := fun (s : State) => (s.updReq r.id fun r => { r with phase := .served }).pending [.storePerformed r.id]
  match r.kind with
  | .write bs => done (s.spadWrite t (bs.map fun (e : Nat × Byte) => (o + e.1, e.2)))
  | .xadd xs => done (s.spadWrite t (pairsFrom o (halfAdds (s.spadRead t o 64) xs)))
  | _ => s.deliver r (s.spadRead t o r.n)

/-- The message that takes a request to a peer (R22, R23, R85). -/
def State.reqMsg (s : State) (r : Req) (p a : Nat) : Msg :=
  match r.kind with
  | .write bs => s.msg 2 p (a + ((bs.headD (0, 0)).1)) r.ctx r.id (bs.map fun e => e.2)
  | .xadd xs => { s.msg 5 p a r.ctx r.id (xs.flatMap fun x => leBytes 4 x.toNat) with ropid := 12 }
  | _ => s.msg 1 p a r.ctx r.id (leBytes 8 r.n)

/-- A request leaves for a peer; a lost peer answers PEER_LOST (R88). -/
def State.servePeer (s : State) (r : Req) (p a : Nat) : State :=
  if !s.peerUp p then s.failReq r 0x11
  else
    let s := s.updReq r.id fun r => { r with phase := .waiting }
    if r.kind == .acq && s.kept.any (fun k => k.came && k.of_ s r) then s.pending [.acquireGrant r.id]
    else if r.kind == .acq then s.emit (.sync r.id p a false)
    else if r.kind == .rel then s.emit (.sync r.id p a true)
    else (s.send (s.reqMsg r p a)).getD s

/-- Whether a sync request's group can take a trap now. -/
def State.syncReady (s : State) (r : Req) : Bool :=
  !r.syncs || !s.trapStopped r.team r.unit

/-- The slot of a unit's group on its core (R157), as its team got it at placement. A pilot and a handler slot are no groups: their
requests carry the slot of the team's first group (DESIGN CHOICE, log 117). -/
def State.gslot (s : State) (u unit : Nat) : Nat :=
  match s.team? u with
  | some t => t.slots.getD (if unit < 16 then unit else 0) 0
  | none => 0

/-- The sectors that a request has its channel move (R157): those that its slice lacks, or, on an update-at-memory line, those that it
touches. -/
def State.reqSecs (s : State) (r : Req) : Nat :=
  match r.tgt with
  | .home d true _ => (distinct (r.parts.flatMap fun x => upto ((d + x.1) / 32) (secsIn (d + x.1) x.2))).length
  | .home d false _ => (s.missing r.ctx (d / 128) (s.reqNeeds r d)).length
  | _ => 0

/-- The tuple of a request at the channel of its line (R157). -/
def State.tupleOf (s : State) (r : Req) (pch : Nat) : Tuple :=
  let itag := match s.pends.find? fun p => p.tag == r.tag with
    | some p => p.itag
    | none => 0
  let secs := s.reqs.foldl (fun a q => if q.tag == r.tag then (match q.tgt with
      | .home d _ _ => if pchOf d == pch then a + s.reqSecs q else a
      | _ => a) else a) 0
  { who := .instr r.tag, core := r.core, gslot := s.gslot r.team r.unit, itag := itag, nsec := secs, seen := s.clk, ctx := 0,
    line := 0, secs := [] }

/-- The requests of an instruction leave the coalescer together, or the window holds all of them (R97, R157). -/
def State.sendTag (s : State) (r : Req) : State :=
  let bytes := s.reqs.foldl (fun a q => if q.tag == r.tag && !q.out then a + s.reqBytes q else a) 0
  let b := s.bwPass (s.reqLaunch r) r.tag bytes
  if !b.2 then b.1
  else { b.1.bwDone r.tag with reqs := mapIf (fun (q : Req) => q.tag == r.tag) (fun q => { q with out := true }) s.reqs }

/-- A request comes to the channel of its line: an instruction's in its tuple, an acquire or a release as one of its own (R158). -/
def State.reqTurn (s : State) (r : Req) (d : Nat) : State × Bool :=
  let line := d / 128
  if r.syncs then s.chanTurn (s.alone (.req r.id) 2 r.ctx line (s.missing r.ctx line (s.reqNeeds r d))) d
  else s.chanTurn (s.tupleOf r (pchOf d)) d

/-- A request that has been sent comes to its home slice: a line that a CUU holds is waited for, in the request's place at the channel
(R162), sectors that the slice lacks are fetched through the channel in the turn of the instruction's tuple (R155, R158), and then
it is served. -/
def State.atHome (s : State) (r : Req) (d : Nat) (uam : Bool) : Out :=
  let again := Ev.homeAccess r.id
  let line := d / 128
  if s.lockedLine line then .next ((s.reqTurn r d).1.pending [again])
  else
    let miss := s.missing r.ctx line (s.reqNeeds r d)
    if !uam && miss.isEmpty then .next (s.serveHome r d uam)
    else
      let x := s.reqTurn r d
      if !x.2 then .next (x.1.pending [again])
      else if uam then .next ((x.1.bwCharge (s.reqLaunch r) r.size).serveHome r d uam)
      else .next ((x.1.fillLine r.ctx line (s.reqLaunch r) miss).serveHome r d uam)

/-- HOME_ACCESS (R156): a request leaves its core, unless it has to wait for what stands before it, and arrives at its point of
service, which serves it in the step of its arrival. -/
def execHomeAccess (op : Nat) (s : State) : Out :=
  let again := Ev.homeAccess op
  match s.reqs.find? fun r => r.id == op with
  | none => .next s
  | some r =>
    if r.phase != .sent then .next s
    else if !r.out then .next ((if s.tagBehind r.tag then s else s.sendTag r).pending [again])
    else if !s.syncReady r then .next (s.pending [again])
    else
      match r.tgt with
      | .spad t o => .next (s.serveSpad r t o)
      | .peer p a => .next ((s.bwCharge (s.reqLaunch r) r.size).servePeer r p a)
      | .home d uam _ => s.atHome r d uam

/-! ### Returns -/

/-- One word of a fill comes back (R152, R423): a valid word stays as it is and gives its own value; a word that a clear
touched stays invalid. -/
def State.fillWord (s : State) (r : Req) (w : Nat) : State :=
  let key := r.ctx * 2 ^ 54 + w
  let new := slice r.data (4 * w - r.va) 4
  let give := fun (s : State) (bs : List Byte) => s.updPend r.tag fun p => { p with got := putBytes p.got (4 * w) bs }
  match (s.core r.core).l1Word key with
  | some x => give s (leBytes 4 x.toNat)
  | none =>
    if r.clr.contains w then give s new
    else give (s.l1Put r.core key (BitVec.ofNat 32 (leNat new))) new

/-- MERGING_FILL_RETURN (R152). -/
def execMergingFillReturn (op : Nat) (s : State) : Out :=
  match s.reqs.find? fun r => r.id == op with
  | none => .next s
  | some r =>
    if !r.isFill || r.phase != .served then .next s
    else .next (((r.words.foldl (fun s w => s.fillWord r w) s).dropReq op).readsDone r.tag)

/-- STORE_PERFORMED (R165, R174). -/
def execStorePerformed (op : Nat) (s : State) : Out :=
  match s.reqs.find? fun r => r.id == op with
  | none => .next s
  | some r => if r.writes && r.phase == .served then .next (s.performed r) else .next s

/-- What a load writes (R421): (register, lane, value). -/
def Pend.loaded (p : Pend) (d n : Nat) : List (Nat × Nat × Lane) :=
  p.lanes.flatMap fun e =>
    let x := leNat (getBytes p.got e.2 n)
    if n = 8 then [(d, e.1, BitVec.ofNat 32 x), (d + 1, e.1, BitVec.ofNat 32 (x / 2 ^ 32))]
    else [(d, e.1, BitVec.ofNat 32 x)]

/-- The rounded half-lines of `xrnd` (R229, R473). -/
def Pend.rounded (p : Pend) (d : Nat) : List (Nat × Nat × Lane) :=
  p.lanes.map fun e => (d, e.1, BitVec.ofNat 32 (halfOf (getBytes p.got e.2 64)).round)

/-- A requantising drain's table has come (R460): the operation goes to the unit, and ends a region if it accumulates (R294), or it
traps. -/
def State.tableDone (s : State) (p : Pend) (o : TileOp) : State :=
  let at_ := (p.lanes.headD (0, 0)).2
  let tbl := getBytes p.got at_ 256
  let s := s.dropPend p
  if !tableOk tbl then s.lateTrap p 0x20 0x04 at_ 0
  else
    match o.kind with
    | .mdrain t clr code tr origin _ =>
      let s := s.tileEnq { o with kind := .mdrain t clr code tr origin tbl }
      if o.kind.accumulates then s.updGrp p.team p.unit (·.regionHere p.entry) else s
    | _ => s

/-- Whether a completion that may trap has to wait until its group, stopped by another trap, executes again. -/
def State.mustWait (s : State) (p : Pend) : Bool := s.trapStopped p.team p.unit

/-- LOAD_COMPLETION (R158, R174): every value of an instruction is there; the group wakes with all of them. -/
def execLoadCompletion (op : Nat) (s : State) : Out :=
  let again := Ev.loadCompletion op
  match s.pends.find? fun p => p.tag == op with
  | none => .next s
  | some p =>
    if s.reqs.any fun r => r.tag == op then .next s else
    match p.act with
    | .lanes d n =>
      let l := p.loaded d n
      .next ((s.putLanes p.team p.unit l fun g => g.vsets l).dropPend p)
    | .uniform d =>
      let x := leNat (getBytes p.got (p.lanes.headD (0, 0)).2 8)
      .next ((s.putUniform p.team p.unit d (BitVec.ofNat 64 x)).dropPend p)
    | .round d _ =>
      let l := p.rounded d
      .next ((s.putLanes p.team p.unit l fun g => g.vsets l).dropPend p)
    | .summary i mask =>
      if s.mustWait p then .next (s.pending [again]) else .next (s.sumDone p i mask again)
    | .table o => if s.mustWait p then .next (s.pending [again]) else .next (s.tableDone p o)
    | .stores => .next (s.dropPend p)
    | _ => .next s

/-- A definition record has been read (R195, R429): it replaces the entry, or leaves it, and the result is to be written. -/
def State.defineRead (s : State) (p : Pend) (d id : Nat) : State :=
  let ctx := s.ctxOf p.team
  let rec_ := getBytes p.got (p.lanes.headD (0, 0)).2 64
  let gen := s.opGen ctx id
  match defCheck rec_ (some id) with
  | some st =>
    ((s.putUniform p.team p.unit d (defResult st gen)).dropPend p)
  | none =>
    let old := s.defnOf ctx id
    let act := PendAct.defining d id old gen (defResult 0 (gen + 1))
    ((s.setOp ctx id (some rec_)).updPend p.tag fun p => { p with act := act }).pending [.rdefCompletion p.tag]

/-- RECORD_READ_RETURN (R429, R441, R442). -/
def execRecordReadReturn (op : Nat) (s : State) : Out :=
  match s.pends.find? fun p => p.tag == op with
  | none => .next s
  | some p =>
    if s.reqs.any fun r => r.tag == op then .next s else
    let a := (p.lanes.headD (0, 0)).2
    match p.act with
    | .record d =>
      let bs := getBytes p.got a 64
      let s := s.updGrp p.team p.unit fun g => { g with d := sset g.d d (BitVec.ofNat 512 (leNat bs)) }
      .next ((s.putImage p.team p.unit (0x900 + 64 * d) bs).dropPend p)
    | .block d =>
      if s.mustWait p then .next (s.pending [.recordReadReturn op]) else
      let x := BitVec.ofNat 256 (leNat (getBytes p.got a 32))
      if fmtBroken x then .next ((s.dropPend p).lateTrap p 0x20 0x04 a 0)
      else if fmtMisaligned x then .next ((s.dropPend p).lateTrap p 0x24 0x00 a 0)
      else .next ((s.updGrp p.team p.unit fun g => { g with f := sset g.f d x }).dropPend p)
    | .define d id => .next (s.defineRead p d id)
    | _ => .next s

/-! ### Replay (R83, R295, R296) -/

/-- MIGRATING (R83): the group parks until the CONFIRM or MIGRATE ends, on the draining page that its context has. -/
def execMigrating (team g : Nat) (s : State) : Out :=
  let x := s.grp team g
  if x.st == .gone || x.st == .saved then .next s
  else
    match x.firstActive with
    | none => .next s
    | some e =>
      if s.trapStopped team g || (x.entry e).bound then .next (s.pending [.migrating team g])
      else
        let at_ := match s.xl.find? fun x => x.ctx == s.ctxOf team && x.drain && x.mig with
          | some x => x.va
          | none => 0
        .next (s.setPark { team := team, unit := g, entry := e } (some (.migrating at_)))

/-- The load results of a unit that have not been written, which a replay discards (R295). -/
def Pend.replayed (p : Pend) (u unit : Nat) : Bool :=
  p.team == u && p.unit == unit && (match p.act with
    | .lanes _ _ => true
    | .uniform _ => true
    | .round _ _ => true
    | .record _ => true
    | .block _ => true
    | .summary _ _ => true
    | .table _ => true
    | _ => false)

/-- A fragment goes back to its region's entry, or in a run to the replay point with the copy of w0-w7 (R295, R296). -/
def Grp.goBack (g : Grp) (e : Nat) : Grp :=
  let there := fun (g : Grp) (pc : U64) => g.updEntry e fun (x : Entry) => { x with pc := pc, park := .none }
  match g.run with
  | .none => there g g.rgnPc
  | .some r =>
    if r.entry = e then
      { there g (if r.emitted.isSome then (g.entry e).pc else r.pointPc) with
        run := .some { r with idx := r.point, w := r.wCopy } }
    else there g g.rgnPc

/-- Whether a fragment waits for something that a replay with the discarded instructions `tags` does not end. -/
def Entry.stays (e : Entry) (tags : List Nat) : Bool :=
  match e.park with
  | .some (.read tag) => !tags.contains tag
  | _ => e.bound

/-- Replay of a group (R295): every load result not yet written is discarded, issued stores and remote ops go on. The fragments that
met a migration that is over go back, or the lowest active one where none has, and with them those whose loads are discarded. -/
def State.replayGroup (s : State) (u unit : Nat) (again : Ev) : Out :=
  let g := s.grp u unit
  if g.st != .live then .next (if g.st == .stopped then s.pending [again] else s) else
  let gone := s.pends.filter fun p => p.replayed u unit
  let tags := gone.map (·.tag)
  let parked := (upto 0 8).filter fun i => (g.entry i).st == .active && (match (g.entry i).park with
    | some (.migrating va) => !s.draining (s.ctxOf u) va
    | _ => false)
  let first := if parked.isEmpty then (match g.firstActive with
      | some e => [e]
      | none => []) else parked
  let es := distinct (first ++ (gone.map (·.entry)).filter fun e => (g.entry e).st == .active)
  if es.any fun e => (g.entry e).stays tags then .next (s.pending [again]) else
  let s := { s with pends := s.pends.filter (fun p => !tags.contains p.tag)
                    reqs := s.reqs.filter fun r => !(tags.contains r.tag && !r.writes) }
  .next (s.updGrp u unit fun g => es.foldl (fun g e => g.goBack e) g)

/-- REPLAY (R83, R295): the CONFIRM or MIGRATE has ended for a fragment that waits for it; where none waits, for every draining
page of MIG 1 of the context. -/
def execReplay (team g : Nat) (s : State) : Out :=
  let ctx := s.ctxOf team
  let waits := (s.grp team g).split.filterMap fun e => match e.park with
    | .some (.migrating va) => some va
    | _ => none
  if (if waits.isEmpty then s.xl.any fun x => x.ctx == ctx && x.drain && x.mig else waits.all (s.draining ctx)) then .next s
  else s.replayGroup team g (.replay team g)

/-- A corrected soft error (R291): the group replays; the pilot's is repaired in place (R299). -/
def execSoftError (team g : Nat) (s : State) : Out :=
  if g = 17 then .next s else s.replayGroup team g (.softError team g)

/-! ### Task-ending causes and zeroing -/

/-- A task-ending cause of a launch that no access of a known instruction meets. -/
def State.endLaunch (s : State) (l : Nat) (st : BitVec 8) : State :=
  let org := Origin.none
  s.endTask l st (some { gid := 0, tid := 0, regs := (org.info st.toNat 0 0 0).regs false 0 0 0 })

/-- MEM_UNCORRECTABLE (R39, R291, R306): an uncorrectable error, met by an access of a launch or by a BAR4 read that waits, by
its number. -/
def execMemUncorrectable (l : Nat) (s : State) : Out :=
  if s.bars.any fun (b : BarReq) => b.id == l then
    .next { s with bars := mapIf (fun (b : BarReq) => b.id == l) (fun b => { b with bad := true }) s.bars }
  else .next (s.endLaunch l 0x12)

/-- TASK_END (R306). -/
def execTaskEnd (l : Nat) (why : TaskEnd) (s : State) : Out := .next (s.endLaunch l (taskCode why))

/-- POOL_ZEROING (R149): one clk zeroes 256 bytes of the unit whose turn it is. -/
def execPoolZeroing (core : Nat) (s : State) : Out :=
  match (s.core core).zeroing with
  | [] => .next s
  | n :: rest =>
    let left := if n ≤ 1 then rest else (n - 1) :: rest
    let s := s.updCore core fun c => { c with zeroing := left }
    .next (if left.isEmpty then s else s.nextClk [.poolZeroing core])

end Sys2Proof.Machine
end

