-- ==== Sys2Proof/Machine/Reset.lean ====
section
/-!
DEFINITION. Resets and bring-up (R32-R35), the thermal-trip hold (R17, R18), the clock level and the issue gate (R16, R17), the
windows of power and bandwidth (R95, R97), and configuration requests (R33).
-/

namespace Sys2Proof.Machine

/-! ### Notices -/

/-- Send a notice on every link that is up (R18, R29): it goes out before the link drops, past the limits of R20 and R21 too (DESIGN
CHOICE, log 121). -/
def State.notices (s : State) (code : Nat) : State :=
  (upto 0 16).foldl (fun s n =>
    if (s.link n).state = 2 then s.frame n (s.msg code (s.link n).farPeer.toNat 0 0 0 []) else s) s

/-! ### Measured bring-up (R33-R35) -/

/-- Extend a measurement slot by a digest, with its log entry (R34). -/
def Dev.extend (d : Dev) (slot : Nat) (digest : List Byte) : Dev :=
  { d with slots := modAt d.slots slot fun old => sha384 (old ++ digest), extLog := d.extLog ++ [(slot, digest)] }

/-- Measure an image into one of slots 0-3: the slot shows the image's digest (R33, R65). -/
def Dev.measure (d : Dev) (slot : Nat) (digest : List Byte) : Dev :=
  { d with slots := modAt d.slots slot fun _ => slice digest 0 48 }

/-- The slots that bring-up measures: up to the one whose verification fails, else 0-3, then extensions of 4-7 for images
that firmware loads (R33-R35). -/
def Dev.measured (d : Dev) (b : BringUp) : Dev :=
  let n := match b.fail with
    | some f => min 4 (f.toNat + 1)
    | none => 4
  let d := (upto 0 n).foldl (fun d i => match b.digests[i]? with
    | some x => d.measure i x
    | none => d) d
  if b.fail.isSome then d
  else (upto 4 4).foldl (fun d i => match b.digests[i]? with
    | some x => d.extend i (slice x 0 48)
    | none => d) d

/-- Bring-up to READY, or to RECOVERY with the failing slot (R33, R35, R256). -/
def State.bringUp (s : State) (b : BringUp) : State :=
  let d := s.dev.measured b
  match b.fail with
  | some f => { s with dev := { d with state := .recovery, failSlot := f } }.emit (.msix 0 0)
  | none => { s with dev := { d with state := .ready, loads := b.later }, ring := { s.ring with on := true, t := 0 } }

/-- Firmware loads its next image after bring-up, and extends one of slots 4-7 by its digest (R34). -/
def State.firmwareLoad (s : State) : State :=
  match s.dev.loads with
  | [] => s
  | (slot, digest) :: rest => { s with dev := { s.dev.extend (4 + slot.toNat) (slice digest 0 48) with loads := rest } }

/-- Everything that a reset clears (R32, R33): DRAM keeps its bytes, under keys that are gone, and with them its poisoned words (DESIGN
CHOICE, log 111); the L2 is zeroed; what has been sent stays sent, and the outside's inputs go on. -/
def State.cleared (s : State) (trip : Bool) (epochs : List (BitVec 32)) : State :=
  { State.reset with
    dev := { Dev.fresh trip epochs with keyNext := s.dev.keyNext }
    mem := { s.mem with l2 := [] }
    out := s.out
    ev := { Events.none with inputs := s.ev.inputs }
    time := s.time, tick := s.tick, nextId := s.nextId, free := s.free }

/-- COLD_RESET (R32). -/
def execColdReset (b : BringUp) (s : State) : Out :=
  .next (((s.notices 0x0D).cleared false (List.replicate 16 0)).bringUp b)

/-- The re-key counts, which only a cold reset clears (R27, R32). -/
def State.epochs (s : State) : List (BitVec 32) := s.dev.links.map (·.epochs)

/-- WARM_RESET (R32): a thermal-trip hold stays in force. -/
def execWarmReset (b : BringUp) (s : State) : Out :=
  let held := s.dev.state == .tripped
  let s := (s.notices 0x0D).cleared s.dev.trip s.epochs
  .next (if held then { s with dev := { s.dev with state := .tripped } } else s.bringUp b)

/-- The thermal-trip hold is entered (R17, R18, R32). -/
def State.enterHold (s : State) : State :=
  let s := (s.notices 0x0E).cleared true s.epochs
  { s with dev := { s.dev with state := .tripped } }

/-- THERMAL_TRIP_HOLD (R18, R32). -/
def execThermalTripHold (s : State) : Out := .next (if s.dev.state = .tripped then s else s.enterHold)

/-- THERMTRIP (R32, R38): writing 1 clears the bit; in the hold that releases it, unless a junction is at or above 90 °C. -/
def execThermtrip (below90 : Bool) (b : BringUp) (s : State) : Out :=
  if s.dev.state = .tripped then
    .next (if below90 then (s.cleared false s.epochs).bringUp b else s)
  else .next { s with dev := { s.dev with trip := false } }

/-! ### Clock and power (R16, R17, R95) -/

/-- One step toward a slower level; at level 7 the gate fraction halves, down to 1/8 (R16, R17). -/
def Dev.slower (d : Dev) : Dev :=
  if d.level < 7 then { d with level := d.level + 1 } else { d with gate := min 3 (d.gate + 1) }

/-- One step toward a faster level: the gate fraction doubles first (R17). -/
def Dev.faster (d : Dev) : Dev :=
  if 0 < d.gate then { d with gate := d.gate - 1 } else { d with level := d.level - 1 }

/-- Whether 10 µs have passed since the last step of the clock level or of the gate fraction (R16). -/
def State.stepDue (s : State) : Bool :=
  match s.dev.stepped with
  | some t => t + nanos 10000 ≤ s.time
  | none => true

/-- A step of the clock level or of the gate fraction. -/
def State.stepClock (s : State) (f : Dev → Dev) : State := { s with dev := { f s.dev with stepped := some s.time } }

/-- CLOCK_LEVEL_STEP (R16, R17): the 1 ms average power in W, the hottest junction in °C, and whether a whole window was cool
(below 1,900 W and 90 °C), or above 2,000 W; at most one step in 10 µs. -/
def execClockLevelStep (avgW maxTemp : Nat) (windowCool windowHot : Bool) (s : State) : Out :=
  if s.dev.state = .tripped then .next s
  else if 105 ≤ maxTemp || (windowHot && s.dev.gate = 3) then .next s.enterHold
  else if !s.stepDue then .next s
  else if 1980 < avgW || 95 < maxTemp then .next (s.stepClock Dev.slower)
  else if windowCool then .next (s.stepClock Dev.faster)
  else .next s

/-- POWER_WINDOW_END (R95): `means` gives, by launch, the measured mean power per placed team in mW, which is rounded up to whole units
of 100 mW; a launch that had no team in the window keeps its estimate. `hot` is a whole window above 2,000 W (R17). -/
def execPowerWindowEnd (means : List (Nat × Nat)) (hot : Bool) (s : State) : Out :=
  if hot && s.dev.gate = 3 && s.dev.state != .tripped then .next s.enterHold
  else
    let f := fun (t : Team) =>
      match means.find? fun m => m.1 == t.launch with
      | some m => { t with power := max 1 (ceilDiv m.2 100) }
      | none => t
    .next { s with teams := s.teams.map f }

/-- BANDWIDTH_WINDOW (R94, R97): a 10 µs window ends; what it moved becomes the bandwidth charge, and what it held may go out. -/
def execBandwidthWindow (s : State) : Out :=
  .next { s.bwFree with launches := s.launches.map fun (l : Launch) => { l with lastBytes := l.winBytes, winBytes := 0 } }

/-- PCIE_CONFIG_REQUEST (R33, R35): Retry Status during bring-up. -/
def execPcieConfigRequest (s : State) : Out := .next (s.emit (.config (s.dev.state != .bringUp)))

end Sys2Proof.Machine
end

