-- ==== Sys2Proof/Machine/Host.lean ====
section
/-!
DEFINITION. The host's side of a function: BAR0 registers (R37-R39, R42), BAR4 (R39), queue registers and doorbells (R48, R49,
R78), CHPWR (R161) and the enabling of links (R27).
-/

namespace Sys2Proof.Machine

/-! ### BAR0 (R36-R38) -/

/-- One register of a queue's block (R48). -/
def Queue.read (q : Queue) (off : Nat) : Nat :=
  if off = 0 then q.base
  else if off = 8 then q.logn + b2n q.enable * 2 ^ 5
  else if off = 0x10 then q.head
  else if off = 0x18 then q.tail
  else if off = 0x20 then b2n q.err
  else 0

/-- CHPWR (R161). -/
def Dev.chpwr (d : Dev) : Nat := d.pdt.toNat + d.srt.toNat * 2 ^ 16 + d.cuurst.toNat * 2 ^ 32

/-- What a function reads at an offset of BAR0 (R37): 0 where nothing is listed, and in the hold for all but DEVSTATUS (R32). -/
def State.barReg (s : State) (fn off : Nat) : Nat :=
  let f := s.fn fn
  if off = 0 then s.devstatus
  else if s.dev.state = .tripped then 0
  else if off = 8 then Config.cap0.toNat
  else if off = 0x10 then Config.cap1.toNat
  else if off = 0x18 then f.apCtx + b2n f.apOn * 2 ^ 63
  else if off = 0x20 then f.apBase
  else if 0x1000 ≤ off && off < 0x1040 then field f.cmd (off - 0x1000) 8
  else if off = 0x1088 then b2n f.running
  else if 0x10C0 ≤ off && off < 0x1100 then field f.result (off - 0x10C0) 8
  else if 0x2000 ≤ off && off < 0x2400 then (s.queue fn ((off - 0x2000) / 64)).read (off % 64)
  else if fn != 0 then 0
  else if off = 0x80000 then s.dev.peerId.toNat
  else if 0x80100 ≤ off && off < 0x80300 then (sget s.dev.route ((off - 0x80100) / 8)).toNat
  else if 0x80400 ≤ off && off < 0x80480 then (s.link ((off - 0x80400) / 8)).status
  else if off = 0x80800 then s.dev.chpwr
  else 0

/-- The size of a function's BAR4 (R36). -/
def barSize (fn : Nat) : Nat := if fn = 0 then 2 ^ 36 else 2 ^ 32

/-- The event that a mailbox command starts (R42, R43); a command whose code is unknown has none. -/
def State.mailEvent (s : State) (fn : Nat) : Option Ev :=
  let cmd := (s.fn fn).cmd
  match field cmd 0 1 with
  | 1 => some (.ctxCreate fn)
  | 2 => some (.ctxRetire fn)
  | 3 => some (.queueBind fn)
  | 4 => some (.vfConfig fn)
  | 5 => some (.attest fn)
  | 6 => some (.certRead fn)
  | 7 => some (.preempt fn)
  | 8 => some (.resume fn)
  | 9 => some (.ringEvict fn)
  | _ => none

/-- The result of a command that fails with a status. -/
def failResult (st : Nat) : List Byte := leBytes 1 st ++ List.replicate 63 0

/-- A write of 1 to the mailbox's start register (R42): ignored while a command runs. -/
def State.mailStart (s : State) (fn : Nat) : State :=
  if (s.fn fn).running then s else
  match s.mailEvent fn with
  | some e => (s.updFn fn fun f => { f with running := true }).post [e]
  | none => s.mailDone fn (failResult 1)

/-- Update the device registers. -/
def State.updDev (s : State) (f : Dev → Dev) : State := { s with dev := f s.dev }

/-- A write to LINK_STATUS (R27): events and PROTO are cleared by writing 1, ENABLE acts by LINK_ENABLE. -/
def State.linkWrite (s : State) (n : Nat) (v : BitVec 64) : State :=
  let s := s.updLink n fun l =>
    { l with downEv := l.downEv && !v.getLsbD 9, lostEv := l.lostEv && !v.getLsbD 10,
             proto := l.proto &&& ~~~(v.extractLsb' 16 16) }
  if v.getLsbD 8 = (s.link n).enable then s else s.post [.linkEnable n (v.getLsbD 8)]

/-- REGISTER_WRITE (R37): a 64-bit write to BAR0. In the hold only THERMTRIP can be written (R32), by the THERMTRIP event. The command
bytes of the mailbox may be written while a command runs: one that waits reads them again (DESIGN CHOICE, log 106). -/
def execRegisterWrite (fn off : Nat) (val : BitVec 64) (s : State) : Out :=
  if s.dev.state = .tripped || s.fns.length ≤ fn then .next s
  else if off = 0 then .next (if val.getLsbD 5 then s.updDev fun d => { d with trip := false } else s)
  else if off = 0x18 then .next (s.updFn fn fun f => { f with apCtx := val.toNat % 64, apOn := val.getLsbD 63 })
  else if off = 0x20 then
    .next (s.updFn fn fun f => { f with apBase := val.toNat % 2 ^ 56 / barSize fn * barSize fn })
  else if 0x1000 ≤ off && off < 0x1040 then
    .next (s.updFn fn fun f => { f with cmd := splice f.cmd (off - 0x1000) (leBytes 8 val.toNat) })
  else if off = 0x1080 then .next (if val = 1 then s.mailStart fn else s)
  else if 0x2000 ≤ off && off < 0x2400 then .next (s.post [.queueRegisterWrite fn ((off - 0x2000) / 64) (off % 64) val])
  else if fn != 0 then .next s
  else if off = 0x80000 then .next (s.updDev fun d => { d with peerId := val.setWidth 6 })
  else if 0x80100 ≤ off && off < 0x80300 && off % 8 = 0 then
    .next (s.updDev fun d => { d with route := sset d.route ((off - 0x80100) / 8) (val.setWidth 16) })
  else if 0x80400 ≤ off && off < 0x80480 && off % 8 = 0 then .next (s.linkWrite ((off - 0x80400) / 8) val)
  else if off = 0x80800 then .next (s.post [.chpwrWrite val])
  else .next s

/-- CHPWR_WRITE (R161): PDT and SRT are written, CUURST is cleared where 1s are written. -/
def execChpwrWrite (val : BitVec 64) (s : State) : Out :=
  if s.dev.state = .tripped then .next s else
  .next (s.updDev fun d =>
    { d with pdt := val.setWidth 12, srt := val.extractLsb' 16 16, cuurst := d.cuurst &&& ~~~(val.extractLsb' 32 16) })

/-! ### Queues (R48, R49) -/

/-- QUEUE_REGISTER_WRITE (R48): QBASE and LOGN change only while the queue is idle; ENABLE is judged on the values that result
from the write. -/
def execQueueRegisterWrite (fn q off : Nat) (val : BitVec 64) (s : State) : Out :=
  if s.dev.state = .tripped || s.fns.length ≤ fn || 16 ≤ q then .next s else
  let x := s.queue fn q
  let idle := !x.enable && x.head == x.tail
  if off = 0 then .next (s.updQueue fn q fun x => if idle then { x with base := val.toNat } else x)
  else if off = 8 then
    let n := val.toNat % 32
    let logn := if idle then n else x.logn
    let ok := 4 ≤ logn && logn ≤ 16 && x.base % 4096 == 0
    let en := val.getLsbD 5 && ok
    let s := s.updQueue fn q fun x =>
      { x with logn := logn, enable := en, head := x.head % 2 ^ logn, tail := x.tail % 2 ^ logn }
    .next (if en then s.pending [.launchRecord fn q] else s)
  else if off = 0x20 then
    .next (s.updQueue fn q fun x => { x with err := x.err && !val.getLsbD 0 })
  else .next s

/-- Offer a new tail (R49). -/
def State.offerTail (s : State) (fn q : Nat) (v : Nat) : State :=
  let x := s.queue fn q
  let n := 2 ^ x.logn
  if v = x.tail then s
  else if n ≤ v || (v + n - x.head) % n < (x.tail + n - x.head) % n then
    (s.updQueue fn q fun x => { x with err := true }).emit (.msix fn 0)
  else (s.updQueue fn q fun x => { x with tail := v }).pending [.launchRecord fn q]

/-- Write a translation request's status and send its vector (R78). A bad request's VEC of 0, or of 64 to 254, is sent as it stands
(DESIGN CHOICE, log 108). -/
def State.trReport (s : State) (fn addr vec : Nat) (st : BitVec 8) : State :=
  let s := s.hostWrite (addr + 3) [st]
  if vec = 0xFF then s else s.emit (.msix fn vec)

/-- The first translation request of a queue starts (R78): its fields are read and checked. A NEWFRAME other than 0 in a request that
is not MIGRATE is bad, and so is an address that is not a multiple of 64, where STATUS is still written at its byte 3 (DESIGN
CHOICE, log 108). -/
def State.trStart (s : State) (t : TrReq) : State :=
  let b := s.hostRead t.addr 64
  let op := field b 0 1
  let all := field b 1 1 % 2 == 1
  let vec := field b 2 1
  let base := if all then 0 else field b 8 8
  let len := if all then 2 ^ 56 else field b 0x10 8
  let peers := (upto 0 64).filter fun p => bit (field b 0x18 8) p
  let frame := field b 0x20 8
  let ok := 1 ≤ op && op ≤ 4 && field b 1 1 < 2 && (vec == 0xFF || (1 ≤ vec && vec ≤ 63)) && zeros (slice b 4 4) &&
    base % 65536 == 0 && len % 65536 == 0 && len != 0 && base + len ≤ 2 ^ 56 && zeros (slice b 0x28 24) &&
    (op == 3 || frame == 0) && t.addr % 64 == 0
  let up := fun (x : TrReq) =>
    { x with op := op, vec := vec, base := base, len := len, named := peers, peers := peers, frame := frame,
             status := if ok then 0 else 3, phase := if ok then .queued else .final }
  let s := { s with trs := mapIf (fun (x : TrReq) => x.id == t.id) up s.trs }
  if !ok then s.post [.translationRequestDone t.id]
  else
    s.pending [match op with
      | 1 => .drain t.id
      | 2 => .confirm t.id
      | 3 => .migrate t.id
      | _ => .exportsRequest t.id]

/-- A translation request arrives (R78): it starts when no other of its queue is under way. One for a queue that is bound to no
context is dropped: nothing is read, no STATUS is written, no vector is sent (DESIGN CHOICE, log 125). -/
def State.trArrive (s : State) (fn q addr : Nat) : State :=
  match (s.queue fn q).ctx with
  | none => s
  | some c =>
    let t : TrReq :=
      { id := s.nextId, fn := fn, q := q, ctx := c, addr := addr, op := 0, vec := 0xFF, base := 0, len := 0, named := [],
        peers := [],
        frame := 0, exps := none, phase := .queued, status := 0 }
    let first := !s.trs.any fun x => x.fn == fn && x.q == q
    let s := { s.bump with trs := s.trs ++ [t] }
    if first then s.trStart t else s

/-- DOORBELL (R49, R78): offset 0 offers a tail, offset 0x800 a translation request. In the hold the request is unsupported
(R32). -/
def execDoorbell (fn q off : Nat) (v : BitVec 64) (s : State) : Out :=
  if s.dev.state = .tripped then .next (s.emit (.unsupported fn))
  else if s.fns.length ≤ fn || 16 ≤ q then .next s
  else if off = 0 then .next (s.offerTail fn q (v.toNat % 2 ^ 32))
  else if off = 0x800 then .next (s.trArrive fn q v.toNat)
  else .next s

/-! ### The memory aperture (R39) -/

/-- The context and address that the aperture registers give a BAR4 access; none where it is unsupported. -/
def State.aperture (s : State) (fn off n : Nat) : Option (Nat × Nat) :=
  let f := s.fn fn
  let va := f.apBase + off
  if s.dev.state != .ready || s.fns.length ≤ fn || !f.apOn || barSize fn < off + n || 2 ^ 56 < va + n then none
  else
    match s.ctx? f.apCtx with
    | none => none
    | some c => if c.fn != fn then none else some (c.id, va)

/-- The translation of a BAR4 access; a walk is not kept (R72). None where the access is unsupported. -/
def State.barXlat (s : State) (b : BarReq) : Option Xlat :=
  match s.lookup b.ctx b.va with
  | none => none
  | some x => if x.lost || x.va + 2 ^ x.lg < b.va + b.n || (b.wr.isSome && !x.w) then none else some x

/-- A party of no launch that waits for peers. -/
def barWho (ctx owner : Nat) : Who :=
  { team := 0, unit := 18, launch := 0, ctx := ctx, core := Config.cores, owner := owner, entry := owner, cls := .none,
    batch := none, org := Origin.none }

/-- The number under which a BAR4 access waits for a peer. -/
def BarReq.who (b : BarReq) : Who := barWho b.ctx (2 ^ 120 + b.id)

/-- A BAR4 access is over. -/
def State.dropBar (s : State) (id : Nat) : State := { s with bars := s.bars.filter fun (b : BarReq) => b.id != id }

/-- A BAR4 read completes, with EP set after an uncorrectable error (R39). -/
def State.barRead (s : State) (b : BarReq) (bs : List Byte) (ep : Bool) : State :=
  (s.dropBar b.id).emit (.barData b.fn bs (ep || b.bad))

/-- A BAR4 access completes with Unsupported Request (R39). -/
def State.barRefused (s : State) (b : BarReq) : State := (s.dropBar b.id).emit (.unsupported b.fn)

/-- A BAR4 read of a peer page: the bytes are asked for first. -/
def State.barPeer (s : State) (b : BarReq) (t : Tgt) : State :=
  match s.pends.find? fun p => (match p.act with
    | .hold o _ => o == b.who.owner
    | _ => false) with
  | none => s.askPeers b.who [(b.va, b.n, t)]
  | some p =>
    if s.reqs.any fun r => r.tag == p.tag then s else
    let s := { s with pends := s.pends.filter fun q => q.tag != p.tag }
    match p.act with
    | .hold _ (some st) => if st = 0x12 then s.barRead b (getBytes p.got b.va b.n) true else s.barRefused b
    | _ => s.barRead b (getBytes p.got b.va b.n) false

/-- A BAR4 access is served, or waits: for a draining page (R83), a locked line (R162), a channel, a peer. A word written whole
loses its poison (R204); a write of a context that retires is dropped (R164). -/
def State.serveBar (s : State) (b : BarReq) : State :=
  if (s.ctx? b.ctx).any (·.retiring) then if b.wr.isSome then s.dropBar b.id else s.barRefused b
  else
  match s.barXlat b with
  | none => s.barRefused b
  | some x =>
    if x.drain then s else
    match x.target b.va, b.wr with
    | .home d uam cmb, none =>
      let r := s.serveNow (.bar b.id) b.ctx 0 (.home d uam cmb) b.n false
      if !r.2 then r.1
      else
        let s := r.1.mergeHeld d b.n
        s.barRead b (s.pointRead b.ctx d uam b.n) (s.spanBad b.ctx d uam b.n)
    | .home d uam cmb, some bs =>
      let r := s.serveNow (.bar b.id) b.ctx 0 (.home d uam cmb) b.n true
      if !r.2 then r.1 else ((r.1.mergeHeld d b.n).pointWrite b.ctx 0 d uam (pairsFrom 0 bs)).dropBar b.id
    | t, none => s.barPeer b t
    | t, some bs =>
      let tag := s.nextId
      ((s.openWrites b.who).addReq tag 0 18 Config.cores b.ctx b.va b.n t (.write (pairsFrom 0 bs))).dropBar b.id

/-- A function's BAR4 accesses are served in the order of their arrival: the first of each function. -/
def State.barHeads (s : State) : List Nat :=
  (s.bars.filter fun (b : BarReq) => !s.bars.any fun (c : BarReq) => c.fn == b.fn && c.id < b.id).map (·.id)

/-- The BAR4 access with a number goes on, if it is the first of its function. -/
def State.stepBar (s : State) (id : Nat) : State :=
  match s.bars.find? fun (b : BarReq) => b.id == id with
  | none => s
  | some b => if s.barHeads.contains id then s.serveBar b else s

/-- A BAR4 access arrives: what the aperture registers say then decides where it goes (R39). -/
def State.barArrive (s : State) (fn off n : Nat) (wr : Option (List Byte)) : State :=
  match s.aperture fn off n with
  | none => s.emit (.unsupported fn)
  | some (ctx, va) =>
    let b : BarReq := { id := s.nextId, fn := fn, ctx := ctx, va := va, n := n, wr := wr, bad := false }
    ({ s with bars := s.bars ++ [b] }.bump).stepBar b.id

/-- BAR4_READ (R39): a poisoned word sets EP and ends no task. -/
def execBar4Read (fn off n : Nat) (s : State) : Out := .next (s.barArrive fn off n none)

/-- BAR4_WRITE (R39). -/
def execBar4Write (fn off : Nat) (data : List (BitVec 8)) (s : State) : Out :=
  .next (s.barArrive fn off data.length (some data))

end Sys2Proof.Machine
end

