-- ==== Sys2Proof/Machine/Sched.lean ====
section
/-!
DEFINITION. The grid scheduler: launch records and their checks (R50-R56, R100), leases (R75, R77), Tideway slots (R258), the
placement of clusters under the gates (R89-R98, R102), dispatch (R93) and completion (R57-R59).
-/

namespace Sys2Proof.Machine

/-! ### Completion records (R57) -/

/-- The 32 bytes of a completion record. -/
def cplRecord (tag : BitVec 32) (status : BitVec 8) (ctx done info seq : Nat) : List Byte :=
  leBytes 4 tag.toNat ++ leBytes 1 status.toNat ++ leBytes 1 ctx ++ leBytes 2 0 ++ leBytes 8 done ++ leBytes 8 info ++
    leBytes 8 seq

/-- Write a completion record and send its vector (R51, R59). A reserved VEC, which only the record of a launch that fails with BAD_RECORD
can hold, names no vector: no message is sent (DESIGN CHOICE, log 123). -/
def State.cplWrite (s : State) (fn cpl vec : Nat) (rec_ : List Byte) : State :=
  let s := s.hostWrite cpl rec_
  if 1 ≤ vec && vec ≤ 63 then s.emit (.msix fn vec) else s

/-- Events that are posted only when they do not stand ready already. -/
def State.pendingOnce (s : State) (e : Ev) : State := if s.ev.due.contains e then s else s.pending [e]

/-! ### Leases (R75-R77) -/

/-- Whether a launch holds its lease (R56, R77). -/
def Launch.leased (l : Launch) : Bool :=
  match l.phase with
  | .lease => false
  | .done => false
  | .parked => l.resumeTo != .lease
  | _ => true

/-- Whether two spans meet. -/
def spansMeet (a n b m : Nat) : Bool := a < b + m && b < a + n

/-- Whether a live lease or an export of its context covers a translation's page; those of a context that retires are released when
its retirement ends (R77). -/
def State.covered (s : State) (x : Xlat) : Bool :=
  (s.ctx? x.ctx).any (·.retiring) || (s.launches.any fun l => l.ctx == x.ctx && l.leased && l.lr.leases.any fun g => spansMeet x.va (2 ^ x.lg) g.base g.len) ||
    s.ctxs.any fun c => c.id == x.ctx && c.exports.any fun e => spansMeet x.va (2 ^ x.lg) e.range.base e.range.len

/-- Drop the translations that nothing covers any more; a draining one stays until CONFIRM (R72, R80). -/
def State.trimStore (s : State) : State := { s with xl := s.xl.filter fun x => x.drain || s.covered x }

/-! ### The end of a launch -/

/-- Directory entries still in use are neither valid nor held once the launch completes (R113, R312). -/
def State.closeBlock (s : State) (l : Launch) : State :=
  match l.block with
  | none => s
  | some b => l.dir.foldl (fun s e => (s.writeDir l.ctx b e.1 e.2.1 false 0 false).getD s) s

/-- The end of a RING_EVICT command, with its byte 1. -/
def State.evictDone (s : State) (l : Nat) (ack : Nat) : State :=
  match s.ring.evicting.find? fun e => e.2 == l with
  | none => s
  | some (fn, _) =>
    { s with ring := { s.ring with evicting := s.ring.evicting.filter fun e => e.2 != l } }.mailDone fn
      (leBytes 1 0 ++ leBytes 1 ack)

/-- A launch completes (R57-R59): its record is written, its slots, block, lease and teams are released, and its queue goes
on. A RING_EVICT of it that has not ended ends now (R267). -/
def State.complete (s : State) (l : Launch) : State :=
  let s := (s.closeBlock l).freeShares l.id
  let s := s.cplWrite l.fn l.lr.cpl l.lr.vec (cplRecord l.lr.tag l.status l.ctx l.doneN l.info l.sealSeq)
  let ring := { s.ring with slots := mapIf (fun (x : Slot) => x.launch == l.id) (fun x => { x with rel := true }) s.ring.slots }
  let s := { s with
    ring := ring
    teams := s.teams.filter fun (t : Team) => t.launch != l.id
    kept := s.kept.filter fun (k : KeptAcq) => k.launch != l.id
    launches := s.launches.filter fun (x : Launch) => x.id != l.id }
  (s.trimStore.evictDone l.id (if l.status = 0x13 then 1 else 2)).pendingOnce (.launchRecord l.fn l.q)

/-! ### Launch records (R51-R55) -/

/-- The fields of a launch record, its tables not yet read. Counts that hold one less are put right. A DEADLINE of 0 stands for
1,000,000 (R51), and the register DEADLINE shows that number (DESIGN CHOICE, log 124). -/
def recFields (b : List Byte) : LaunchRec :=
  let f := field b
  let u := fun o => BitVec.ofNat 64 (f o 8)
  { progress := f 3 1 % 4, sealOn := bit (f 3 1) 2, serial := bit (f 3 1) 3, prio := BitVec.ofNat 4 (f 3 1 / 16),
    vec := f 4 1, lane := u 8, pilot := u 0x10, trap := u 0x18, features := BitVec.ofNat 128 (f 0x20 16),
    gx := f 0x30 4 + 1, gy := f 0x34 2 + 1, gz := f 0x36 2 + 1, groups := f 0x38 1, clw := f 0x39 1, clh := f 0x3A 1,
    partw := BitVec.ofNat 32 (f 0x3C 4), deadline := if f 0x40 4 = 0 then 1000000 else f 0x40 4,
    wdog := BitVec.ofNat 32 (f 0x44 4), bcores := f 0x48 2, bpower := f 0x4A 2, bbw := f 0x4C 4, ring := f 0x5A 2,
    tag := BitVec.ofNat 32 (f 0x5C 4), seed := u 0x68, args := u 0x70, cpl := f 0x78 8, sealPtr := u 0x80, leases := [],
    regions := [] }

/-- Step 1 of R55. -/
def recOk (b : List Byte) (r : LaunchRec) : Bool :=
  field b 0 2 == 2 && bits (field b 2 1) 6 2 == 0 && zeros (slice b 5 3) && field b 0x3B 1 == 0 && zeros (slice b 0x88 120) &&
    (r.vec == 0xFF || (1 ≤ r.vec && r.vec ≤ 63)) && r.lane.toNat % 2 == 0 && field b 0x50 8 % 16 == 0 &&
    field b 0x60 8 % 32 == 0 && r.cpl % 32 == 0

/-- Steps 4 and 5 of R55. -/
def shapeOk (r : LaunchRec) : Bool :=
  1 ≤ r.groups && r.groups ≤ 16 && 1 ≤ r.clw && r.clw ≤ 8 && 1 ≤ r.clh && r.clh ≤ 16 && r.csize ≤ 48 && r.teams ≤ 2 ^ 32

/-- A team's share of the pool (R52). -/
def LaunchRec.share (r : LaunchRec) : Nat :=
  regUnits r.groups (bits r.partw.toNat 0 8) + spadUnits r.partw + accUnits r.partw

/-- Step 5 of R55. -/
def partOk (r : LaunchRec) : Bool :=
  let v := bits r.partw.toNat 0 8
  64 ≤ v && v ≤ 248 && v % 8 == 0 && spadUnits r.partw ≤ 16 && accTiles r.partw ≤ 64 && r.partw.toNat < 2 ^ 20 && r.share ≤ 24

/-- A launch's limits after the ceilings are applied (R51, R100). -/
def LaunchRec.coreLimit (r : LaunchRec) (c : Ctx) : Nat := if r.bcores = 0 then c.ccores else r.bcores
def LaunchRec.powerLimit (r : LaunchRec) (c : Ctx) : Nat := if r.bpower = 0 then c.cpower else r.bpower
def LaunchRec.bwLimit (r : LaunchRec) (c : Ctx) : Nat := if r.bbw = 0 then c.cbw else r.bbw

/-- Step 7 of R55: whether PROGRESS can be honoured (R100). -/
def progressOk (r : LaunchRec) (c : Ctx) : Bool :=
  let e := 2 * r.groups
  let bc := r.coreLimit c
  let bp := r.powerLimit c
  let t := min 4 (min (16 / r.groups) (24 / r.share))
  let n := r.clusters
  (r.progress == 0 || r.features.getLsbD 1) &&
    (if r.progress = 3 then
       ceilDiv n t * r.csize ≤ bc && n ≤ 4 * (32 / r.clw) * (16 / r.clh) * t && r.teams * e ≤ bp
     else r.csize ≤ bc && r.csize * e ≤ bp)

/-- Where a table entry lies in a mapped, local page (R51): device address and whether its page is update-at-memory; none when the walk
fails or finds a peer page. -/
def State.tableAt (s : State) (c : Ctx) (va : Nat) : Option (Nat × Bool) :=
  match s.walk c.id c.table va with
  | none => none
  | some x => if x.peer.isSome then none else some (x.frame + (va - x.va), x.uam)

/-- Read `n` bytes of a table: the status `st` where they are not to be had, MEM_UNCORRECTABLE for a poisoned word (R204; log
112). -/
def State.tableRead (s : State) (c : Ctx) (va n : Nat) (st : BitVec 8) : BitVec 8 ⊕ List Byte :=
  match s.tableAt c va with
  | none => .inl st
  | some (d, uam) => if s.spanBad c.id d uam n then .inl 0x12 else .inr (s.pointRead c.id d uam n)

/-- A lease entry (R53). -/
def leaseOf (b : List Byte) : Option Range :=
  let x := field b 0 8
  let base := bits x 0 56
  let len := field b 8 8
  if bits x 57 7 == 0 && base % 65536 == 0 && len != 0 && len % 65536 == 0 && base + len ≤ 2 ^ 56 then
    some { base := base, len := len, w := bit x 56 }
  else none

/-- Read the entries of a table, or answer with the status of the first that cannot be read, or is malformed (`st`). -/
def readTable {α : Type} (s : State) (c : Ctx) (size : Nat) (st : BitVec 8) (f : List Byte → Option α) : List Nat → BitVec 8 ⊕ List α
  | [] => .inr []
  | va :: t =>
    match s.tableRead c va size st with
    | .inl e => .inl e
    | .inr b =>
      match f b with
      | none => .inl st
      | some x =>
        match readTable s c size st f t with
        | .inl e => .inl e
        | .inr l => .inr (x :: l)

/-- The pages of lease ranges (R75): none when a walk fails, a writable range maps a leaf that is not, a peer cannot be
reached, or the lease alone needs more than the store holds. -/
def State.leasePages (s : State) (c : Ctx) : List Range → Option (List Xlat)
  | [] => some []
  | r :: t =>
    match s.walkRange c.id c.table (Config.storeSize + 1) r.base (r.base + r.len), s.leasePages c t with
    | some l, some m =>
      let bad := l.any fun x => (r.w && !x.w) || (match x.peer with
        | some p => (s.linksTo p).isEmpty
        | none => false)
      let all := m ++ l.filter fun x => !m.any (·.same x)
      if bad || Config.storeSize < all.length then none else some all
    | _, _ => none

/-- A region entry (R54). -/
def regionOf (b : List Byte) : Option (Nat × Nat × Nat) :=
  let so := field b 0 8
  let len := field b 16 8
  if so % 64 == 0 && len != 0 && field b 24 8 == 0 then some (so, field b 8 8, len) else none

/-- Step 10 of R55: the regions of a launch keep to R54. -/
def regionsOk (r : LaunchRec) (l : List (Nat × Nat × Nat)) : Bool :=
  l.all fun e =>
    (l.filter fun x => x.1 == e.1).length ≤ 8 && r.inLease e.2.1 e.2.2 false &&
      l.all fun x => x.1 == e.1 || !spansMeet x.2.1 x.2.2 e.2.1 e.2.2

/-- The checks of R55 that a record's tables take no part in, in their order: the first failure's status, or 0. -/
def headCheck (c : Option Ctx) (b : List Byte) : BitVec 8 :=
  let r := recFields b
  if !recOk b r then 0x02 else
  match c with
  | none => 0x09
  | some c =>
    if field b 2 1 % 64 != c.id then 0x09
    else if r.features &&& ~~~(Config.cap1 ++ Config.cap0) != 0 then 0x01
    else if !shapeOk r then 0x03
    else if !partOk r then 0x04
    else if c.ccores < r.bcores || c.cpower < r.bpower || c.cbw < r.bbw then 0x18
    else if !progressOk r c then 0x05
    else if c.ringq < r.ring then 0x06
    else 0

/-- The addresses of the entries of a record's lease table and of its region table; none where the count is out of range. -/
def leaseEntries (b : List Byte) : Option (List Nat) :=
  let n := field b 0x58 1
  if n = 0 || 32 < n then none else some ((upto 0 n).map fun i => field b 0x50 8 + 16 * i)
def regionEntries (b : List Byte) : Option (List Nat) :=
  let n := field b 0x59 1
  if 64 < n then none else some ((upto 0 n).map fun i => field b 0x60 8 + 32 * i)

/-- The checks of R55 in their order: the first failure's status, or the record with its tables. -/
def State.launchCheck (s : State) (c : Option Ctx) (b : List Byte) : BitVec 8 × LaunchRec :=
  let r := recFields b
  let st := headCheck c b
  if st != 0 then (st, r) else
  match c, leaseEntries b with
  | some c, some ls =>
    (match readTable s c 16 0x07 leaseOf ls with
     | .inl e => (e, r)
     | .inr g =>
       let r := { r with leases := g }
       match s.leasePages c g, regionEntries b with
       | none, _ => (0x07, r)
       | some _, none => (0x08, r)
       | some _, some rs =>
         match readTable s c 32 0x08 regionOf rs with
         | .inl e => (e, r)
         | .inr l => if regionsOk r l then (0x00, { r with regions := l }) else (0x08, r))
  | _, _ => (0x07, r)

/-- The places of the table entries that the checks of a record read: device address, bytes and whether the page is
update-at-memory. -/
def State.tableSpans (s : State) (c : Option Ctx) (b : List Byte) : List (Nat × Nat × Bool) :=
  match c with
  | none => []
  | some x =>
    if headCheck c b != 0 then []
    else
      (((leaseEntries b).getD []).map (fun a => (a, 16)) ++ ((regionEntries b).getD []).map fun a => (a, 32)).filterMap
        fun (e : Nat × Nat) => (s.tableAt x e.1).map fun (p : Nat × Bool) => (p.1, e.2, p.2)

/-- Spans of device memory are made ready for one asker's read; whether all of them are. -/
def State.spansReady (s : State) (who : Asker) (ctx : Nat) (l : List (Nat × Nat × Bool)) : State × Bool :=
  l.foldl (fun a e =>
    let x := a.1.spanReady who ctx 0 e.1 e.2.1 e.2.2 false
    (x.1, a.2 && x.2)) (s, true)

/-- The read of spans that are ready: their tuples are done, and what is held on them is merged first (R200). -/
def State.spansRead (s : State) (who : Asker) (l : List (Nat × Nat × Bool)) : State :=
  l.foldl (fun s e => (if e.2.2 then s.spanDone who e.1 e.2.1 else s).mergeHeld e.1 e.2.1) s

/-- The tables of a record are reached at their homes (R155, R160, R162), and what is held on their lines is merged (R181, R200);
false while they are not to be had. -/
def State.reachTables (s : State) (fn q : Nat) (c : Option Ctx) (b : List Byte) : State × Bool :=
  let l := s.tableSpans c b
  let who := Asker.table fn q
  let r := s.spansReady who ((c.map (·.id)).getD 0) l
  if r.2 then (r.1.spansRead who l, true) else r

/-- Whether a launch has dispatched its last team (R50, R93). -/
def State.allDispatched (s : State) (l : Launch) : Bool :=
  (l.phase == .running || l.phase == .finishing) && l.nextK == l.lr.clusters && l.parked.isEmpty &&
    s.teams.all fun t => t.launch != l.id || t.live || t.ended

/-- Whether the next record of a queue may start its checks (R50). -/
def State.queueFree (s : State) (fn q : Nat) : Bool :=
  s.launches.all fun l => l.fn != fn || l.q != q || (!l.lr.serial && s.allDispatched l)

/-- LAUNCH_RECORD (R50, R55): the part fetches a record, checks it once its tables are to be had, and a failure completes it at
once. The queues of a context that retires do not fetch (R46). -/
def execLaunchRecord (fn q : Nat) (s : State) : Out :=
  let x := s.queue fn q
  if s.dev.state != .ready || !x.enable || x.head = x.tail then .next s
  else if !s.queueFree fn q || (x.ctx.bind s.ctx?).any (·.retiring) then .next (s.pendingOnce (.launchRecord fn q))
  else
    let b := s.hostRead (x.base + 256 * x.head) 256
    let c := x.ctx.bind s.ctx?
    let w := s.reachTables fn q c b
    if !w.2 then .next (w.1.pendingOnce (.launchRecord fn q)) else
    let s := w.1
    let s' := (s.updQueue fn q fun x => { x with head := (x.head + 1) % 2 ^ x.logn }).pendingOnce (.launchRecord fn q)
    let (st, r) := s.launchCheck c b
    if st != 0 then
      .next (s'.cplWrite fn r.cpl r.vec (cplRecord r.tag st (field b 2 1 % 64) 0 0 0))
    else
      match c with
      | none => .next s'
      | some c =>
        let id := s'.nextId
        let l := { Launch.start id c.id fn q x.head s.time r with phase := .lease, nextK := 0, resumeTo := .lease }
        .next ({ s'.bump with launches := s'.launches ++ [l] }.pending [.takeLease id])

/-! ### Taking the lease and the slots (R56, R75, R258) -/

/-- Whether a DRAIN or a MIGRATE under way covers a page of a lease (R75). -/
def State.leaseBlocked (s : State) (l : Launch) (pages : List Xlat) : Bool :=
  (s.trs.any fun t => t.ctx == l.ctx && (t.op == 1 || t.op == 3) && t.phase != .final &&
    pages.any fun x => spansMeet x.va (2 ^ x.lg) t.base t.len) ||
    s.xl.any fun y => y.drain && pages.any fun x => x.same y

/-- Make pages resident. -/
def State.addPages (s : State) (pages : List Xlat) : State :=
  let new := s.newPages pages
  { s with xl := (s.xl.filter fun x => !new.any (·.same x)) ++ new }

/-- TAKE_LEASE (R75): every page is walked; the launch waits for room in the store and for drains. -/
def execTakeLease (l : Nat) (s : State) : Out :=
  match s.launch? l with
  | none => .next s
  | some x =>
    if x.phase != .lease then .next s else
    match s.ctx? x.ctx with
    | none => .next s
    | some c =>
      match s.leasePages c x.lr.leases with
      | none =>
        .next ((s.updLaunch l fun x => { x with phase := .finishing, status := 0x07 }).pending [.gridCompletion l])
      | some pages =>
        if s.leaseBlocked x pages || !s.roomFor pages then .next (s.pending [.takeLease l])
        else
          let s := s.addPages pages
          .next ((s.updLaunch l fun x => { x with phase := .slots, resumeTo := .slots }).pending [.slotAssignment l])

/-- Slots that launches of a context hold (R56). -/
def State.slotsHeld (s : State) (ctx : Nat) : Nat :=
  s.launches.foldl (fun a l => if l.ctx == ctx then a + l.slots.length else a) 0

/-- The lowest-numbered slots that are not assigned. -/
def State.freeSlots (s : State) (n : Nat) : List Nat :=
  ((upto 0 Config.ringSlots).filter fun k => !s.ring.slots.any (·.n == k)).take n

/-- The address of a launch's ring save entry (R267, R312). -/
def ringEntryAt (b i : Nat) : Nat := blockBase b + 0x1000 + 80 * i

/-- The entries of an evicted launch are boarded again, in entry order, into its new slots (R267); none when an entry cannot
be read. -/
def State.boardSaved (s : State) (l : Launch) (b : Nat) : List (Nat × Nat) → Option State
  | [] => some s
  | (i, n) :: t =>
    match s.loadSpan l.ctx 3 (ringEntryAt b i) 80 0 with
    | none => none
    | some img =>
      let up := fun (x : Slot) =>
        { x with occ := bit (imgNat img 0 1) 1, tag := BitVec.ofNat 16 (imgNat img 2 2), payload := BitVec.ofNat 512 (imgNat img 16 64) }
      State.boardSaved { s with ring := { s.ring with slots := mapIf (fun (x : Slot) => x.n == n) up s.ring.slots } } l b t

/-- A launch that has its slots goes on to placement; saved payloads are boarded first (R258, R267). -/
def State.slotsReady (s : State) (l : Launch) : State :=
  let go := fun (s : State) =>
    (s.updLaunch l.id fun x => { x with phase := .running, resumeTo := .running, ringSave := 0 }).pendingOnce
      (.clusterPlacement l.id)
  if l.ringSave = 0 then go s else
  match l.block with
  | none => go s
  | some b =>
    let s := (upto 0 l.ringSave).foldl (fun s i => s.reachSave l.ctx 3 (ringEntryAt b i) 80) s
    match s.boardSaved l b ((upto 0 l.ringSave).zip l.slots) with
    | some s => go s
    | none => s.endLaunch l.id (if (upto 0 l.ringSave).any fun i => s.loadStatus l.ctx 3 (ringEntryAt b i) 80 == 0x12 then 0x12 else 0x13)

/-- SLOT_ASSIGNMENT (R56, R258): the launch waits for its quota, takes the lowest free slots, and goes on when each has passed
the junction. -/
def execSlotAssignment (l : Nat) (s : State) : Out :=
  let again := Ev.slotAssignment l
  match s.launch? l with
  | none => .next s
  | some x =>
    if x.phase != .slots then .next s
    else if x.lr.ring = 0 then .next (s.slotsReady x)
    else if x.slots.isEmpty then
      let quota := match s.ctx? x.ctx with
        | some c => c.ringq
        | none => 0
      let free := s.freeSlots x.lr.ring
      if quota < s.slotsHeld x.ctx + x.lr.ring || free.length < x.lr.ring then .next (s.pending [again])
      else
        let mk := fun (n : Nat) =>
          ({ n := n, occ := false, ctx := x.ctx, tag := 0, payload := 0, launch := l, asg := false, rel := false,
             evict := false } : Slot)
        let s := { s with ring := { s.ring with slots := s.ring.slots ++ free.map mk } }
        .next ((s.updLaunch l fun x => { x with slots := free }).pending [again])
    else if s.ring.slots.all fun y => y.launch != l || y.asg || y.rel then .next (s.slotsReady x)
    else .next (s.pending [again])

/-! ### Eviction (R267) -/

/-- The bytes of a ring save entry (R267). -/
def Slot.entry (x : Slot) : Sparse 8 :=
  nonzero (numAt 0 8 (b2n x.asg + b2n x.occ * 2 + x.ctx * 4 + x.tag.toNat * 2 ^ 16) ++ numAt 16 64 x.payload.toNat)

/-- Put a changed slot back. -/
def State.updSlotN (s : State) (n : Nat) (f : Slot → Slot) : State :=
  { s with ring := { s.ring with slots := mapIf (fun (x : Slot) => x.n == n) f s.ring.slots } }

/-- Write the entries of alighted slots from index `i` on (R267); none when one cannot be written. -/
def State.writeEntries (s : State) (l : Launch) (b : Nat) : Nat → List Slot → Option State
  | _, [] => some s
  | i, x :: t =>
    match s.saveSpan l.ctx 2 (ringEntryAt b i) 80 x.entry with
    | some s => s.writeEntries l b (i + 1) t
    | none => none

/-- The slots that have been alighted for a launch, in increasing slot number. -/
def Ring.saved (r : Ring) (l : Nat) : List Slot :=
  (upto 0 Config.ringSlots).filterMap fun n => r.alit.find? fun x => x.launch == l && x.n == n

/-- When every slot of a launch has passed a junction, the entries are written, and its slots are released (R267); an entry that
cannot be written is a double fault (R305), and the command ends with the grid. Entries of an earlier eviction that have not been boarded
yet stay saved. -/
def State.evictCheck (s : State) (l : Nat) : State :=
  if s.ring.slots.any fun x => x.launch == l && x.evict then s
  else
    match s.launch? l with
    | none => s
    | some x =>
      let saved := s.ring.saved l
      let out := match x.block with
        | some b => s.writeEntries x b 0 saved
        | none => if saved.isEmpty then some s else none
      let clear := fun (s : State) => { s with ring := { s.ring with alit := s.ring.alit.filter fun (y : Slot) => y.launch != l } }
      match out with
      | none => (clear s).endLaunch l 0x13
      | some s =>
        let rel := fun (y : Slot) => { y with rel := true, launch := 0 }
        let s := clear { s with ring := { s.ring with slots := mapIf (fun (y : Slot) => y.launch == l) rel s.ring.slots } }
        let n := if saved.isEmpty then x.ringSave else saved.length
        (s.updLaunch l fun y => { y with phase := .evicted, slots := [], resumeTo := .slots, ringSave := n }).evictDone l 0

/-- The harbour die alights a slot that is to be evicted as it passes a junction (R267). -/
def State.alightSlot (s : State) (x : Slot) : State :=
  let s := s.updSlotN x.n fun y => { y with occ := false, tag := 0, payload := 0, evict := false }
  if x.occ then { s with ring := { s.ring with alit := s.ring.alit ++ [x] } } else s

/-- JUNCTION_PASS (R258, R267): a slot passes the junction: it is assigned, released or evicted there. -/
def execJunctionPass (slot : Nat) (s : State) : Out :=
  match s.ring.slots.find? fun x => x.n == slot with
  | none => .next s
  | some x =>
    if x.rel then .next { s with ring := { s.ring with slots := s.ring.slots.filter fun (y : Slot) => y.n != slot } }
    else if !x.asg then .next (s.updSlotN slot fun x => { x with asg := true })
    else if x.evict then .next ((s.alightSlot x).evictCheck x.launch)
    else .next s

/-! ### Placement (R89-R98) -/

/-- The teams of cluster `k` (R89). -/
def LaunchRec.cluster (r : LaunchRec) (k : Nat) : List Nat := upto (k * r.csize) (min r.csize (r.teams - k * r.csize))

/-- The core of position `j` of a rectangle at an origin of a die. -/
def rectCore (r : LaunchRec) (die row col j : Nat) : Nat := die * 512 + (row + j / r.clw) * 32 + (col + j % r.clw)

/-- The pool units of a core that retiring contexts still hold (R46). -/
def Core.heldUnits (c : Core) : Nat := c.held.foldl (fun a e => a + e.2) 0

/-- Whether a core has room for one more team of a launch (R90). -/
def State.coreFits (s : State) (r : LaunchRec) (core : Nat) : Bool :=
  let here := s.teams.filter fun t => t.core == core
  let on := here.filter fun t => !t.ended
  on.length < Config.teamSlots && on.foldl (fun a t => a + t.groups.length) 0 + r.groups ≤ Config.groupSlots &&
    here.foldl (fun a t => a + t.share) 0 + (s.core core).heldUnits + r.share ≤ Config.poolUnits

/-- The teams of a cluster that are to be placed, with their positions in the rectangle. -/
def clusterTeams (r : LaunchRec) (k : Nat) (saved : Option SavedCluster) : List (Nat × Nat) :=
  let all := (r.cluster k).map fun t => (t, t - k * r.csize)
  match saved with
  | none => all
  | some c => all.filter fun e => c.teams.any fun x => x.1 == e.1

/-- The first rectangle that has room for teams at positions, in the order of R91: its die, row and column. -/
def State.findRect (s : State) (r : LaunchRec) (js : List Nat) : Option (Nat × Nat × Nat) :=
  ((upto 1 4).map fun d => (s.dev.lastDie + d) % 4).findSome? fun die =>
    (upto 0 (17 - r.clh)).findSome? fun row =>
      (upto 0 (33 - r.clw)).findSome? fun col =>
        if js.all fun j => s.coreFits r (rectCore r die row col j) then some (die, row, col) else none

/-- The charged teams of a launch or of a context (R94, R98). -/
def State.chargedTeams (s : State) (f : Launch → Bool) : List Team :=
  s.teams.filter fun t => t.charged && (match s.launch? t.launch with
    | some l => f l
    | none => false)

/-- Whether the core and power charges stay within limits when teams on `cores` are added (R94, R96). -/
def gateOk (ts : List Team) (cores : List Nat) (groups cmax pmax : Nat) : Bool :=
  (distinct (ts.map (·.core) ++ cores)).length ≤ cmax &&
    ts.foldl (fun a t => a + t.power) 0 + cores.length * 2 * groups ≤ pmax

/-- The power and bandwidth gates of R96 for a cluster of `n` teams. -/
def State.powerGates (s : State) (l : Launch) (c : Ctx) (n : Nat) : Bool :=
  let mine := s.chargedTeams fun x => x.id == l.id
  let all := s.chargedTeams fun x => x.ctx == l.ctx
  let placed := mine.length
  let sum := fun (ts : List Team) => ts.foldl (fun a t => a + t.power) 0 + n * 2 * l.lr.groups
  let ctxLast := s.launches.foldl (fun a x => if x.ctx == l.ctx then a + x.lastBytes else a) 0
  let extra := if placed = 0 then 0 else l.lastBytes * n
  let scale := max placed 1
  sum mine ≤ l.lr.powerLimit c && sum all ≤ c.cpower &&
    l.lastBytes * scale + extra ≤ l.lr.bwLimit c * scale && ctxLast * scale + extra ≤ c.cbw * scale

/-- The gates of R96 for a cluster on cores. -/
def State.gates (s : State) (l : Launch) (c : Ctx) (cores : List Nat) : Bool :=
  gateOk (s.chargedTeams fun x => x.id == l.id) cores l.lr.groups (l.lr.coreLimit c) (l.lr.powerLimit c) &&
    gateOk (s.chargedTeams fun x => x.ctx == l.ctx) cores l.lr.groups c.ccores c.cpower && s.powerGates l c cores.length

/-- Whether a new cluster leaves room in the directory (R312). -/
def State.dirRoom (s : State) (l : Launch) (n : Nat) : Bool :=
  (l.dir.filter fun e => e.2.2).length + (s.teams.filter fun t => t.launch == l.id && !t.ended).length + n ≤ 8192

/-- The cluster of a launch that is placed next (R92, R101, R115). -/
def Launch.nextCluster (l : Launch) : Option (Nat × Option SavedCluster) :=
  match l.parked.find? fun c => c.first with
  | some c => some (c.k, some c)
  | none =>
    if l.nextK < l.lr.clusters then some (l.nextK, none)
    else l.parked.head?.map fun c => (c.k, some c)

/-- Since when a launch's next cluster waits. -/
def Launch.waits (l : Launch) : Option Nat :=
  match l.nextCluster with
  | some (_, some c) => some c.since
  | some (_, none) => some l.since
  | none => none

/-- Since when the oldest of a launch's waiting clusters waits: every cluster that is unplaced or parked waits (R92, R101). -/
def Launch.oldest (l : Launch) : Option Nat :=
  (l.parked.map (·.since) ++ if l.nextK < l.lr.clusters then [l.since] else []).min?

/-- Whether clusters of a launch may be placed: a host pre-emption under way parks them (R113), one of the scheduler's own (R101) leaves
those that wait where they are. -/
def Launch.placeable (l : Launch) : Bool := l.phase == .running && !l.pre.any fun p => p.host.isSome

/-- The launch whose waiting cluster is the oldest in the package, with the time since which it waits (R92). -/
def State.oldestWait (s : State) : Option (Nat × Nat) :=
  (s.launches.filter Launch.placeable).foldl (fun a l =>
    match l.oldest, a with
    | none, _ => a
    | some t, none => some (l.id, t)
    | some t, some (i, u) => if t < u then some (l.id, t) else some (i, u)) none

/-- The launch whose cluster, the oldest that waits, has waited 1 ms (R92). -/
def State.holdNow (s : State) : Option Nat :=
  match s.oldestWait with
  | some (l, t) => if t + nanos 1000000 ≤ s.time then some l else none
  | none => none

/-- The lowest group slots of a core that no team on it holds (R90, R157). -/
def State.freeGroupSlots (s : State) (core n : Nat) : List Nat :=
  ((upto 0 Config.groupSlots).filter fun k => !s.teams.any fun t => t.core == core && !t.ended && t.slots.contains k).take n

/-- Place a cluster on a rectangle (R90, R93): its teams wait for dispatch. -/
def State.placeOn (s : State) (l : Launch) (k : Nat) (saved : Option SavedCluster) (die row col : Nat) : State :=
  let s := (clusterTeams l.lr k saved).foldl (fun s e =>
    let uid := s.nextId
    let t := Team.start uid l.id e.1 k (e.2 % l.lr.clw) (e.2 / l.lr.clw) (rectCore l.lr die row col e.2) 0
      (2 * l.lr.groups) s.time l.lr
    let image := match saved with
      | some c => (c.teams.find? fun x => x.1 == e.1).map (·.2)
      | none => none
    let order := match saved with
      | some c => (c.order.find? fun (x : Nat × List Nat) => x.1 == e.1).map fun (x : Nat × List Nat) => x.2
      | none => none
    let t := { t with live := false, resume := image, order := order.getD [], slots := s.freeGroupSlots t.core l.lr.groups }
    { s with teams := s.teams ++ [t] }.bump.pending [.dispatch uid]) s
  let s := s.updLaunch l.id fun x =>
    { x with
      nextK := if saved.isNone then k + 1 else x.nextK
      parked := x.parked.filter fun c => c.k != k }
  s.updDev fun d => { d with lastDie := die, hold := if d.hold.isSome then s.holdNow else none }

/-- Try to place the next cluster of a launch: none when it cannot be (R90, R96, R312). -/
def State.tryPlace (s : State) (id : Nat) : Option State :=
  match s.launch? id with
  | none => none
  | some l =>
    match s.ctx? l.ctx, l.nextCluster with
    | some c, some (k, saved) =>
      let ts := clusterTeams l.lr k saved
      (match s.findRect l.lr (ts.map (·.2)) with
       | none => none
       | some (die, row, col) =>
         if s.gates l c (ts.map fun e => rectCore l.lr die row col e.2) && (saved.isSome || s.dirRoom l ts.length) then
           some (s.placeOn l k saved die row col)
         else none)
    | _, _ => none

/-- Place every cluster of a concurrent grid together, or none (R102). -/
def State.placeAll (s : State) (id : Nat) : Nat → Option State
  | 0 => some s
  | n + 1 =>
    match s.tryPlace id with
    | some s => s.placeAll id n
    | none => none

/-- What placing a launch's next cluster, or its whole concurrent grid, makes of the state. -/
def State.placing (s : State) (l : Launch) : Option State :=
  let held := match s.dev.hold with
    | some h => decide (h < l.id) && (match s.launch? h with
      | some x => x.placeable && x.nextCluster.isSome
      | none => false)
    | none => false
  if !l.placeable || l.nextCluster.isNone || held then none
  else if l.lr.progress = 3 then s.placeAll l.id (l.lr.clusters - l.nextK + l.parked.length)
  else s.tryPlace l.id

/-- Whether one launch is served before another (R92): the higher PRIO, then the one that passed its checks first. -/
def Launch.before (a b : Launch) : Bool := b.lr.prio < a.lr.prio || (a.lr.prio == b.lr.prio && a.id < b.id)

/-- CLUSTER_PLACEMENT (R89-R96, R102). -/
def execClusterPlacement (l : Nat) (s : State) : Out :=
  let again := Ev.clusterPlacement l
  match s.launch? l with
  | none => .next s
  | some x =>
    if x.nextCluster.isNone || x.phase == .parked || x.phase == .evicted || x.phase == .finishing || x.phase == .done then .next s
    else if s.launches.any fun y => y.before x && (s.placing y).isSome then .next (s.pendingOnce again)
    else
      match s.placing x with
      | none => .next (s.pendingOnce again)
      | some s => .next (s.pendingOnce again)

/-- OLDEST_CLUSTER_HOLD (R92): a cluster has waited 1 ms; no younger launch places one before it. -/
def execOldestClusterHold (s : State) : Out := .next (s.updDev fun d => { d with hold := s.holdNow })

/-! ### Completion (R59, R274) -/

/-- Whether work that a launch began is still under way: writes, remote ops, tile operations, copies, engine commands and
seals. -/
def State.launchBusy (s : State) (l : Launch) : Bool :=
  let mine := fun u => s.teams.any fun t => t.uid == u && t.launch == l.id
  let cmd := fun (e : Engine) => e.queue.any (fun c => c.launch == l.id) || (match e.running with
    | some r => r.cmd.launch == l.id
    | none => false)
  (s.reqs.any fun r => mine r.team && r.writes) || (s.rops.any fun r => mine r.team) ||
    (s.cores.any fun k => (k.2.tileQ.any fun o => mine o.team) || k.2.copies.any fun c => mine c.team) ||
    (s.teams.any fun t => t.launch == l.id && cmd t.copy) ||
    (s.ctxs.any fun c => c.id == l.ctx && (c.coll ++ [c.sealEng]).any cmd) ||
    (s.seals.any fun j => j.launch == l.id) || s.ownBusy (ownerOf (16 * l.id + 10) 0)

/-- GRID_COMPLETION (R59, R63): the grid's writes are performed, then the seal is issued and written, then the record. -/
def execGridCompletion (l : Nat) (s : State) : Out :=
  match s.launch? l with
  | none => .next s
  | some x =>
    if x.phase != .finishing then .next s
    else if s.launchBusy x then .next (s.pendingOnce (.gridCompletion l))
    else if x.lr.sealOn && x.status = 0 && !x.sealed then
      let j : SealJob := { id := s.nextId, ctx := x.ctx, launch := l, cmd := false, n := 0, desc := x.lr.sealPtr.toNat,
                           tag := x.lr.tag.toNat, head := [] }
      .next ({ s.bump with seals := s.seals ++ [j] }.pending [.sealRecord j.id])
    else .next (s.complete x)

end Sys2Proof.Machine
end

