-- ==== Sys2Proof/Machine/Preempt.lean ====
section
/-!
DEFINITION. Pre-emption (R101, R109-R113, R310): cooperative and forced saves, the team image (R314) written and read back, and
the dispatch of a placed team, fresh (R93) or from its image (R115).
-/

namespace Sys2Proof.Machine

/-! ### Writing a team image (R314) -/

/-- Write an owned plane. -/
def State.savePlane (s : State) (ctx u a : Nat) (p : Plane) : Option State :=
  if p.owner = some u then s.saveSpan ctx 2 a 8192 p.data else some s

/-- The bytes of a header page that belong to the pilot: those of a trapped pilot stand as its trap and its handler have
left them (R300, R310). -/
def pilotByte (k : Nat) : Bool := k < 2 || k == 3 || (0x18 ≤ k && k < 0x280)

/-- The header page of a team image; `regs` are the fault registers of a trapped pilot. -/
def State.saveHead (s : State) (ctx : Nat) (t : Team) (a : Nat) (regs : Option FaultRegs) : Option State := do
  let new := t.headImage t.goneMask regs
  if regs.isNone then s.saveSpan ctx 2 a 0x4000 new
  else
    let old ← s.loadSpan ctx 2 a 0x4000 0
    s.saveSpan ctx 2 a 0x4000 (ssets (skeep old pilotByte) (skeep new fun k => !pilotByte k))

/-- The parts of a team image beside its group images; `regs` are the fault registers of a trapped pilot. -/
def State.saveTeamParts (s : State) (ctx : Nat) (t : Team) (a : Nat) (regs : Option FaultRegs) : Option State := do
  let c := s.core t.core
  let s ← s.saveHead ctx t a regs
  let s ← s.saveSpan ctx 6 (a + 0x200000) (4096 * t.acc) (nonzero (sparseAt 0 4 t.tiles))
  let s ← s.savePlane ctx t.uid (a + 0x240000) c.front
  let s ← s.savePlane ctx t.uid (a + 0x242000) c.shadow
  let s ← s.saveSpan ctx 2 (a + 0x244000) 64 (nonzero (c.front.image t.uid 0 ++ c.shadow.image t.uid 8))
  s.saveSpan ctx 18 (a + 0x300000) t.spadBytes t.spad

/-- An image that cannot be written, or read back, is a double fault (R305). -/
def State.saveFault (s : State) (u unit : Nat) : State :=
  s.doubleFault u unit ((Origin.none.info 0x13 0 0 0).regs false unit 0 (s.grp u unit).rgnPc)

/-- A team's traps in their order, the one in the handler first. -/
def Team.traps (t : Team) : List Trapped := t.inTrap.toList ++ t.held

/-- Stop a team's handler for a save (R310): its registers are not kept, and its trap waits at the head of the held ones. -/
def State.stopHandler (s : State) (u : Nat) : State :=
  let s := s.withdrawTide u 16
  let lost := (s.pends.filter fun p => p.team == u && p.unit == 16 && p.cls != .store && p.cls != .rop).map (·.tag)
  let left := s.reqs.filter fun (r : Req) => !(lost.contains r.tag && r.phase != Phase.served)
  let s := { s with pends := s.pends.filter (fun (p : Pend) => !lost.contains p.tag), reqs := left }
  s.updTeam u fun t => { t with inTrap := none, held := t.traps, handler := { Grp.none with st := .gone } }

/-- Whether a team's copy engine context has come to rest for a save (R281). -/
def Team.copyRest (t : Team) : Bool :=
  match t.copy.running with
  | none => true
  | some r => r.phase == .stopped && !r.moved && r.fin.isNone

/-- Bring a team's pilot, handler and copy engine context to a stop (R110, R281). -/
def State.stopTeam (s : State) (t : Team) : State :=
  let s := if t.inTrap.isSome then s.stopHandler t.uid else s
  let stop := fun (r : Running) => if r.fin.isSome || r.phase = .stopped then r else { r with phase := .stopped, moved := true }
  s.updTeam t.uid fun x =>
    { x with
      stopCopy := true
      pilot := if x.pilot.st == .live then { x.pilot with st := .stopped } else x.pilot
      copy := { x.copy with running := x.copy.running.map stop } }

/-- Whether a tile operation of a team's units is queued in its core's matrix unit. -/
def State.tilesQueued (s : State) (u : Nat) (f : Nat → Bool) : Bool :=
  (s.core (s.coreOf u)).tileQ.any fun o => o.team == u && f o.unit

/-- Whether what a stopped team has issued is over: its pilot's and handler's operations, its tile operations, and its copy
engine's (R310). -/
def State.teamRest (s : State) (t : Team) : Bool :=
  t.copyRest && !s.tilesQueued t.uid (fun _ => true) && s.idle t.uid 16 && s.idle t.uid 17 && !s.ownBusy (ownerOf (16 * t.uid) 0) &&
    !s.pends.any fun p => p.team == t.uid && (p.unit == 16 || p.unit == 17)

/-- A team is saved (R111): its charges end, its planes have no owner, its image is valid. -/
def State.teamSaved (s : State) (l : Launch) (t : Team) (i : Nat) : State :=
  let trapped := t.traps.any fun x => x.unit < 16
  let s := (s.updCore t.core (·.disown t.uid)).updTeam t.uid fun x =>
    { x with
      pilot := { x.pilot with st := .gone }, handler := { x.handler with st := .gone }, charged := false, ended := true,
      order := t.traps.map (·.unit), held := [], inTrap := none, openRun := RunRec.none, queues := List.replicate 4 [] }
  (s.updLaunch l.id fun x =>
    { x with
      dir := (i, t.tid, true) :: x.dir.filter (fun e => e.1 != i)
      pre := x.pre.map fun p => { p with saved := p.saved + 1, forced := p.forced + b2n (t.forced || trapped) } }).gridCheck l.id

/-- A pending swap of a core's planes, applied before the planes are saved, unless their clock stands still. -/
def State.settleSwap (s : State) (core : Nat) : State := if s.frozen core then s else s.updCore core (·.applySwap)

/-- Save a team whose groups have all been saved or have exited (R110, R111). -/
def State.saveTeam (s : State) (u : Nat) (again : Ev) : Out :=
  match s.team? u, s.launchOf u with
  | some t, some l =>
    if t.ended || !t.saved || !t.groups.all (fun g => g.st == .gone || g.st == .saved) then .next s
    else
      let s := s.stopTeam t
      match s.team? u, l.block, t.index with
      | some t, some b, some i =>
        if !s.teamRest t then .next (s.pendingOnce again)
        else
          let s := s.settleSwap t.core
          let regs := (t.traps.find? fun x => x.unit == 17).map (·.regs)
          let kind := b2n (t.forced || t.traps.any fun x => x.unit < 16)
          match (s.saveTeamParts l.ctx t (imageBase b i) regs).bind fun s => s.writeDir l.ctx b i t.tid true kind false with
          | none =>
            .next (if regs.isSome && s.loadStatus l.ctx 2 (imageBase b i) 0x4000 = 0x12 then s.endLaunch l.id 0x12 else s.saveFault u 0)
          | some s => .next (s.teamSaved l t i)
      | _, _, _ => .next (s.saveFault u 0)
  | _, _ => .next s

/-- Write a group's save image (R310, R315); the team follows with its last group. -/
def State.saveGroup (s : State) (u g kind : Nat) (pc : U64) : State :=
  match s.launchOf u with
  | none => s
  | some l =>
    match s.takeBlock l.id with
    | none => s.saveFault u g
    | some (s, b) =>
      match s.takeIndex u b with
      | none => s.saveFault u g
      | some (s, i) =>
        let x := s.grp u g
        let h : ImgHead := { kind := kind, gid := g, tent := x.firstActive.getD 0, pc := pc, regs := FaultRegs.zero }
        match s.saveSpan l.ctx 3 (imageBase b i + grpImageAt g) grpImageSize (x.image h) with
        | none => s.saveFault u g
        | some s => (s.updGrp u g fun x => { x with st := .saved, stopAt := none }).pendingOnce (.cooperativeSave u g)

/-- The PC of a group's lowest active entry. -/
def Grp.firstPc (g : Grp) : U64 := (g.entry (g.firstActive.getD 0)).pc

/-- COOPERATIVE_SAVE (R110, R376): every active fragment is parked at a `yield` with PREQ set and the counters are 0. -/
def execCooperativeSave (team g : Nat) (s : State) : Out :=
  let x := s.grp team g
  match x.st with
  | .gone => s.saveTeam team (.cooperativeSave team g)
  | .saved => s.saveTeam team (.cooperativeSave team g)
  | .stopped => .next s
  | .live =>
    if x.preq && x.allParked (· == .yielded) && s.idle team g && !s.tideBusy team g then
      .next (s.saveGroup team g 0 x.firstPc)
    else .next s

/-! ### Forced saves (R310) -/

/-- Whether a park is one from which a forced stop withdraws the instruction (R310): `acq`, `tlw`, `wbat`, `bar`, `cbar`, `wait`,
`take` on an empty queue, or an unserved Tideway operation. -/
def Park.withdrawn : Park → Bool
  | .counters _ _ _ _ _ wait => wait
  | .take _ => true
  | .sync _ _ => true
  | .bar _ _ => true
  | .timeline _ _ => true
  | .batch _ => true
  | .tide _ => true
  | _ => false

/-- An acquire of a unit that no home has granted. -/
def Req.openAcq (r : Req) (u unit : Nat) : Bool :=
  r.team == u && r.unit == unit && r.kind == .acq && r.phase != Phase.served

/-- What is kept of the acquires of a unit that a peer was asked for, should the peer's grant be on its way (R184). -/
def State.keptAcqs (s : State) (u unit : Nat) : List KeptAcq :=
  (s.reqs.filter fun r => r.openAcq u unit && r.phase == .waiting).filterMap fun r =>
    match r.tgt with
    | .peer p a =>
      some { id := r.id, launch := s.launchIdOf u, gid := (s.holder u unit).1, tid := (s.holder u unit).2, peer := p, addr := a, came := false }
    | _ => none

/-- Withdraw the acquires of a unit that no home has granted (R310); a peer that was asked for one learns of it, and a grant that it
gave before still holds (R184). -/
def State.withdrawSync (s : State) (u unit : Nat) : State :=
  let words := (s.reqs.filter fun r => r.openAcq u unit && r.phase == .waiting).filterMap fun r =>
    match r.tgt with
    | .peer p a => some (Emission.syncDrop r.id p a)
    | _ => none
  { s with reqs := s.reqs.filter fun (r : Req) => !r.openAcq u unit, out := words ++ s.out, kept := s.kept ++ s.keptAcqs u unit }

/-- A group is stopped by force: it issues nothing more. -/
def State.forceStop (s : State) (u g : Nat) : State :=
  (((s.withdrawSync u g).withdrawTide u g).updGrp u g fun x => { x with st := .stopped, stopAt := some s.clk })

/-- Whether a sync request of a unit is still to be answered. -/
def State.syncOpen (s : State) (u unit : Nat) : Bool :=
  s.reqs.any fun r => r.team == u && r.unit == unit && (r.kind == .acq || r.kind == .rel)

/-- Whether everything that a unit issued is over. -/
def State.unitRest (s : State) (u unit : Nat) : Bool :=
  s.idle u unit && !s.tideBusy u unit && !s.syncOpen u unit && !s.tilesQueued u (· == unit) &&
    !s.pends.any fun p => p.team == u && p.unit == unit && p.act != .prefetch

/-- The barriers that hold a group and that every group has reached: their completion wins over a forced stop (R435). -/
def State.fullBars (s : State) (u g : Nat) : List Ev :=
  let at_ := fun (cl : Bool) => (s.grp u g).parkedBy fun k => match k with
    | .bar c _ => c == cl
    | _ => false
  match s.team? u with
  | none => []
  | some t => ([false, true].filter fun cl => at_ cl && s.barrierFull t cl).map fun cl => .barrierCompletion u cl

/-- Whether a pre-emption of a team, by its uid, is past its deadline (R110). -/
def State.forcingU (s : State) (u : Nat) : Bool :=
  match s.team? u with
  | some t => s.forcing t
  | none => false

/-- Whether a park waits for a migration (R83). -/
def Park.migrates : Park → Bool
  | .migrating _ => true
  | _ => false

/-- FORCED_SAVE (R310): a group that is in a run is stopped after `rend`, when the event comes again. -/
def execForcedSave (team g : Nat) (s : State) : Out :=
  let again := Ev.forcedSave team g
  let x := s.grp team g
  if !s.forcingU team then .next s
  else if x.st == .gone || x.st == .saved then s.saveTeam team (.cooperativeSave team g)
  else
    let s := s.updTeam team fun t => { t with forced := true }
    if s.trapStopped team g then
      let s := if (s.inTrap team).isSome then s.stopHandler team else s
      if !s.unitRest team g then .next (s.pendingOnce again)
      else .next ((s.updGrp team g fun x => { x with st := .saved }).pendingOnce (.cooperativeSave team g))
    else
      match x.stopAt with
      | none =>
        if x.run.isSome then .next s
        else
          match s.fullBars team g with
          | [] => .next ((s.forceStop team g).pendingOnce again)
          | b :: bs => .next (s.post (b :: bs ++ [again]))
      | some t =>
        if x.parkedBy Park.migrates then .next (s.post [.forcedSaveReplay team g])
        else if s.unitRest team g then .next (s.saveGroup team g 1 x.firstPc)
        else if t + 4096 ≤ s.clk && !x.parkedBy Park.withdrawn && !s.syncOpen team g then
          .next (s.post [.forcedSaveReplay team g])
        else .next (s.pendingOnce again)

/-- The results of unreturned loads are discarded, group-issued copies stop after their chunk, and the fragments that
issued them, with the lowest active one, go back to the region PC (R281, R295, R310). What is parked at `yield` stays there
(R376), with its loads and copies, and so does what a replay cannot end. -/
def State.discardLoads (s : State) (u g : Nat) : State :=
  let x := s.grp u g
  let core := s.coreOf u
  let held := fun (e : Nat) => (x.entry e).park == some .yielded
  let gone := s.pends.filter fun p => p.replayed u g && !held p.entry
  let tags := gone.map (·.tag)
  let stop := (s.core core).copies.filter fun c =>
    c.team == u && c.unit == g && !held c.entry && !s.ownBusy (ownerOf (16 * c.id + 1) 0)
  let es := (gone.map (·.entry)) ++ (stop.map (·.entry)) ++ x.firstActive.toList ++
    (upto 0 8).filter fun e => (x.entry e).park.any Park.migrates
  let back := (distinct es).filter fun e => (x.entry e).st == .active && !held e && !(x.entry e).stays tags
  let s := { s with pends := s.pends.filter (fun (p : Pend) => !tags.contains p.tag)
                    reqs := s.reqs.filter fun (r : Req) => !(tags.contains r.tag && !r.writes) }
  let s := s.updCore core fun c => { c with copies := c.copies.filter fun k => !stop.any fun y => y.id == k.id }
  s.updGrp u g fun x => back.foldl (fun (y : Grp) e => y.goBack e) x

/-- RESUMEPC of a replay image: the region PC (R310), unless the lowest active fragment is parked at `yield` (R376). -/
def Grp.replayPc (x : Grp) : U64 :=
  if (x.entry (x.firstActive.getD 0)).park == some .yielded then x.firstPc else x.rgnPc

/-- FORCED_SAVE_REPLAY (R310): KIND 2, at the region PC, once issued stores, remote ops, copies and tile operations are
complete. -/
def execForcedSaveReplay (team g : Nat) (s : State) : Out :=
  let again := Ev.forcedSaveReplay team g
  let x := s.grp team g
  if !s.forcingU team || x.st != .stopped || x.stopAt.isNone then .next s
  else if s.trapStopped team g then .next (s.pendingOnce (.forcedSave team g))
  else
    let s := s.discardLoads team g
    if s.unitRest team g then .next (s.saveGroup team g 2 x.replayPc) else .next (s.pendingOnce again)

/-! ### Dispatch (R93) and resumption (R115, R310, R314, R315) -/

/-- The fault registers in an image at `off` (R315). -/
def regsFrom (img : Sparse 8) (off fimg : Nat) : FaultRegs :=
  let u := fun k => BitVec.ofNat 64 (imgNat img (off + 8 * k) 8)
  { fcause := u 0, fpc := u 1, faddr := u 2, flanes := u 3, fprov := u 4, fepc := u 5, frop := u 6, fimg := BitVec.ofNat 64 fimg,
    frgn := u 7 }

/-- A group as its image gives it: a trapped one stays stopped, any other resumes, which is a region entry (R294, R315). -/
def Grp.resume (base : Grp) (img : Sparse 8) (vregs : Nat) (preq : Bool) : Grp :=
  let tent := imgNat img 4 1
  let pc := BitVec.ofNat 64 (imgNat img 8 8)
  let g := { base.reload img vregs with preq := preq }
  if imgNat img 2 1 = 3 then { g with st := .stopped }
  else
    let g := if (g.entry tent).st == .active then g.updEntry tent fun (e : Entry) => { e with pc := pc } else g
    g.regionAt pc

/-- The commands in an image of a copy engine context from an offset, numbered from `n`. -/
def cmdsFrom (img : Sparse 8) (off n launch team : Nat) : Nat → List Cmd
  | 0 => []
  | k + 1 =>
    { n := n, launch := launch, team := team, bytes := sgets img off 64 } :: cmdsFrom img (off + 64) (n + 1) launch team k

/-- The copy engine context of a resumed team (R281, R314): a command that was running goes on from NEXT. -/
def engineFrom (img : Sparse 8) (launch team : Nat) : Engine :=
  let next := imgNat img 0x2008 8
  let q := imgNat img 0x2018 1
  let run := cmdsFrom img 0x2040 (next - q - 1) launch team 1
  let none_ := zeros (sgets img 0x2040 64)
  { Engine.fresh 0 with
    timeline := imgNat img 0x2000 8
    next := next
    queue := cmdsFrom img 0x2080 (next - q) launch team q
    running := if none_ then none else run.head?.map fun c => { Running.start c with next := imgNat img 0x2010 8 } }

/-- What a team image holds, group images by GID. -/
structure TeamImage where
  head   : Sparse 8
  groups : List (Nat × Sparse 8)
  tiles  : Sparse 8
  front  : Sparse 8
  shadow : Sparse 8
  planes : Sparse 8
  spad   : Sparse 8
  deriving DecidableEq, Repr

/-- Read the group images of those of `gs` that had not exited. -/
def State.loadGroups (s : State) (ctx a gone : Nat) : List Nat → Option (List (Nat × Sparse 8))
  | [] => some []
  | g :: t =>
    if bit gone g then s.loadGroups ctx a gone t
    else do
      let x ← s.loadSpan ctx 3 (a + grpImageAt g) grpImageSize 0
      let r ← s.loadGroups ctx a gone t
      some ((g, x) :: r)

/-- The spans of a team image that a resumption reads: address and bytes. -/
def Team.spans (t : Team) (a : Nat) : List (Nat × Nat) :=
  [(a, 0x4000)] ++ (upto 0 t.groups.length).map (fun g => (a + grpImageAt g, grpImageSize)) ++
    [(a + 0x200000, 4096 * t.acc), (a + 0x240000, 0x4040), (a + 0x300000, t.spadBytes)]

/-- Read a team image; none when a page of it cannot be had, or a word reads as poisoned (R204). -/
def State.loadTeam (s : State) (ctx a : Nat) (t : Team) : Option TeamImage := do
  let head ← s.loadSpan ctx 2 a 0x4000 0
  let groups ← s.loadGroups ctx a (imgNat head 16 8) (upto 0 t.groups.length)
  let tiles ← s.loadSpan ctx 6 (a + 0x200000) (4096 * t.acc) 0
  let planes ← s.loadSpan ctx 2 (a + 0x244000) 64 0
  let own := fun o => imgNat planes (o + 3) 1 == 1
  let front ← if own 0 then s.loadSpan ctx 2 (a + 0x240000) 8192 0 else some []
  let shadow ← if own 8 then s.loadSpan ctx 2 (a + 0x242000) 8192 0 else some []
  let spad ← s.loadSpan ctx 18 (a + 0x300000) t.spadBytes 0
  some { head := head, groups := groups, tiles := tiles, front := front, shadow := shadow, planes := planes, spad := spad }

/-- A plane that the image owns is restored and taken into ownership (R452). -/
def planeBack (old : Plane) (hdr data : Sparse 8) (off u : Nat) : Plane :=
  if imgNat hdr (off + 3) 1 = 1 then
    { data := data, owner := some u, bfmt := BitVec.ofNat 4 (imgNat hdr off 1), bsgn := bit (imgNat hdr (off + 1) 1) 0,
      bblk := BitVec.ofNat 2 (imgNat hdr (off + 2) 1), kp := BitVec.ofNat 2 (imgNat hdr (off + 4) 1) }
  else old

/-- The run records of a queue in a header page. -/
def queueFrom (head : Sparse 8) (q : Nat) : List RunRec :=
  ((upto 0 8).filter fun r => imgNat head (0x400 + 1024 * q + 128 * r + 0x74) 1 != 0).map fun r =>
    runFrom head (0x400 + 1024 * q + 128 * r)

/-- A team as its image gives it. -/
def Team.restore (t : Team) (r : LaunchRec) (x : TeamImage) (age : Nat) (preq : Bool) : Team :=
  let grp := fun g =>
    match x.groups.find? fun e => e.1 == g with
    | some e => (Grp.start r (age * 16 + g) 0).resume e.2 t.vregs preq
    | none => Grp.none
  let pexit := bit (imgNat x.head 3 1) 0
  let pilot := (Grp.startPilot r).updEntry 0 fun (e : Entry) => { e with pc := BitVec.ofNat 64 (imgNat x.head 0x20 8) }
  { t with
    live := true
    resume := none
    groups := (upto 0 t.groups.length).map grp
    pexit := pexit
    pilot := { pilot with
      st := if pexit then .gone else if imgNat x.head 0x40 8 != 0 then .stopped else .live
      s := sparseFrom 64 x.head 0x100 8 32 }
    openRun := runFrom x.head 0x200
    queues := (upto 0 4).map (queueFrom x.head)
    pseq := BitVec.ofNat 32 (imgNat x.head 24 4)
    copy := engineFrom x.head t.launch t.uid
    spad := x.spad
    tiles := sparseFrom 32 x.tiles 0 4 (1024 * t.acc) }

/-- Write the images of a resumed team's trapped units at its new index, and give their traps (R310). -/
def State.retrap (s : State) (ctx u a : Nat) (x : TeamImage) : List Nat → Option (State × List Trapped)
  | [] => some (s, [])
  | unit :: t => do
    let img := if unit = 17 then x.head else
      match x.groups.find? fun e => e.1 == unit with
      | some e => e.2
      | none => []
    let at_ := if unit = 17 then a else a + grpImageAt unit
    let s ← s.saveSpan ctx 3 at_ (if unit = 17 then 0x4000 else grpImageSize) img
    let (s, r) ← s.retrap ctx u a x t
    let tr : Trapped :=
      { unit := unit, regs := regsFrom img (if unit = 17 then 0x40 else 0x80) at_, entry := imgNat img 4 1,
        born := 0, preq := false, notag := false }
    some (s, tr :: r)

/-- The trapped units of a resumed team enter the handler again, the one that was in it first (R310). -/
def State.reenter (s : State) (l : Launch) (u b : Nat) (x : TeamImage) (order : List Nat) : Option State :=
  if order.isEmpty then some s else
  match s.takeIndex u b with
  | none => none
  | some (s, i) =>
    match s.retrap l.ctx u (imageBase b i) x order with
    | none => none
    | some (s, []) => some s
    | some (s, h :: rest) =>
      some ((s.updTeam u fun t => { t with held := rest }).loadTrap u h rest.length)

/-- The commands of a resumed copy engine context go on (R281). -/
def State.copyGoesOn (s : State) (u : Nat) : State :=
  match s.team? u with
  | none => s
  | some t =>
    match t.copy.running with
    | some _ => (s.updCore t.core fun c => { c with copyTurn := c.copyTurn ++ [16 * u] }).pending [.chunkEnd (16 * u)]
    | none => s.cmdNext (16 * u)

/-- A team resumes from image `i` (R115, R281, R310, R312, R315). What its new core's L1 holds of the context may be older than
what the team has acquired or waited for, and is cleared (R166, R172, R178). -/
def State.resumeTeam (s : State) (l : Launch) (t : Team) (i age : Nat) (preq : Bool) : Option State := do
  let b ← l.block
  let s := (t.spans (imageBase b i)).foldl (fun s e => s.reachSave l.ctx 18 e.1 e.2) s
  let x ← s.loadTeam l.ctx (imageBase b i) t
  let s ← s.writeDir l.ctx b i t.tid false 0 false
  let s := s.updLaunch l.id fun y => { y with dir := y.dir.filter (fun e => e.1 != i) }
  let s := s.updTeam t.uid fun y => y.restore l.lr x age preq
  let s := (s.settleSwap t.core).clearL1Ctx t.core l.ctx
  let s := s.updCore t.core fun c =>
    { c with front := planeBack c.front x.planes x.front 0 t.uid, shadow := planeBack c.shadow x.planes x.shadow 8 t.uid }
  let s ← s.reenter l t.uid b x t.order
  some (s.copyGoesOn t.uid)

/-- A team image that could not be read back: MEM_UNCORRECTABLE for a poisoned word (R204), else a double fault (R305). -/
def State.resumeFault (s : State) (l : Launch) (t : Team) (i : Nat) : State :=
  match l.block with
  | some b =>
    if (t.spans (imageBase b i)).any fun e => s.loadStatus l.ctx 18 e.1 e.2 == 0x12 then s.endLaunch l.id 0x12 else s.saveFault t.uid 0
  | none => s.saveFault t.uid 0

/-- Whether a team's core cannot allot its share yet, or has a team that was placed before it to start (R93, R149). -/
def State.dispatchWaits (s : State) (t : Team) : Bool :=
  let here := s.teams.filter fun x => x.core == t.core
  let used := (here.filter fun x => x.live).foldl (fun a x => a + x.share) 0
  Config.poolUnits < used + (s.core t.core).zeroing.length + (s.core t.core).heldUnits + t.share ||
    here.any fun x => x.uid < t.uid && !x.live && !x.ended

/-- DISPATCH (R93, R115): the core allots the team's share and its groups and pilot start, or resume from their image. -/
def execDispatch (team : Nat) (s : State) : Out :=
  match s.team? team, s.launchOf team with
  | some t, some l =>
    if t.live || t.ended then .next s
    else if s.dispatchWaits t then .next (s.pending [.dispatch team])
    else
      let age := s.nextId
      let s := s.bump
      let preq := match l.pre with
        | some p => p.target.contains t.cluster
        | none => false
      match t.resume with
      | none =>
        .next (s.updTeam team fun x =>
          { x with live := true,
                   groups := (upto 0 l.lr.groups).map fun g => { Grp.start l.lr (age * 16 + g) l.lr.lane with preq := preq } })
      | some i =>
        match s.resumeTeam l t i age preq with
        | some s => .next s
        | none => .next (s.resumeFault l t i)
  | _, _ => .next s

/-! ### Starting a pre-emption (R101, R109) -/

/-- The clk T0 of a pre-emption of clusters (R109): PREQ is set in every group of theirs. -/
def State.preStart (s : State) (l : Nat) (host : Option Nat) (target : List Nat) : State :=
  let p : Preempt := { t0 := s.clk, host := host, target := target, saved := 0, forced := 0 }
  let mark := fun (t : Team) => { t with groups := t.groups.map fun (g : Grp) => { g with preq := true } }
  ({ s with teams := mapIf (fun (t : Team) => t.launch == l && target.contains t.cluster && !t.ended) mark s.teams }.updLaunch l
    fun x => { x with pre := some p }).gridCheck l

/-- The cluster of a launch that has been placed longest. -/
def State.longestPlaced (s : State) (l : Nat) : Option Nat :=
  ((s.teams.filter fun t => t.launch == l && !t.ended).foldl (fun (a : Option (Nat × Nat)) t =>
    match a with
    | none => some (t.age, t.cluster)
    | some x => if t.age < x.1 then some (t.age, t.cluster) else some x) none).map (·.2)

/-- Whether the next cluster of a launch in parallel mode has waited 1 ms and is refused by the gates (R101): those of power and
bandwidth refuse it wherever it would be placed, that of cores on the rectangle it would have. -/
def State.refusedLong (s : State) (l : Launch) : Bool :=
  l.lr.progress == 2 && l.phase == .running && l.pre.isNone &&
    (match l.waits with
     | some t => decide (t + nanos 1000000 ≤ s.time)
     | none => false) &&
    (match s.ctx? l.ctx, l.nextCluster with
     | some c, some (k, saved) =>
       let ts := clusterTeams l.lr k saved
       (match s.findRect l.lr (ts.map (·.2)) with
        | some (die, row, col) => !s.gates l c (ts.map fun e => rectCore l.lr die row col e.2)
        | none => !s.powerGates l c ts.length)
     | _, _ => false)

/-- PARALLEL_PREEMPTION (R101). -/
def execParallelPreemption (l : Nat) (s : State) : Out :=
  match s.launch? l, s.longestPlaced l with
  | some x, some k =>
    if !s.refusedLong x then .next s
    else
      match s.takeBlock l with
      | none => .next s
      | some (s, _) => .next (s.preStart l none [k])
  | _, _ => .next s

end Sys2Proof.Machine
end

