-- ==== Sys2Proof/Machine/Mailbox.lean ====
section
/-!
DEFINITION. The mailbox commands (R42-R44, R65, R67, R86, R114, R115, R267), the retirement of contexts (R46, R47, R64, R164,
R268, R290) and function-level reset (R32).
-/

namespace Sys2Proof.Machine

/-- The mailbox command of a function. -/
def State.mailCmd (s : State) (fn : Nat) : List Byte := (s.fn fn).cmd

/-- A successful result: byte 1 and what follows. -/
def okResult (b1 : Nat) (rest : List Byte) : List Byte := slice (leBytes 1 0 ++ leBytes 1 b1 ++ rest) 0 64

/-- The bytes of a command that no parameter takes are 0 (R43): spans of offset and length. -/
def spareOk (b : List Byte) (l : List (Nat × Nat)) : Bool := l.all fun e => zeros (slice b e.1 e.2)

/-! ### Contexts (R44, R67, R86) -/

/-- An export entry (R86). -/
def exportOf (b : List Byte) : Option Export :=
  let x := field b 0 8
  let base := bits x 0 56
  let len := field b 8 8
  let p := field b 16 1
  let c := field b 17 1
  if bits x 57 7 == 0 && base % 65536 == 0 && len != 0 && len % 65536 == 0 && base + len ≤ 2 ^ 56 && p < 64 && c < 64 &&
      zeros (slice b 18 14) then
    some { range := { base := base, len := len, w := bit x 56 }, peer := p, ctx := c }
  else none

/-- The export entries of a root descriptor; none when one is malformed. -/
def exportList (b : List Byte) : Nat → Nat → Option (List Export)
  | _, 0 => some []
  | i, n + 1 => do
    let e ← exportOf (slice b (0x100 + 32 * i) 32)
    let t ← exportList b (i + 1) n
    some (e :: t)

/-- A root descriptor (R67): the table's address and the exports; none when it is malformed. -/
def rootDesc (b : List Byte) : Option (Nat × List Export) :=
  let table := field b 0 8
  let n := field b 8 1
  if table % 65536 != 0 || 32 < n || !zeros (slice b 9 247) || !zeros (slice b 0x500 2816) then none
  else (exportList b 0 n).map fun l => (table, l)

/-- A translation as a walk may bring it: one to a peer that no link of ROUTE reaches stays lost (R88). -/
def State.reached (s : State) (x : Xlat) : Xlat :=
  match x.peer with
  | some p => { x with lost := (s.linksTo p).isEmpty }
  | none => x

/-- The pages of exports, each once; none when a walk fails (R67, R69). -/
def State.exportPages (s : State) (ctx table : Nat) : List Export → Option (List Xlat)
  | [] => some []
  | e :: t =>
    match s.walkRange ctx table (Config.storeSize + 1) e.range.base (e.range.base + e.range.len), s.exportPages ctx table t with
    | some l, some m => some (m ++ (l.filter fun x => !m.any (·.same x)).map s.reached)
    | _, _ => none

/-- Contexts and Tideway slots that a function may hold (R43, R44): what VF_CONFIG gave it, or for the physical function what it
gave to none. -/
def State.share (s : State) (fn : Nat) : Nat × Nat :=
  if fn = 0 then
    let vf := s.fns.drop 1
    (64 - vf.foldl (fun a f => a + f.maxCtx) 0, Config.ringSlots - vf.foldl (fun a f => a + f.rings) 0)
  else ((s.fn fn).maxCtx, (s.fn fn).rings)

/-- Contexts and slot quotas that a function holds. -/
def State.holding (s : State) (fn : Nat) : Nat × Nat :=
  let mine := s.ctxs.filter fun c => c.fn == fn
  (mine.length, mine.foldl (fun a c => a + c.ringq) 0)

/-- The parameters of CTX_CREATE keep to R43. -/
def createOk (b : List Byte) : Bool :=
  let u := field b
  (u 1 1 < 64 || u 1 1 == 0xFF) && 1 ≤ u 2 2 && u 2 2 ≤ 2048 && 1 ≤ u 4 2 && u 4 2 ≤ 20000 && u 6 2 ≤ Config.ringSlots &&
    u 8 4 != 0 && u 16 8 % 4096 == 0 && spareOk b [(12, 4), (24, 40)]

/-- What CTX_CREATE reads, once, of its root descriptor: the table, the exports and their pages; or the status that it fails with
(R67). -/
def State.createRoot (s : State) (fn id : Nat) : (Nat × List Export × List Xlat) ⊕ Nat :=
  match (s.fn fn).root with
  | some r => .inl r
  | none =>
    match rootDesc (s.hostRead (field (s.mailCmd fn) 16 8) 4096) with
    | none => .inr 1
    | some (table, exports) =>
      match s.exportPages id table exports with
      | none => .inr 1
      | some pages => if Config.storeSize < pages.length then .inr 2 else .inl (table, exports, pages)

/-- Give a context its id and key, with the pages of its exports resident; it waits while the store lacks room for them (R44,
R67). -/
def State.createAt (s : State) (fn id : Nat) (again : Ev) : Out :=
  let b := s.mailCmd fn
  match s.createRoot fn id with
  | .inr st => .next (s.mailDone fn (failResult st))
  | .inl (table, exports, pages) =>
    let pages := pages.map fun x => { x with ctx := id }
    if !s.roomFor pages then .next ((s.updFn fn fun f => { f with root := some (table, exports, pages) }).pending [again])
    else
      let key := s.dev.keyNext + 1
      let c := { Ctx.fresh id fn key table with
        ccores := field b 2 2, cpower := field b 4 2, ringq := field b 6 2, cbw := field b 8 4, rootDesc := field b 16 8,
        exports := exports }
      let s := { (s.updDev fun d => { d with keyNext := key }).addPages pages with ctxs := s.ctxs ++ [c] }
      .next (s.mailDone fn (okResult id []))

/-- CTX_CREATE (R43, R44, R47, R67). A request for any id, when every id is in use and some are retiring, fails with status 2
(DESIGN CHOICE, log 106). -/
def State.create (s : State) (fn : Nat) (again : Ev) : Out :=
  let b := s.mailCmd fn
  let req := field b 1 1
  let fail := fun (st : Nat) => Host.Outcome.next (s.mailDone fn (failResult st))
  if !createOk b then fail 1
  else if s.dev.state != .ready then fail 2
  else
    let share := s.share fn
    let held := s.holding fn
    let full := share.1 ≤ held.1 || share.2 < held.2 + field b 6 2
    if req = 0xFF then
      match (upto 0 64).find? fun i => (s.ctx? i).isNone with
      | none => fail 2
      | some id => if full then fail 2 else s.createAt fn id again
    else
      match s.ctx? req with
      | some c => if c.retiring then .next (s.pending [.ctxCreateResume fn]) else fail 2
      | none => if full then fail 2 else s.createAt fn req again

/-- CTX_CREATE. -/
def execCtxCreate (fn : Nat) (s : State) : Out := s.create fn (.ctxCreate fn)
/-- CTX_CREATE_RESUME (R47). -/
def execCtxCreateResume (fn : Nat) (s : State) : Out := s.create fn (.ctxCreateResume fn)

/-! ### Retirement (R46) -/

/-- Step 1 of R46 for one queue: `n` records from `i` that no launch has started complete with KILLED. -/
def State.killRecords (s : State) (fn ctx base size : Nat) : Nat → Nat → State
  | _, 0 => s
  | i, n + 1 =>
    let r := recFields (s.hostRead (base + 256 * i) 256)
    (s.cplWrite fn r.cpl r.vec (cplRecord r.tag 0x14 ctx 0 0 0)).killRecords fn ctx base size ((i + 1) % size) n

/-- Step 1 of R46: the queues of a context stop fetching: ENABLE is cleared and QHEAD moves to QTAIL; they stay bound until step 7
(DESIGN CHOICE, log 107). -/
def State.stopQueues (s : State) (c : Ctx) : State :=
  (upto 0 16).foldl (fun s q =>
    let x := s.queue c.fn q
    if x.ctx != some c.id then s
    else
      let size := 2 ^ x.logn
      let s := s.updQueue c.fn q fun x => { x with enable := false, head := x.tail }
      s.killRecords c.fn c.id x.base size x.head ((x.tail + size - x.head) % size)) s

/-- Step 2 of R46 for one launch: its teams stop without a save and its grid completes with KILLED, unless another cause ended
it before. Its pool shares stay in use until step 5. -/
def State.killLaunch (s : State) (l : Launch) : State :=
  let s := ((s.cancelPre l).stopTeams l.id).holdShares l.id l.ctx
  match s.launch? l.id with
  | none => s
  | some x => s.complete { x with status := if x.status = 0 then 0x14 else x.status }

/-- The descriptor of a seal in progress as the retirement finds it (R64). -/
def State.sealHead (s : State) (j : SealJob) : List Byte :=
  match (s.launch? j.launch).map fun l => s.translate l j.desc false with
  | some (.ok (.home d uam _)) => s.pointRead j.ctx d uam 64
  | _ => (upto 0 64).map (Config.freeByte s.free)

/-- The descriptors of a context's seals in progress (R64). -/
def State.sealHeads (s : State) (c : Ctx) : State :=
  { s with seals := mapIf (fun (j : SealJob) => j.ctx == c.id) (fun j => { j with head := s.sealHead j }) s.seals }

/-- Steps 2 and 3 of R46 beside the teams, and what the sweep drops from its start (R164, R268, R290): engines stop; remote ops,
requests, held contributions, L2 lines, L1 lines and station operations of the context go. -/
def State.dropWork (s : State) (c : Ctx) (us : List Nat) : State :=
  let tags := (s.reqs.filter fun r => r.ctx == c.id).map (·.tag)
  let s := { s with
    pends := s.pends.filter fun (p : Pend) => !(us.contains p.team || tags.contains p.tag)
    fetches := s.fetches.filter fun (b : FetchBuf) => !us.contains b.team
    mem := { s.mem with l2 := s.mem.l2.filter fun (x : L2Line) => x.ctx != c.id }
    reqs := s.reqs.filter fun (r : Req) => r.ctx != c.id
    rops := s.rops.filter fun (r : Rop) => r.ctx != c.id
    peerRops := s.peerRops.filter fun (r : PeerRop) => r.ctx != c.id
    combs := s.combs.filter fun (x : Comb) => x.ctx != c.id }
  let live := fun (op : Nat) => s.rops.any (fun (r : Rop) => r.id == op) || s.peerRops.any fun (r : PeerRop) => r.id == op
  let free := fun (x : Chan) => match x.busy with
    | some (op, _, _) => if live op then x else { x with busy := none, last := s.clk }
    | none => x
  let l1 := fun (k : Nat × Core) => (k.1, { k.2 with
    l1 := skeep k.2.l1 fun key => key / 2 ^ 54 != c.id
    lines := k.2.lines.filter fun n => n / 2 ^ 49 != c.id
    station := k.2.station.filter fun o => o.ctx != c.id })
  { s.draw 1 with chans := s.chans.map free, cores := s.cores.map l1 }

/-- A retirement begins (R46): steps 1 to 3, and the sweep of step 4 starts: 49,152 L2 clocks at 1.5 GHz (R164). The grids complete
before the sweep drops what carries the context's id. -/
def State.retire (s : State) (c : Ctx) (byMail : Bool) (voidBuf : Nat) : State :=
  let f := fun (x : Ctx) =>
    { x with retiring := true, byMail := byMail, voidBuf := voidBuf, sweep := s.time + nanos 32768,
             coll := (upto 4 4).map Engine.fresh, sealEng := Engine.fresh 8 }
  let s := (s.stopQueues c).sealHeads c
  let ls := s.launches.filter fun l => l.ctx == c.id
  let us := (s.teams.filter fun t => ls.any fun l => l.id == t.launch).map (·.uid)
  let s := ls.foldl (fun s l => s.killLaunch l) s
  ((s.dropWork c us).updCtx c.id f).pending [.retirementSweepEnd c.id]

/-- CTX_RETIRE (R43, R46). One that names a context which retires already waits for that retirement's end (DESIGN CHOICE, log 106). -/
def execCtxRetire (fn : Nat) (s : State) : Out :=
  let b := s.mailCmd fn
  let fail := fun (st : Nat) => Host.Outcome.next (s.mailDone fn (failResult st))
  if 64 ≤ field b 1 1 || field b 8 8 % 256 != 0 || !spareOk b [(2, 6), (16, 48)] then fail 1
  else
    match s.ctx? (field b 1 1) with
    | none => fail 3
    | some c =>
      if c.fn != fn then fail 3
      else if c.retiring then .next (s.pending [.ctxRetire fn])
      else .next (s.retire c true (field b 8 8))

/-- FUNCTION_LEVEL_RESET (R32, R46): the function's contexts retire; no void record is kept (R64). -/
def execFunctionLevelReset (fn : Nat) (s : State) : Out :=
  if s.dev.state = .tripped then .next s
  else .next ((s.ctxs.filter fun c => c.fn == fn && !c.retiring).foldl (fun s c => s.retire c false 0) s)

/-- Step 6 of R46 for one seal (R64): a void record with the next SEQ; the first one of a retirement goes to VOIDBUF. -/
def State.voidSeal (s : State) (c : Ctx) (j : SealJob) : State :=
  let rec_ := s.sealRecord 0x17 c.id j.tag (field j.head 8 1) (List.replicate 48 0) (slice j.head 0x20 32)
  let first := match s.ctx? c.id with
    | some x => x.retSeq.isNone
    | none => false
  let seq := s.dev.sealSeq
  let s := (s.updDev fun d => { d with sealSeq := seq + 1 }).dropSeal j.id
  let s := if first && c.voidBuf != 0 then s.hostWrite c.voidBuf rec_ else s
  if first then s.updCtx c.id fun x => { x with retSeq := some seq } else s

/-- RETIREMENT_SWEEP_END (R46, R164): steps 5 to 7, and the command's result (R43). -/
def execRetirementSweepEnd (ctx : Nat) (s : State) : Out :=
  match s.ctx? ctx with
  | none => .next s
  | some c =>
    if !c.retiring then .next s
    else if s.time < c.sweep then .next (s.pending [.retirementSweepEnd ctx])
    else
      let clear := fun (x : Slot) => { x with occ := false, tag := 0, payload := 0, rel := true, evict := false }
      let s := { s with ring := { s.ring with slots := mapIf (fun (x : Slot) => x.ctx == ctx) clear s.ring.slots } }.zeroHeld ctx
      let s := (s.seals.filter fun j => j.ctx == ctx).foldl (fun s j => s.voidSeal c j) s
      let seq := match s.ctx? ctx with
        | some x => x.retSeq
        | none => none
      let unbind := fun (q : Queue) => if q.ctx = some ctx then { q with ctx := none } else q
      let s := { s with
        ctxs := s.ctxs.filter fun (x : Ctx) => x.id != ctx
        xl := s.xl.filter fun (x : Xlat) => x.ctx != ctx
        fns := s.fns.map fun (f : Fn) => { f with queues := f.queues.map unbind } }
      let res := match seq with
        | some n => okResult 1 (leBytes 6 0 ++ leBytes 8 n)
        | none => okResult 0 []
      .next (if c.byMail then s.mailDone c.fn res else s)

/-! ### Queues and functions (R43) -/

/-- QUEUE_BIND (R43, R48). A context that retires is refused with status 3 (DESIGN CHOICE, log 106). -/
def execQueueBind (fn : Nat) (s : State) : Out :=
  let b := s.mailCmd fn
  let q := field b 1 1
  let fail := fun (st : Nat) => Host.Outcome.next (s.mailDone fn (failResult st))
  if 16 ≤ q || 64 ≤ field b 2 1 || !spareOk b [(3, 61)] then fail 1
  else
    match s.ctx? (field b 2 1) with
    | none => fail 3
    | some c =>
      let x := s.queue fn q
      if c.fn != fn || c.retiring then fail 3
      else if x.enable || x.head != x.tail then fail 1
      else .next ((s.updQueue fn q fun x => { x with ctx := some c.id }).mailDone fn (okResult 0 []))

/-- VF_CONFIG (R43): only the physical function; totals over all functions stay within 64 contexts and 2,176 slots. A part in
RECOVERY exposes the physical function alone (R35), and no rule gives the command's status there: it fails with status 2 (DESIGN
CHOICE, log 122). -/
def execVfConfig (fn : Nat) (s : State) : Out :=
  let b := s.mailCmd fn
  let vf := field b 1 1
  let m := field b 2 1
  let r := field b 4 2
  let fail := fun (st : Nat) => Host.Outcome.next (s.mailDone fn (failResult st))
  if vf = 0 || 32 < vf || 64 < m || Config.ringSlots < r || !spareOk b [(3, 1), (6, 58)] then fail 1
  else if fn != 0 then fail 3
  else if s.dev.state = .recovery then fail 2
  else
    let fns := s.fns ++ List.replicate (vf + 1 - s.fns.length) Fn.fresh
    let fns := modAt fns vf fun f => { f with maxCtx := m, rings := r }
    let own := s.holding 0
    let held := s.holding vf
    let tot := (fns.drop 1).foldl (fun (a : Nat × Nat) f => (a.1 + f.maxCtx, a.2 + f.rings)) own
    if m < held.1 || r < held.2 || 64 < tot.1 || Config.ringSlots < tot.2 then fail 2
    else .next ({ s with fns := fns }.mailDone fn (okResult 0 []))

/-! ### Attestation (R65) -/

/-- The log entries of the extensions since reset. -/
def Dev.log (d : Dev) : List Byte := d.extLog.flatMap fun e => leBytes 1 e.1 ++ List.replicate 15 0 ++ e.2

/-- The attestation response. -/
def State.attestation (s : State) (nonce : List Byte) : List Byte :=
  let head := leBytes 2 2 ++ leBytes 2 s.dev.extLog.length ++ leBytes 4 0 ++ leBytes 8 s.dev.sealSeq ++ nonce ++
    s.dev.slots.flatten ++ sha384 s.dev.log
  head ++ beBytes 96 (Config.signature head).toNat ++ s.dev.log

/-- Write a buffer of a mailbox command, which has to hold all of it (R43). -/
def State.mailBuf (s : State) (fn : Nat) (bs : List Byte) : Option State :=
  let b := s.mailCmd fn
  if field b 16 4 < bs.length then none
  else some ((s.hostWrite (field b 8 8) bs).mailDone fn (okResult 0 (leBytes 6 0 ++ leBytes 4 bs.length)))

/-- ATTEST (R65). -/
def execAttest (fn : Nat) (s : State) : Out :=
  let b := s.mailCmd fn
  if field b 8 8 % 64 != 0 || !spareOk b [(1, 7), (20, 12)] then .next (s.mailDone fn (failResult 1))
  else
    match s.mailBuf fn (s.attestation (slice b 32 32)) with
    | some t => .next (t.updDev fun d => { d with sealSeq := d.sealSeq + 1 })
    | none => .next (s.mailDone fn (failResult 2))

/-- CERT_READ (R43, R62). -/
def execCertRead (fn : Nat) (s : State) : Out :=
  let b := s.mailCmd fn
  if field b 8 8 % 64 != 0 || !spareOk b [(1, 7), (20, 44)] then .next (s.mailDone fn (failResult 1))
  else .next ((s.mailBuf fn Config.certificate).getD (s.mailDone fn (failResult 2)))

/-! ### Pre-emption, resumption and eviction (R114, R115, R267) -/

/-- The parameters of PREEMPT, RESUME and RING_EVICT keep to R114. -/
def launchNamed (b : List Byte) : Bool := field b 1 1 < 16 && spareOk b [(2, 2), (8, 56)]

/-- The launch that a command names by queue and index, if it is not completed. -/
def State.namedLaunch (s : State) (fn : Nat) : Option Launch :=
  let b := s.mailCmd fn
  s.launches.find? fun l => l.fn == fn && l.q == field b 1 1 && l.idx == field b 4 4 && l.phase != .done

/-- PREEMPT (R109, R113, R114). -/
def execPreempt (fn : Nat) (s : State) : Out :=
  if !launchNamed (s.mailCmd fn) then .next (s.mailDone fn (failResult 1))
  else
    match s.namedLaunch fn with
    | none => .next (s.mailDone fn (preemptResult 2 0 0))
    | some l =>
      let held := fun (s : State) =>
        match s.takeBlock l.id with
        | none => s.mailDone fn (failResult 2)
        | some (s, _) =>
          (s.updLaunch l.id fun x => { x with phase := .parked, resumeTo := x.phase }).mailDone fn l.heldAck
      match l.phase with
      | .parked => .next (s.mailDone fn l.heldAck)
      | .evicted => .next (s.mailDone fn l.heldAck)
      | .finishing => .next (s.mailDone fn (preemptResult 1 0 0))
      | .done => .next (s.mailDone fn (preemptResult 2 0 0))
      | .lease => .next (held s)
      | .slots => .next (held s)
      | .running =>
        if l.pre.isSome then .next (s.pending [.preempt fn])
        else
          match s.takeBlock l.id with
          | none => .next (s.mailDone fn (failResult 2))
          | some (s, _) =>
            let ks := distinct ((s.teams.filter fun t => t.launch == l.id && !t.ended).map (·.cluster))
            .next (s.preStart l.id (some fn) ks)

/-- The event that a resumed launch goes on with. -/
def resumeEvent (l : Nat) (p : LaunchPhase) : Ev :=
  match p with
  | .lease => .takeLease l
  | .slots => .slotAssignment l
  | _ => .clusterPlacement l

/-- RESUME (R114, R115, R267). The wait of its clusters (R92, R101) has gone on while the grid was parked (DESIGN CHOICE, log 97). -/
def execResume (fn : Nat) (s : State) : Out :=
  if !launchNamed (s.mailCmd fn) then .next (s.mailDone fn (failResult 1))
  else
    match s.namedLaunch fn with
    | none => .next (s.mailDone fn (okResult 2 []))
    | some l =>
      if l.phase != .parked && l.phase != .evicted then .next (s.mailDone fn (okResult 2 []))
      else
        let up := fun (x : Launch) =>
          { x with phase := x.resumeTo, parked := x.parked.map fun (c : SavedCluster) => { c with first := true } }
        .next (((s.updLaunch l.id up).pendingOnce (resumeEvent l.id l.resumeTo)).mailDone fn (okResult 0 []))

/-- RING_EVICT (R267): the occupied slots of a parked launch are alighted into its block, in slot order; then all of them are
released. -/
def execRingEvict (fn : Nat) (s : State) : Out :=
  if !launchNamed (s.mailCmd fn) then .next (s.mailDone fn (failResult 1))
  else
    match s.namedLaunch fn with
    | none => .next (s.mailDone fn (okResult 2 []))
    | some l =>
      if l.phase = .evicted || (l.phase = .parked && l.slots.isEmpty) then .next (s.mailDone fn (okResult 0 []))
      else if l.phase != .parked then .next (s.mailDone fn (okResult 2 []))
      else
        let mark := fun (x : Slot) => { x with evict := true }
        let ring := { s.ring with
          slots := mapIf (fun (x : Slot) => x.launch == l.id && x.occ) mark s.ring.slots, evicting := (fn, l.id) :: s.ring.evicting }
        .next ({ s with ring := ring }.evictCheck l.id)

end Sys2Proof.Machine
end

