-- ==== Sys2Proof/Machine/Translation.lean ====
section
/-!
DEFINITION. Translation requests (R78-R84): DRAIN, CONFIRM, MIGRATE and EXPORTS, and the peer phases of R87.
-/

namespace Sys2Proof.Machine

/-- The translation request with an id. -/
def State.tr? (s : State) (id : Nat) : Option TrReq := s.trs.find? fun t => t.id == id

/-- Update a translation request. -/
def State.updTr (s : State) (id : Nat) (f : TrReq → TrReq) : State :=
  { s with trs := mapIf (fun (t : TrReq) => t.id == id) f s.trs }

/-- A translation request has its status; it is written and the queue's next request starts. -/
def State.trFinish (s : State) (id : Nat) (st : BitVec 8) : Out :=
  .next ((s.updTr id fun t => { t with status := st, phase := .final }).post [.translationRequestDone id])

/-- TRANSLATION_REQUEST_DONE (R78): STATUS is written last, then the vector is sent; the next request of the queue starts. -/
def execTranslationRequestDone (tr : Nat) (s : State) : Out :=
  match s.tr? tr with
  | none => .next s
  | some t =>
    let s := { s with trs := s.trs.filter fun (x : TrReq) => x.id != tr }.trReport t.fn t.addr t.vec t.status
    match s.trs.find? fun x => x.fn == t.fn && x.q == t.q with
    | some x => .next (s.trStart x)
    | none => .next s

/-! ### DRAIN (R79) -/

/-- Whether a request's range meets a translation of its context. -/
def TrReq.meets (t : TrReq) (x : Xlat) : Bool := x.ctx == t.ctx && spansMeet x.va (2 ^ x.lg) t.base t.len

/-- The pages of a span that a walk finds now. -/
def State.walkFound (s : State) (ctx table : Nat) : Nat → Nat → Nat → List Xlat
  | 0, _, _ => []
  | fuel + 1, va, stop =>
    if stop ≤ va then [] else
    match s.walk ctx table va with
    | none => s.walkFound ctx table fuel (va / 65536 * 65536 + 65536) stop
    | some x => x :: s.walkFound ctx table fuel (x.va + 2 ^ x.lg) stop

/-- The pages in a request's range that live leases and exports of its context cover (R77, R86), as a walk finds them now. -/
def State.coveredPages (s : State) (t : TrReq) : List Xlat :=
  match s.ctx? t.ctx with
  | none => []
  | some c =>
    let mine := s.launches.filter fun l => l.ctx == t.ctx && l.leased
    ((mine.flatMap fun l => l.lr.leases) ++ c.exports.map (·.range)).flatMap fun g =>
      s.walkFound c.id c.table Config.storeSize (max g.base t.base) (min (g.base + g.len) (t.base + t.len))

/-- Whether the range of a request holds a page with MIG = 0 that a live lease or export covers, which refuses a DRAIN (R79): in the
store, or one that an earlier CONFIRM has discarded from it. -/
def State.drainRefused (s : State) (t : TrReq) : Bool :=
  (s.xl.any fun x => t.meets x && !x.mig && s.covered x) ||
    (s.coveredPages t).any fun x => !x.mig && !s.xl.any fun y => x.same y

/-- Send a control message with a range to each named peer; those that cannot be reached count as acknowledged (R87, R88). -/
def State.tellPeers (s : State) (code : Nat) (t : TrReq) : List Nat → State × List Nat
  | [] => (s, [])
  | p :: rest =>
    match (if s.peerUp p then s.send (s.msg code p t.base t.ctx t.id (leBytes 8 t.len)) else none) with
    | some s =>
      let r := s.tellPeers code t rest
      (r.1, p :: r.2)
    | none => s.tellPeers code t rest

/-- Invalidate the words that L1s hold for a range of a context (R79). -/
def State.drainL1 (s : State) (ctx base len : Nat) : State :=
  let hit := fun (k : Nat) => k / 2 ^ 54 == ctx && decide (base / 4 ≤ k % 2 ^ 54) && decide (k % 2 ^ 54 < (base + len) / 4)
  (s.cores.map (·.1)).foldl (fun s c => s.clearL1 c hit) s

/-- Mark a range draining and tell the peers (R79, R87). -/
def State.drainStart (s : State) (t : TrReq) : State :=
  let mark := fun (x : Xlat) => { x with drain := true }
  let s := { s with xl := mapIf t.meets mark s.xl }.drainL1 t.ctx t.base t.len
  let r := s.tellPeers 0x0A t t.named
  r.1.updTr t.id fun x => { x with phase := .acks, peers := r.2 }

/-- DRAIN (R79). -/
def execDrain (tr : Nat) (s : State) : Out :=
  match s.tr? tr with
  | none => .next s
  | some t =>
    match t.phase with
    | .queued =>
      if s.drainRefused t then s.trFinish tr 2 else .next ((s.drainStart t).pending [.drain tr])
    | .acks => if t.peers.isEmpty then s.trFinish tr 1 else .next (s.pending [.drain tr])
    | _ => .next s

/-! ### CONFIRM (R80, R84) -/

/-- Whether a place lies in a draining frame of a request's range. -/
def State.inDraining (s : State) (t : TrReq) (g : Tgt) : Bool :=
  match g with
  | .home d _ _ => s.xl.any fun x => t.meets x && x.drain && x.peer.isNone && decide (x.frame ≤ d) && decide (d < x.frame + 2 ^ x.lg)
  | _ => false

/-- Whether a request is an acquire that waits at its home, for which CONFIRM does not wait. -/
def Req.parkedAcq (r : Req) : Bool := r.kind == .acq && r.phase == .waiting

/-- Whether a span of addresses lies in a request's range, or in a draining page that reaches past it. -/
def State.drainSpan (s : State) (t : TrReq) (va n : Nat) : Bool :=
  spansMeet va n t.base t.len || s.xl.any fun x => t.meets x && x.drain && spansMeet va n x.va (2 ^ x.lg)

/-- Whether a memory access was translated by a page that a request discards (R80, R84). -/
def State.drains (s : State) (t : TrReq) (r : Req) : Bool :=
  r.ctx == t.ctx && s.drainSpan t r.va r.n && (match r.tgt with
    | .spad _ _ => false
    | _ => true)

/-- Whether an access whose translation was taken before the mark is still on its way (R80, R84). -/
def State.rangeBusy (s : State) (t : TrReq) : Bool :=
  (s.reqs.any fun r => s.drains t r && !r.parkedAcq) ||
    (s.rops.any fun (r : Rop) => r.ctx == t.ctx && r.grans.any fun g =>
      s.drainSpan t g.va g.size || (match g.src with
        | some x => s.inDraining t x
        | none => false)) ||
    s.peerRops.any fun (r : PeerRop) => r.ctx == t.ctx && s.inDraining t r.gran.tgt

/-- The old frames of a request: address and bytes. -/
def State.oldFrames (s : State) (t : TrReq) : List (Nat × Nat) :=
  (s.xl.filter fun x => t.meets x && x.drain && x.peer.isNone).map fun x => (x.frame, 2 ^ x.lg)

/-- Whether a line lies in one of some frames. -/
def inFrames (l : List (Nat × Nat)) (line : Nat) : Bool := l.any fun e => decide (e.1 < (line + 1) * 128) && decide (line * 128 < e.1 + e.2)

/-- Evict the lines of frames (R80, R156): one with a dirty sector goes out by a write-back at its channel. -/
def Mem.evict (m : Mem) (l : List (Nat × Nat)) : Mem :=
  let kept := m.l2.filter fun x => !(inFrames l x.line && x.dirty == 0)
  { m with l2 := mapIf (fun (x : L2Line) => inFrames l x.line) (fun x => { x with out := true }) kept }

/-- What is held on the lines of frames is merged, then the lines are written back and evicted (R80, R81); whether all of it is
done. -/
def State.sweepFrames (s : State) (l : List (Nat × Nat)) : State × Bool :=
  let r := s.mergeAll (s.combs.filter fun (c : Comb) => inFrames l c.line)
  if !r.2 then r
  else
    let m := r.1.mem.evict l
    ({ r.1 with mem := m }, !m.l2.any fun x => inFrames l x.line)

/-- Acquires that wait at the old frames wait at the new ones (R170); `old` is the state in which the old frames were still named. -/
def State.moveAcquires (s old : State) (t : TrReq) : State :=
  let move := fun (r : Req) =>
    match s.lookup t.ctx r.va with
    | some x => { r with tgt := x.target r.va }
    | none => r
  { s with reqs := mapIf (fun (r : Req) => old.drains t r && r.parkedAcq) move s.reqs }

/-- Discard the draining translations of a request's range (R80). -/
def State.dropDraining (s : State) (t : TrReq) : State :=
  { s with xl := s.xl.filter fun x => !(t.meets x && x.drain) }

/-- CONFIRM (R80). -/
def execConfirm (tr : Nat) (s : State) : Out :=
  match s.tr? tr with
  | none => .next s
  | some t =>
    match t.phase with
    | .queued =>
      if !s.xl.any fun x => t.meets x && x.drain then s.trFinish tr 1
      else
        let r := s.tellPeers 0x0B t t.named
        .next ((r.1.updTr tr fun x => { x with phase := .acks, peers := r.2 }).pending [.confirm tr])
    | .acks =>
      if !t.peers.isEmpty || s.rangeBusy t then .next (s.pending [.confirm tr])
      else
        let r := s.sweepFrames (s.oldFrames t)
        if !r.2 then .next (r.1.pending [.confirm tr])
        else ((r.1.dropDraining t).moveAcquires s t).trFinish tr 1
    | _ => .next s

/-! ### MIGRATE (R81) -/

/-- Copy a page under its context's key: its bytes and its poisoned words. -/
def Mem.movePage (m : Mem) (k old new n : Nat) : Mem :=
  let img := m.span k old n
  let bad := (m.poison.filter fun w => decide (old ≤ w * 4) && decide (w * 4 < old + n)).map fun w => w - old / 4 + new / 4
  let m := (m.clear k new n).cure new n
  { m with dev := ssets m.dev (img.map fun (e : Nat × Byte) => (new + e.1, e.2)), poison := m.poison ++ bad }

/-- The page that a MIGRATE names, with the reason why it cannot be: 3 a bad request, 4 a failed walk. -/
def State.migratePage (s : State) (t : TrReq) : Xlat ⊕ BitVec 8 :=
  match s.lookup t.ctx t.base with
  | none => .inr 4
  | some x =>
    if x.va != t.base || 2 ^ x.lg != t.len || t.frame % t.len != 0 || 2 ^ 39 < t.frame + t.len || x.peer.isSome then .inr 3
    else .inl x

/-- The end of a MIGRATE (R81), once the lines of both frames have been evicted: the page is copied at its channels (R160) and walked
again; if the walk does not yield NEWFRAME it stays draining. -/
def State.migrateEnd (s : State) (t : TrReq) (x : Xlat) : Out :=
  let was := s
  let s := (s.reachSpan x.frame t.len).reachSpan t.frame t.len
  let s := { s with mem := s.mem.movePage (s.keyOf t.ctx) x.frame t.frame t.len }
  match s.walkCtx t.ctx t.base with
  | none => s.trFinish t.id 4
  | some y =>
    if y.va != t.base || y.lg != x.lg || y.frame != t.frame || y.peer.isSome then s.trFinish t.id 4
    else
      let s := s.dropDraining t
      let s := if s.covered y then s.keepXlat y else s
      (s.moveAcquires was t).trFinish t.id 1

/-- MIGRATE (R81). -/
def execMigrate (tr : Nat) (s : State) : Out :=
  let again := Ev.migrate tr
  match s.tr? tr with
  | none => .next s
  | some t =>
    match s.migratePage t with
    | .inr st => s.trFinish tr st
    | .inl x =>
      match t.phase with
      | .queued =>
        if s.drainRefused t || (!x.mig && s.covered x) then s.trFinish tr 2
        else .next ((s.drainStart t).pending [again])
      | .acks =>
        if !t.peers.isEmpty then .next (s.pending [again])
        else
          let r := s.tellPeers 0x0B t t.named
          .next ((r.1.updTr tr fun y => { y with phase := .confirm, peers := r.2 }).pending [again])
      | .confirm =>
        if !t.peers.isEmpty || s.rangeBusy t then .next (s.pending [again])
        else
          let r := s.sweepFrames [(x.frame, t.len), (t.frame, t.len)]
          if !r.2 then .next (r.1.pending [again]) else r.1.migrateEnd t x
      | .final => .next s

/-! ### EXPORTS (R82) -/

/-- What EXPORTS reads and walks when it starts (R82, R84), or the status that it fails with: a failed walk gives STATUS 4, exports
that alone need too many translations STATUS 2, a malformed descriptor STATUS 3. -/
def State.exportsRead (s : State) (t : TrReq) (c : Ctx) : (List Export × List Xlat) ⊕ BitVec 8 :=
  match t.exps with
  | some r => .inl r
  | none =>
    match rootDesc (s.hostRead c.rootDesc 4096) with
    | none => .inr 3
    | some (_, l) =>
      match s.exportPages c.id c.table l with
      | none => .inr 4
      | some pages => if Config.storeSize < pages.length then .inr 2 else .inl (l, pages)

/-- EXPORTS (R82): the pages of the exports are made resident, once the store has room for them. -/
def execExportsRequest (tr : Nat) (s : State) : Out :=
  match s.tr? tr with
  | none => .next s
  | some t =>
    match s.ctx? t.ctx with
    | none => s.trFinish tr 3
    | some c =>
      match s.exportsRead t c with
      | .inr st => s.trFinish tr st
      | .inl (l, pages) =>
        if !s.roomFor pages then .next ((s.updTr tr fun t => { t with exps := some (l, pages) }).pending [.exportsRequest tr])
        else ((s.addPages pages).updCtx c.id fun x => { x with exports := l }).trimStore.trFinish tr 1

end Sys2Proof.Machine
end

