-- ==== Sys2Proof/Machine/Links.lean ====
section
/-!
DEFINITION. Ruond links and peers (R19-R30, R85-R88, R209, R210, R288, R509): training, failure, re-keying and replay, the loss
of a peer, and every message that can arrive.
-/

namespace Sys2Proof.Machine

/-! ### Peer loss (R28, R88) -/

/-- Requests to a lost peer that have no answer complete with PEER_LOST (R28). -/
def State.loseReqs (s : State) (p : Nat) : State :=
  (s.reqs.filter fun r => r.phase == .waiting && (match r.tgt with
    | .peer q _ => q == p
    | _ => false)).foldl (fun s r => s.failReq r 0x11) s

/-- The granules of an op that wait for an answer of a peer. -/
def Rop.waitingOn (r : Rop) (p : Nat) : List Nat :=
  (upto 0 r.grans.length).filter fun k => match r.grans[k]? with
    | some g => g.phase == .waiting && (match g.tgt with
      | .peer q _ => q == p
      | _ => false)
    | none => false

/-- Remote ops on a lost peer complete with PEER_LOST. -/
def State.loseRops (s : State) (p : Nat) : State :=
  s.rops.foldl (fun s (r : Rop) => (r.waitingOn p).foldl (fun s k => s.granServed r.id k 0x11 []) s) s

/-- Collective nodes that wait on a lost peer fail (R288). -/
def State.loseColl (s : State) (p : Nat) : State :=
  let engs := s.ctxs.flatMap fun c => c.coll.map fun e => 16 * c.id + e.id
  engs.foldl (fun s e => (s.updEngine e fun x => x.loseNodes p).wakeNodes e) s

/-- Whether two messages are of one remote op that travels in two (R210). -/
def msgPairs (m x : Msg) : Bool := m.src == x.src && m.txn == x.txn && m.code == x.code

/-- A peer is lost (R28, R88): a request of it that was delivered whole still completes (R29); its translations go, everything that
waits on it is answered. -/
def State.peerLost (s : State) (p : Nat) : State :=
  if s.dev.lost.contains p then s else
  let far := fun (l : Link) => if l.farPeer.toNat = p && l.heard then { l with lostEv := true } else l
  let gone := fun (x : Xlat) => if x.peer = some p then { x with lost := true, drain := false } else x
  let s := s.updDev fun d => { d with lost := p :: d.lost, links := d.links.map far }
  let s := { s with
    xl := s.xl.map gone
    trs := s.trs.map fun (t : TrReq) => { t with peers := t.peers.filter (· != p) }
    pcs := s.pcs.filter fun (c : PeerConfirm) => c.peer != p
    halves := s.halves.filter fun (h : HalfMsg) => h.msg.src.toNat != p || s.inbox.any (msgPairs h.msg) }
  ((s.loseReqs p).loseRops p).loseColl p

/-- Peers whose routes had a link that is not up any more, and now have none (R28). -/
def State.routeLosses (s : State) (n : Nat) : State :=
  ((upto 0 64).filter fun p => (sget s.dev.route p).getLsbD n && (s.linksTo p).isEmpty).foldl (fun s p => s.peerLost p) s

/-! ### Links (R20, R21, R24-R27) -/

/-- The answer that a message for a peer without a route gets (R25): it has the unreachable DST as its SRC and the ADDR of the
message (DESIGN CHOICE, log 110). A DRAIN or CONFIRM is acknowledged (R87, R88). None for messages that take no answer. -/
def State.noRoute (s : State) (m : Msg) : State :=
  let back := fun (code : Nat) =>
    s.reply { s.msg code m.src.toNat m.addr.toNat m.ctx.toNat m.txn.toNat [] with src := m.dst, status := 0x11 }
  match m.code.toNat with
  | 1 => back 3
  | 2 => back 4
  | 5 => if m.part = 2 then s else back 7
  | 6 => if m.part = 2 then s else back 7
  | 8 => back 4
  | 0x0A => back 0x0C
  | 0x0B => back 0x0C
  | _ => s

/-- A message that a link can no longer carry goes by the route that is left (R26); where none is, one on its way through this
package is answered (R25), and one of its own is lost with the peer (R28). -/
def State.sendAgain (s : State) (m : Msg) : State :=
  match s.send m with
  | some t => t
  | none => if m.src == s.dev.peerId then s else s.noRoute m

/-- A link leaves the up state (R26, R27): its unacknowledged frames are sent again by the route that is left. -/
def State.linkDown (s : State) (n : Nat) (st : BitVec 2) : State :=
  let l := s.link n
  if l.state != 2 then s.updLink n fun l => { l with state := st }
  else
    let s := s.updLink n fun l => { l with state := st, downEv := true, unacked := [], waiting := [], discards := [] }
    let s := (l.unacked.map (·.2) ++ l.waiting).foldl (fun s m => s.sendAgain m) s
    s.routeLosses n

/-- LINK_FAILURE (R26, R28): a link that is still enabled trains again. -/
def execLinkFailure (n : Nat) (s : State) : Out :=
  .next (if (s.link n).state = 2 then s.linkDown n (if (s.link n).enable then 1 else 0) else s)

/-- LINK_ENABLE (R27, R32, R35): no link trains before bring-up has ended. -/
def execLinkEnable (n : Nat) (en : Bool) (s : State) : Out :=
  let s := s.updLink n fun l => { l with enable := en }
  if !en then .next (s.linkDown n 0)
  else if (s.link n).state = 0 && s.dev.state = .ready then .next (s.updLink n fun l => { l with state := 1 })
  else .next s

/-- A new session of a link (R30): new keys and counters from 0. What the link kept for other packages than the far end goes out
again; the far end has no state from before. -/
def State.newSession (s : State) (farId : BitVec 6) (n : Nat) : State :=
  let l := s.link n
  let up := fun (l : Link) =>
    { l with state := 2, farPeer := farId, heard := true, epoch := 0, sendCnt := 0, recvCnt := 0, unacked := [], waiting := [],
             discards := [], sentAt := s.time }
  ((l.unacked.map (·.2) ++ l.waiting).filter fun m => m.dst != farId).foldl (fun s m => s.sendOn n m) (s.updLink n up)

/-- The links, beside `n`, that are up to a peer which returns (R30). -/
def State.otherLinks (s : State) (n : Nat) (farId : BitVec 6) : List Nat :=
  if s.dev.lost.contains farId.toNat then (upto 0 16).filter fun k => k != n && (s.link k).state == 2 && (s.link k).farPeer == farId
  else []

/-- LINK_TRAINING (R24, R30): this end tells its peer id, and whether it accepts the far end's; a new session when both ends
accept, else state 3. The far end, and every peer whose route has the link, has returned; a peer that had been lost has a new session
on every link (R30). -/
def execLinkTraining (n : Nat) (farId : BitVec 6) (farAccepts : Bool) (s : State) : Out :=
  let accept := (sget s.dev.route farId.toNat).getLsbD n
  if (s.link n).state != 1 then .next s else
  let s := s.emit (.training n s.dev.peerId accept)
  if farAccepts && accept then
    .next (((n :: s.otherLinks n farId).foldl (fun s k => s.newSession farId k) s).updDev fun d =>
      { d with lost := d.lost.filter fun p => !(p == farId.toNat || (sget s.dev.route p).getLsbD n)
               heard := (farId.toNat, s.time) :: d.heard.filter (·.1 != farId.toNat) })
  else .next (s.updLink n fun l => { l with state := 3, farPeer := farId, heard := true })

/-- A discard of R21 and R23: counted in PROTO, and replay is asked for from the counter that is expected next; eight within 1 ms
take the link down. -/
def State.discard (s : State) (n : Nat) : State :=
  let s := (s.updLink n fun l =>
    { l with proto := sat16 l.proto 1,
             discards := s.time :: l.discards.filter fun t => s.time < t + nanos 1000000 }).emit (.replay n (s.link n).recvCnt)
  if 8 ≤ (s.link n).discards.length then s.linkDown n (if (s.link n).enable then 1 else 0) else s

/-- FRAME_DISCARD (R19, R21): a frame whose tag fails, whose header is malformed, or whose FCNT is not the one expected. -/
def execFrameDiscard (n : Nat) (s : State) : Out := .next (if (s.link n).state = 2 then s.discard n else s)

/-- Messages that waited on a link leave as far as there is room now. -/
def State.linkGoesOn (s : State) (n : Nat) : State := State.drainLink (s.link n).waiting.length s n

/-- REPLAY_REQUEST (R21): frames from the named counter on are sent again; those before it are acknowledged. -/
def execReplayRequest (n fcnt : Nat) (s : State) : Out :=
  if (s.link n).state != 2 then .next s
  else
    let left := (s.link n).unacked.filter fun e => fcnt ≤ e.1
    let s := s.updLink n fun l => { l with unacked := left, sentAt := if left.isEmpty then l.sentAt else s.time }
    .next ((left.foldl (fun s e => s.emit (.link n e.2)) s).linkGoesOn n)

/-- REKEY (R20): EPOCH increments and FCNT restarts at 0. Frames that are not acknowledged are sent again first, under the new key
(DESIGN CHOICE, log 114). -/
def execRekey (n : Nat) (s : State) : Out :=
  if (s.link n).state != 2 then .next s
  else
    let left := (s.link n).unacked.map (·.2)
    let s := s.updLink n fun l =>
      { l with epoch := l.epoch + 1, epochs := l.epochs + 1, sendCnt := 0, recvCnt := 0, unacked := [] }
    .next (left.foldl (fun s m => s.frame n m) s)

/-- The heartbeat of a link. -/
def State.beat (s : State) (n : Nat) : Msg := s.msg 0x0F (s.link n).farPeer.toNat 0 0 0 []

/-- Whether a link that is up has been idle for 10 µs and a heartbeat can leave now (R20, R28): one that would have to wait is not
sent. -/
def State.beatDue (s : State) (n : Nat) : Bool :=
  let l := s.link n
  l.state == 2 && l.sentAt + nanos 10000 ≤ s.time && l.room (s.beat n) && l.waiting.all fun m => !msgControl m

/-- HEARTBEAT_TIMER (R28). -/
def execHeartbeatTimer (n : Nat) (s : State) : Out :=
  .next (if s.beatDue n then s.sendOn n (s.beat n) else s)

/-- Whether nothing has been heard for 100 µs of a peer at the far end of a link that is up: heartbeats go over one link (R28). -/
def State.silent (s : State) (p : Nat) : Bool :=
  s.peerUp p && (s.dev.links.any fun l => l.state == 2 && l.farPeer.toNat == p) && (match s.dev.heard.find? fun h => h.1 == p with
    | some h => h.2 + nanos 100000 ≤ s.time
    | none => false)

/-- PEER_LOSS_TIMEOUT (R28). -/
def execPeerLossTimeout (peer : Nat) (s : State) : Out := .next (if s.silent peer then s.peerLost peer else s)

/-! ### What every message goes through (R21-R25, R28) -/

/-- The link by which a message arrives: the one that R25 selects for its source, or, for a source that this package has no way to,
the lowest that is up (DESIGN CHOICE, log 114). -/
def State.inLink (s : State) (m : Msg) : Option Nat :=
  let ls := s.linksTo m.src.toNat
  match ls[if msgControl m then 0 else m.addr.toNat / 128 % 128 % ls.length]? with
  | some n => some n
  | none => (upto 0 16).find? fun n => (s.link n).state == 2

/-- Whether R23 discards a message that is to be of one of some codes: its code, its class, BYTES against the data, LEN and the
limit of 512, PART. -/
def msgBad (m : Msg) (code : Nat) : Bool :=
  m.code.toNat != code || m.cls != msgCls m.code.toNat || 512 < m.bytes.toNat || m.bytes.toNat != m.data.length ||
    m.len.toNat != 1 + ceilDiv m.bytes.toNat 32 || m.part == 3 || (m.part != 0 && code != 5 && code != 6)

/-- A frame has come on a link: its counter, what it acknowledges, and the time at which its far end was heard (R28). -/
def State.received (s : State) (n : Nat) : State :=
  let k := Config.freeDelay s.free
  let s := s.draw 1
  let s := (s.updLink n fun l => { l with recvCnt := l.recvCnt + 1, unacked := l.unacked.drop (k % (l.unacked.length + 1)) }).updDev
    fun d => { d with heard := ((s.link n).farPeer.toNat, s.time) :: d.heard.filter (·.1 != (s.link n).farPeer.toNat) }
  s.linkGoesOn n

/-- Whether two messages keep their order where both wait (R26, R509): those of one source and class to one line, and the chunks of one
transfer, whose ADDR names it below its offset. -/
def msgOrdered (m x : Msg) : Bool :=
  x.src == m.src && x.cls == m.cls &&
    if m.code == 8 && x.code == 8 then x.addr.setWidth 24 == m.addr.setWidth 24 && x.ctx == m.ctx
    else x.addr.toNat / 128 == m.addr.toNat / 128

/-- Whether an older message that `m` may not overtake still waits. -/
def State.overtakes (s : State) (m : Msg) : Bool :=
  let older := if s.inbox.contains m then (s.inbox.dropWhile (· != m)).drop 1 else s.inbox
  older.any (msgOrdered m)

/-- The event by which a message that waits is taken up again. -/
def msgEvent (m : Msg) : Ev :=
  match m.code.toNat with
  | 1 => .readRequest m
  | 2 => .writeRequest m
  | 3 => .readResponse m
  | 4 => .writeAcknowledgement m
  | 5 => .remoteOpNoReturn m
  | 6 => .remoteOpWithReturn m
  | 7 => .remoteOpResponse m
  | 8 => .collectiveChunk m
  | _ => .collectiveCredit m

/-- A message that has arrived is acted on: one of the inbox leaves it, unless it has to wait on, in its place. -/
def State.takeUp (s : State) (m : Msg) (f : State → Out) : Out :=
  if s.overtakes m then
    .next ({ s with inbox := if s.inbox.contains m then s.inbox else m :: s.inbox }.pending [msgEvent m])
  else if s.inbox.contains m then
    match f { s with inbox := s.inbox.erase m } with
    | .next t => .next (if t.inbox.contains m then { t with inbox := s.inbox } else t)
    | r => r
  else f s

/-- A message arrives: R23 may discard it, one for another package is forwarded (R25), one of a lost peer is dropped (R28).
A message that waits, and one of the package to itself, has arrived already. -/
def State.inbound (s : State) (m : Msg) (code : Nat) (f : State → Out) : Out :=
  if s.inbox.contains m || (m.src == s.dev.peerId && m.dst == s.dev.peerId) then s.takeUp m f
  else
    match s.inLink m with
    | none => .next s
    | some n =>
      if msgBad m code then .next (s.discard n)
      else
        let s := s.received n
        if m.dst != s.dev.peerId then .next ((s.send m).getD (s.noRoute m))
        else if s.dev.lost.contains m.src.toNat then .next s
        else s.takeUp m f

/-- A request of a peer waits (R83): `again` takes it up. -/
def State.hold (s : State) (m : Msg) (again : Ev) : Out := .next ({ s with inbox := m :: s.inbox }.pending [again])

/-- Answer a message: in the package itself at once, else by a link. -/
def State.answer (s : State) (m : Msg) (code : Nat) (status : BitVec 8) (data : List Byte) : State :=
  let r : Msg := { s.msg code m.src.toNat m.addr.toNat m.ctx.toNat m.txn.toNat data with status := status }
  if m.src = s.dev.peerId then s.pending [.writeAcknowledgement r] else s.reply r

/-! ### Requests of peers (R86) -/

/-- What an incoming request of `n` bytes meets. -/
inductive Export.Found where
  | none_
  | dropped            -- the context is retiring (R164)
  | wait               -- the page is draining (R83)
  | at_ (ctx va : Nat) (t : Tgt)
  deriving DecidableEq, Repr

/-- The exports of a context that a request matches. -/
def Ctx.matching (c : Ctx) (m : Msg) (n : Nat) : List Export :=
  c.exports.filter fun e => e.peer == m.src.toNat && e.ctx == m.ctx.toNat && decide (e.range.base ≤ m.addr.toNat) &&
    decide (m.addr.toNat + n ≤ e.range.base + e.range.len)

/-- The context whose exports a request matches: the lowest id wins (R86). -/
def State.exportCtx (s : State) (m : Msg) (n : Nat) : Option Ctx :=
  (upto 0 64).findSome? fun i => (s.ctx? i).bind fun c => if (c.matching m n).isEmpty then none else some c

/-- An exported page that CONFIRM has discarded is walked again and resident from then on (R72, R86). -/
def State.warmExport (s : State) (m : Msg) (n : Nat) : State :=
  match s.exportCtx m n with
  | none => s
  | some c =>
    if c.retiring || (s.stored c.id m.addr.toNat).isSome then s
    else
      match s.lookup c.id m.addr.toNat with
      | some x => s.keepXlat x
      | none => s

/-- Match a request against the exports and translate it (R86). -/
def State.matchExport (s : State) (m : Msg) (n : Nat) (wr : Bool) : Export.Found :=
  match s.exportCtx m n with
  | none => .none_
  | some c =>
    let va := m.addr.toNat
    if c.retiring then .dropped
    else if wr && !(c.matching m n).any (·.range.w) then .none_
    else
      match s.lookup c.id va with
      | none => .none_
      | some x =>
        if x.drain then .wait
        else if x.lost || (wr && !x.w) || x.va + 2 ^ x.lg < va + n then .none_
        else
          match x.target va with
          | .home d u k => .at_ c.id va (.home d u k)
          | _ => .none_

/-- READ_REQUEST (R86): the bytes go back, LEASE_MISS without a match, MEM_UNCORRECTABLE for a poisoned word (R204). -/
def execReadRequest (m : Msg) (s : State) : Out :=
  s.inbound m 1 fun s =>
    let n := max 1 (min 512 (field m.data 0 8))
    let s := s.warmExport m n
    match s.matchExport m n false with
    | .none_ => .next (s.answer m 3 0x10 [])
    | .dropped => .next s
    | .wait => s.hold m (.readRequest m)
    | .at_ c _ t =>
      match t with
      | .home d uam _ =>
        let r := s.serveNow (.peer m.src.toNat m.txn.toNat) c 0 t n false
        if !r.2 then r.1.hold m (.readRequest m)
        else
          let s := r.1.mergeHeld d n
          .next (if s.spanBad c d uam n then s.answer m 3 0x12 [] else s.answer m 3 0 (s.pointRead c d uam n))
      | _ => .next (s.answer m 3 0x10 [])

/-- WRITE_REQUEST (R86). -/
def execWriteRequest (m : Msg) (s : State) : Out :=
  s.inbound m 2 fun s =>
    let n := max 1 m.data.length
    let s := s.warmExport m n
    match s.matchExport m n true with
    | .none_ => .next (s.answer m 4 0x10 [])
    | .dropped => .next s
    | .wait => s.hold m (.writeRequest m)
    | .at_ c _ t =>
      match t with
      | .home d uam _ =>
        let r := s.serveNow (.peer m.src.toNat m.txn.toNat) c 0 t n true
        if !r.2 then r.1.hold m (.writeRequest m)
        else .next (((r.1.mergeHeld d n).pointWrite c 0 d uam (pairsFrom 0 m.data)).answer m 4 0 [])
      | _ => .next (s.answer m 4 0x10 [])

/-- The opcode that a remote op's message names, and its operand or source bytes (R210). -/
def msgOpcode (m : Msg) (data : List Byte) : Opcode × List Byte :=
  if m.ropid.toNat < 16 then ({ id := m.ropid.toNat, defn := [] }, data)
  else ({ id := m.ropid.toNat, defn := slice data 0 64 }, data.drop 64)

/-- A whole remote op of a peer (R210): its definition is checked, and a failure is ROP_UNDEF; its granule joins the unit's work. -/
def State.peerOp (s : State) (m : Msg) (data : List Byte) (again : Ev) : Out :=
  let (o, x) := msgOpcode m data
  if !o.builtin && (defCheck o.defn (some o.id)).isSome then .next (s.answer m 7 0x35 [])
  else
    let s := s.warmExport m 1
    match s.matchExport m 1 true with
    | .none_ => .next (s.answer m 7 0x10 [])
    | .dropped => .next s
    | .wait => s.hold m again
    | .at_ c va t =>
      let g : Gran :=
        { va := va, size := o.gran, tgt := t, x := x, src := none, phase := .sent, sent := true, txn := 0, status := 0,
          ret := [], arr := 0 }
      let r : PeerRop :=
        { id := s.nextId, peer := m.src.toNat, ctx := c, op := o.id, defn := o.defn, ret := m.code == 6, txn := m.txn,
          addr := m.addr.toNat, gran := g }
      .next ({ s.bump with peerRops := s.peerRops ++ [r] }.pending [.remoteOpApply r.id 0 0])

/-- A remote op arrives, in one message or in two (R210). -/
def State.peerOpPart (s : State) (m : Msg) (again : Ev) : Out :=
  let mine := fun (h : HalfMsg) => msgPairs h.msg m
  if m.part = 1 then .next { s with halves := { msg := m } :: s.halves.filter fun h => !mine h }
  else if m.part = 0 then s.peerOp m m.data again
  else
    match s.halves.find? mine with
    | none => .next s
    | some h =>
      match s.peerOp m (h.msg.data ++ m.data) again with
      | .next s' => .next (if s'.inbox.contains m then s' else { s' with halves := s'.halves.filter fun h => !mine h })
      | r => r

/-- REMOTE_OP_NO_RETURN (R210). -/
def execRemoteOpNoReturn (m : Msg) (s : State) : Out := s.inbound m 5 fun s => s.peerOpPart m (.remoteOpNoReturn m)
/-- REMOTE_OP_WITH_RETURN (R210). -/
def execRemoteOpWithReturn (m : Msg) (s : State) : Out := s.inbound m 6 fun s => s.peerOpPart m (.remoteOpWithReturn m)

/-! ### Answers of peers -/

/-- The request that an answer of a peer is for. -/
def State.answered (s : State) (m : Msg) : Option Req :=
  s.reqs.find? fun r => r.id == m.txn.toNat && r.phase == .waiting && (match r.tgt with
    | .peer p _ => p == m.src.toNat
    | _ => false)

/-- READ_RESPONSE (R28, R86). -/
def execReadResponse (m : Msg) (s : State) : Out :=
  s.inbound m 3 fun s =>
    match s.answered m with
    | none => .next s
    | some r =>
      if r.writes then .next s
      else if m.status != 0 then .next (s.failReq r m.status)
      else
        let bs := slice m.data 0 r.n
        if r.isFill then
          .next ((s.updReq r.id fun r => { r with phase := .served, data := bs }).pending [.mergingFillReturn r.id])
        else .next (s.deliver r bs)

/-- The node that a chunk's answer is for: engine context and node. -/
def State.chunkOf (s : State) (m : Msg) : Option (Nat × Nat) :=
  s.ctxs.findSome? fun c => c.coll.findSome? fun e =>
    match e.running with
    | none => none
    | some r => (upto 0 r.nodes.length).findSome? fun i =>
        match r.nodes[i]?, r.graph[i]? with
        | some x, some n =>
          if n.code == 1 && x.open_.contains m.txn.toNat && n.peer == m.src.toNat then some (16 * c.id + e.id, i) else none
        | _, _ => none

/-- The answer of a peer to an acquire or a release (DESIGN CHOICE, log 102: the manual gives sync requests no message): STATUS 0 grants
or acknowledges, a task-ending status ends the task (R88), any other is a use that traps (R173). -/
def State.syncAnswer (s : State) (r : Req) (m : Msg) : Out :=
  if m.status = 0 then .next (s.post [if r.kind == .acq then .acquireGrant r.id else .releaseAcknowledged r.id])
  else if 0x10 ≤ m.status && m.status ≤ 0x12 then .next (s.syncFail r m.status)
  else if !s.syncReady r then s.hold m (.writeAcknowledgement m)
  else .next (s.syncTrap r)

/-- WRITE_ACKNOWLEDGEMENT (R86, R173, R509): it answers a write, a sync request, or a collective chunk. -/
def execWriteAcknowledgement (m : Msg) (s : State) : Out :=
  s.inbound m 4 fun s =>
    match s.answered m with
    | some r =>
      if r.syncs then s.syncAnswer r m
      else if !r.writes then .next s
      else if m.status != 0 then .next (s.failReq r m.status) else .next (s.performed r)
    | none =>
      match s.chunkOf m with
      | none => .next s
      | some (eng, i) =>
        let up := fun (x : NodeRun) =>
          { x with open_ := x.open_.filter (· != m.txn.toNat)
                   fail := if m.status != 0 && x.fail.isNone then some m.status else x.fail }
        .next ((s.updNode eng i up).pending [.nodeCompletion eng i])

/-- REMOTE_OP_RESPONSE (R208, R210, R473): the status and value of a granule, or the end of an `xadd`'s addition. -/
def execRemoteOpResponse (m : Msg) (s : State) : Out :=
  s.inbound m 7 fun s =>
    let hit := s.rops.findSome? fun (r : Rop) => (r.waitingOn m.src.toNat).findSome? fun k =>
      match r.grans[k]? with
      | some g => if g.txn = m.txn.toNat then some (r.id, k) else none
      | none => none
    match hit with
    | some (id, k) => .next (s.granServed id k m.status m.data)
    | none =>
      match s.answered m with
      | none => .next s
      | some r =>
        if m.status = 0 then .next (s.performed r)
        else .next (s.failReq r (if m.status = 0x10 ∨ m.status = 0x11 then m.status else 0x12))

/-! ### Collectives (R288, R290, R509) -/

/-- COLLECTIVE_CREDIT (R288): the credit is held until a SEND consumes it. -/
def execCollectiveCredit (m : Msg) (s : State) : Out :=
  s.inbound m 9 fun s =>
    match s.ctx? (m.addr.toNat % 64) with
    | none => .next s
    | some c =>
      if c.retiring then .next s
      else
        let k : Credit := { peer := m.src.toNat, node := bits m.addr.toNat 8 8, ctx := m.ctx.toNat, eng := bits m.addr.toNat 16 2 }
        .next ((s.updEngine (msgEngine m) fun e => { e with credits := e.credits ++ [k] }).wakeNodes (msgEngine m))

/-- Whether a chunk is the next one of the RECV that it names (R288). A peer's chunk does not tell its transfer's total length: one that
stands elsewhere than at the offset reached, or passes LEN, disagrees with LEN (DESIGN CHOICE, log 128). -/
def msgFits (m : Msg) (n : Node) (x : NodeRun) (off : Nat) : Bool :=
  n.peer == m.src.toNat && n.pctx == m.ctx.toNat && n.peng == bits m.addr.toNat 16 2 && off == x.bytes && !m.data.isEmpty &&
    off + m.data.length ≤ n.len

/-- Whether the SEND of a chunk, where it is one of this package, sends as many bytes as the RECV takes (R288). -/
def State.sendFits (s : State) (m : Msg) (n : Node) : Bool :=
  if m.src != s.dev.peerId then true
  else
    match s.chunkOf m with
    | none => true
    | some (eng, i) =>
      match (s.engine? eng).bind (·.running) with
      | some r => (r.graph[i]?).all fun x => x.len == n.len
      | none => true

/-- A chunk comes to the RECV that it names: it is refused, or its bytes are written and it is answered once they are performed. What has
crossed a link is charged to the RECV's launch (R94, R274). -/
def State.takeChunk (s : State) (m : Msg) (eng i : Nat) (r : Running) (n : Node) (x : NodeRun) : Out :=
  let again := Ev.collectiveChunk m
  let off := m.addr.toNat / 2 ^ 24
  let w := s.engWho eng r.cmd (i + 2)
  let refuse := fun (s : State) => s.answer m 4 0x42 []
  let fails := fun (s : State) (st : BitVec 8) =>
    Host.Outcome.next ((refuse (s.updNode eng i fun x => { x with fail := some st })).pending [.nodeCompletion eng i])
  if n.code != 2 || x.phase != .started then .next (refuse s)
  else if s.ownBusy w.owner then s.hold m again
  else if x.open_.contains m.txn.toNat then
    let s := s.updNode eng i fun x => { x with open_ := x.open_.filter (· != m.txn.toNat) }
    .next ((if x.fail.isSome then refuse s else s.answer m 4 0 []).pending [.nodeCompletion eng i])
  else if !msgFits m n x off || !s.sendFits m n then fails s 0x42
  else
    match s.scatter w (putBytes [] (r.dst n + off) m.data) with
    | .wait s => s.hold m again
    | .mig s _ => s.hold m again
    | .stop s st _ => fails s st
    | .ok s _ =>
      let s := s.updNode eng i fun x => { x with bytes := x.bytes + m.data.length }
      let s := if m.src == s.dev.peerId then s else s.bwCharge r.cmd.launch m.data.length
      if s.ownBusy w.owner then (s.updNode eng i fun x => { x with open_ := m.txn.toNat :: x.open_ }).hold m again
      else .next ((s.answer m 4 0 []).pending [.nodeCompletion eng i])

/-- COLLECTIVE_CHUNK (R288, R290, R509). One for a context that retires or is not there is dropped. -/
def execCollectiveChunk (m : Msg) (s : State) : Out :=
  s.inbound m 8 fun s =>
    let eng := msgEngine m
    let i := msgNode m
    match s.ctx? (engCtx eng) with
    | none => .next s
    | some c =>
      if c.retiring then .next s else
      match (s.engine? eng).bind (·.running) with
      | none => .next (s.answer m 4 0x42 [])
      | some r =>
        match r.nodes[i]?, r.graph[i]? with
        | some x, some n => s.takeChunk m eng i r n x
        | _, _ => .next (s.answer m 4 0x42 [])

/-! ### Control messages (R28, R87) -/

/-- Whether a translation names a peer and meets a range of the peer's addresses. -/
def Xlat.onPeer (x : Xlat) (p base len : Nat) : Bool := x.peer == some p && spansMeet x.frame (2 ^ x.lg) base len

/-- TRANSLATION_DRAIN (R87). -/
def execTranslationDrain (m : Msg) (s : State) : Out :=
  s.inbound m 0x0A fun s =>
    let mark := fun (x : Xlat) => { x with drain := true }
    let s := { s with xl := mapIf (fun x => x.onPeer m.src.toNat m.addr.toNat (field m.data 0 8)) mark s.xl }
    .next (s.reply (s.msg 0x0C m.src.toNat m.addr.toNat m.ctx.toNat m.txn.toNat []))

/-- TRANSLATION_CONFIRM (R87). -/
def execTranslationConfirm (m : Msg) (s : State) : Out :=
  s.inbound m 0x0B fun s =>
    let p : PeerConfirm := { id := s.nextId, peer := m.src.toNat, base := m.addr.toNat, len := field m.data 0 8, txn := m.txn }
    .next ({ s.bump with pcs := s.pcs ++ [p] }.pending [.peerConfirmComplete p.id])

/-- Whether a write to a peer's range is still to be acknowledged (R87). -/
def State.peerBusy (s : State) (c : PeerConfirm) : Bool :=
  let hit := fun (t : Tgt) (n : Nat) => match t with
    | .peer p a => p == c.peer && spansMeet a n c.base c.len
    | _ => false
  (s.reqs.any fun r => r.writes && hit r.tgt r.n) || s.rops.any fun (r : Rop) => r.grans.any fun g => hit g.tgt g.size

/-- PEER_CONFIRM_COMPLETE (R87): the marked translations are discarded, then the acknowledgement goes out. -/
def execPeerConfirmComplete (pc : Nat) (s : State) : Out :=
  match s.pcs.find? fun c => c.id == pc with
  | none => .next s
  | some c =>
    if s.peerBusy c then .next (s.pending [.peerConfirmComplete pc])
    else
      let s := { s with
        pcs := s.pcs.filter fun (x : PeerConfirm) => x.id != pc
        xl := s.xl.filter fun x => !(x.onPeer c.peer c.base c.len && x.drain) }
      .next (s.reply (s.msg 0x0C c.peer c.base 0 c.txn.toNat []))

/-- TRANSLATION_ACKNOWLEDGEMENT (R79, R80, R87). -/
def execTranslationAcknowledgement (m : Msg) (s : State) : Out :=
  s.inbound m 0x0C fun s =>
    .next (s.updTr m.txn.toNat fun t => { t with peers := t.peers.filter (· != m.src.toNat) })

/-- RESET_NOTICE (R28). -/
def execResetNotice (m : Msg) (s : State) : Out := s.inbound m 0x0D fun s => .next (s.peerLost m.src.toNat)
/-- POWER_DOWN_NOTICE (R28). -/
def execPowerDownNotice (m : Msg) (s : State) : Out := s.inbound m 0x0E fun s => .next (s.peerLost m.src.toNat)
/-- HEARTBEAT (R28). -/
def execHeartbeat (m : Msg) (s : State) : Out := s.inbound m 0x0F fun s => .next s

end Sys2Proof.Machine
end

