-- ==== Sys2Proof/Machine/Clock.lean ====
section
/-!
DEFINITION. The end of a clk (R15, R16, R256): the clock, the ring, and everything that falls due at a clk edge or at a time.
-/

namespace Sys2Proof.Machine

/-- Events of the scheduler's 1 ms timers (R92, R101). -/
def State.schedEvents (s : State) : List Ev :=
  (match s.oldestWait with
   | some (l, t) => if t + nanos 1000000 ≤ s.time && s.dev.hold != some l then [Ev.oldestClusterHold] else []
   | none => []) ++
    (s.launches.filter fun l => s.refusedLong l).map fun l => .parallelPreemption l.id

/-- Events of the links' timers (R20, R28): heartbeats, peers that are silent, and a re-key well before FCNT reaches 2^32. -/
def State.linkEvents (s : State) : List Ev :=
  ((upto 0 16).filter fun n => s.beatDue n).map (fun n => Ev.heartbeatTimer n) ++
    ((s.dev.heard.map (·.1)).filter fun p => s.silent p).map (fun p => Ev.peerLossTimeout p) ++
    ((upto 0 16).filter fun n => (s.link n).state == 2 && 2 ^ 31 ≤ (s.link n).sendCnt).map fun n => Ev.rekey n

/-- What the management controller measures over a power window that ends now (R95), and whether the whole of it was hot (R17): free
values. -/
def State.measuredPower (s : State) : Ev :=
  .powerWindowEnd (s.launches.map fun l => (l.id, Config.meanPower s.free l.id)) (Config.windowHot s.free)

/-- The end of a 10 µs window (R94, R97) and of a 1 ms window (R95), when the time passes from `old`. -/
def State.windowEvents (s : State) (old : Nat) : List Ev :=
  (if s.time / nanos 10000 = old / nanos 10000 then [] else [.bandwidthWindow]) ++
    if s.time / nanos 1000000 = old / nanos 1000000 then [] else [s.measuredPower]

/-- The idle timer of a channel at which requests wait does not run (R159); tuples of which nothing is left to serve have gone. -/
def State.chanTicks (s : State) (clk : Nat) : List Chan :=
  if s.chans.all fun c => c.queue.isEmpty then s.chans
  else s.chans.map fun (c : Chan) =>
    if (s.turn c.pch).isSome then { c with idle := clk, queue := c.queue.filter fun t => s.tupleLive c.pch t }
    else { c with queue := [] }

/-- Everything that falls due at a clk edge. -/
def State.edgeEvents (s : State) (old : Nat) : List Ev :=
  s.windowEvents old ++ s.ripeEvents ++ s.forcedEvents ++ s.ringEvents ++ s.junctionEvents ++ s.chanEvents ++ s.combEvents ++
    s.schedEvents ++ s.linkEvents

/-- The clk ends (R16, R256). -/
def State.clkEdge (s : State) : State :=
  let clk := s.clk + 1
  let old := s.time
  let s := { s with
    clk := clk
    chans := s.chanTicks clk
    free := s.free + 1
    time := s.time + clkPeriod s.dev.level
    ring := { s.ring with t := if s.ring.on then s.ring.t + 1 else s.ring.t }
    teams := s.teams.map fun (t : Team) => t.tick clk }
  { s with ev := { s.ev with now := s.ev.later ++ s.edgeEvents old, later := [], issued := [], pilots := [] } }

end Sys2Proof.Machine
end

