-- ==== Sys2Proof/Machine/LaneInt.lean ====
section
/-!
DEFINITION. Lane integer instructions (R347, R398-R401) and the mask instructions (R409, R410), with the frame
that every lane instruction's meaning runs in (R119, R396).
-/

namespace Sys2Proof.Machine

/-! ### The frame of lane instructions -/

/-- Each active lane of v[d] gets `f` of the registers as they stood and the lane (R119). -/
def laneOp (g : Sig) (p : Pfx) (d : Nat) (f : Grp → Nat → Lane) (s : State) : Out :=
  issue g p.mask s fun i s => .next ((s.upd i fun x => x.vfill d i.mask (f x)).advance i)

/-- Each active lane writes its bit of m[d] (R401, R410). -/
def maskOp (g : Sig) (p : Pfx) (d : Nat) (f : Iss → Grp → LaneMask) (s : State) : Out :=
  issue g p.mask s fun i s => .next ((s.upd i fun x => x.mput d i.mask (f i x)).advance i)

/-- The mask of the lanes on which `f` holds. -/
def lanesWhere (f : Nat → Bool) : LaneMask := maskOf ((upto 0 64).filter f)

/-- Operand b of an L3 word: v[b] of the lane, or the low word of s[b] (R396). -/
def Grp.opB (g : Grp) (b : BitVec 8) (u : Bool) (i : Nat) : Lane :=
  if u then (g.sget b.toNat).setWidth 32 else g.vget b.toNat i

/-- A three-operand word: `f a b d` per lane. -/
def lane3 (g : Sig) (p : Pfx) (d a b : BitVec 8) (u : Bool) (f : Lane → Lane → Lane → Lane) (s : State) : Out :=
  laneOp g p d.toNat (fun x i => f (x.vget a.toNat i) (x.opB b u i) (x.vget d.toNat i)) s

/-- A word with an immediate: `f a imm` per lane. -/
def laneI (g : Sig) (p : Pfx) (d a : BitVec 8) (imm : Imm) (signed : Bool) (f : Lane → Lane → Lane) (s : State) : Out :=
  laneOp g p d.toNat (fun x i => f (x.vget a.toNat i) (Imm.lane imm signed)) s

/-- A one-source word. -/
def lane1 (g : Sig) (p : Pfx) (d a : BitVec 8) (f : Lane → Lane) (s : State) : Out :=
  laneOp g p d.toNat (fun x i => f (x.vget a.toNat i)) s

/-- A 16-bit word: `f vd vb` into vd (R318, R347). -/
def lane16 (g : Sig) (p : Pfx) (vd : BitVec 6) (vb : BitVec 5) (f : Lane → Lane → Lane) (s : State) : Out :=
  laneOp g p vd.toNat (fun x i => f (x.vget vd.toNat i) (x.vget vb.toNat i)) s

/-- A 16-bit word with an immediate. -/
def lane16i (g : Sig) (p : Pfx) (vd : BitVec 6) (f : Lane → Lane) (s : State) : Out :=
  laneOp g p vd.toNat (fun x i => f (x.vget vd.toNat i)) s

/-! ### Integer effects (R398-R400) -/

/-- Shifts by b mod 32. -/
def laneShl (a b : Lane) : Lane := a <<< (b.toNat % 32)
def laneShr (a b : Lane) : Lane := a >>> (b.toNat % 32)
def laneSra (a b : Lane) : Lane := a.sshiftRight (b.toNat % 32)
/-- High halves of products. -/
def laneMulh (a b : Lane) : Lane := BitVec.ofInt 32 (a.toInt * b.toInt / 2 ^ 32)
def laneMulhu (a b : Lane) : Lane := BitVec.ofNat 32 (a.toNat * b.toNat / 2 ^ 32)
/-- Minimum and maximum. -/
def laneMin (a b : Lane) : Lane := if b.slt a then b else a
def laneMax (a b : Lane) : Lane := if a.slt b then b else a
def laneMinu (a b : Lane) : Lane := if b.ult a then b else a
def laneMaxu (a b : Lane) : Lane := if a.ult b then b else a

/-- POS and LEN of a field specifier (R399). -/
def fieldPos (b : Lane) : Nat := b.toNat % 32
def fieldLen (b : Lane) : Nat := min (bits b.toNat 8 6) 32

/-- `bfx` (R399). -/
def laneBfx (a b : Lane) : Lane :=
  let n := fieldLen b
  let f := bits a.toNat (fieldPos b) n
  if b.getLsbD 15 && 0 < n then BitVec.ofInt 32 (signNat f n) else BitVec.ofNat 32 f

/-- `bfi` (R399). -/
def laneBfi (a b d : Lane) : Lane :=
  let m := BitVec.ofNat 32 ((2 ^ fieldLen b - 1) * 2 ^ fieldPos b)
  (d &&& ~~~m) ||| ((a <<< fieldPos b) &&& m)

/-- `abs` and `neg` (R400). -/
def laneAbs (a : Lane) : Lane := BitVec.ofInt 32 (satS (a.toInt.natAbs : Int) 32)
def laneNeg (a : Lane) : Lane := BitVec.ofInt 32 (satS (-a.toInt) 32)

/-- `pop` and `clz` (R400). -/
def lanePop (a : Lane) : Lane := BitVec.ofNat 32 ((upto 0 32).filter fun i => a.getLsbD i).length
def laneClz (a : Lane) : Lane := BitVec.ofNat 32 (if a = 0 then 32 else 31 - Nat.log2 a.toNat)

/-! ### 16-bit words -/

/-- ADD_16 (R347). -/
def execAdd16 (p : Pfx) (vd : BitVec 6) (vb : BitVec 5) (s : State) : Out :=
  lane16 (sigOf (.add16 p vd vb)) p vd vb (· + ·) s

/-- ADD_IMM_16 (R347): imm5 is signed. -/
def execAddImm16 (p : Pfx) (vd : BitVec 6) (vb : BitVec 5) (s : State) : Out :=
  lane16i (sigOf (.addImm16 p vd vb)) p vd (· + vb.signExtend 32) s

/-- SUB_16 (R347). -/
def execSub16 (p : Pfx) (vd : BitVec 6) (vb : BitVec 5) (s : State) : Out :=
  lane16 (sigOf (.sub16 p vd vb)) p vd vb (· - ·) s

/-- MUL_16 (R347). -/
def execMul16 (p : Pfx) (vd : BitVec 6) (vb : BitVec 5) (s : State) : Out :=
  lane16 (sigOf (.mul16 p vd vb)) p vd vb (· * ·) s

/-- AND_16 (R347). -/
def execAnd16 (p : Pfx) (vd : BitVec 6) (vb : BitVec 5) (s : State) : Out :=
  lane16 (sigOf (.and16 p vd vb)) p vd vb (· &&& ·) s

/-- OR_16 (R347). -/
def execOr16 (p : Pfx) (vd : BitVec 6) (vb : BitVec 5) (s : State) : Out :=
  lane16 (sigOf (.or16 p vd vb)) p vd vb (· ||| ·) s

/-- XOR_16 (R347). -/
def execXor16 (p : Pfx) (vd : BitVec 6) (vb : BitVec 5) (s : State) : Out :=
  lane16 (sigOf (.xor16 p vd vb)) p vd vb (· ^^^ ·) s

/-- SHL_16 (R347): imm5 is unsigned. -/
def execShl16 (p : Pfx) (vd : BitVec 6) (vb : BitVec 5) (s : State) : Out :=
  lane16i (sigOf (.shl16 p vd vb)) p vd (fun a => laneShl a (vb.setWidth 32)) s

/-- SHR_16 (R347). -/
def execShr16 (p : Pfx) (vd : BitVec 6) (vb : BitVec 5) (s : State) : Out :=
  lane16i (sigOf (.shr16 p vd vb)) p vd (fun a => laneShr a (vb.setWidth 32)) s

/-- SRA_16 (R347). -/
def execSra16 (p : Pfx) (vd : BitVec 6) (vb : BitVec 5) (s : State) : Out :=
  lane16i (sigOf (.sra16 p vd vb)) p vd (fun a => laneSra a (vb.setWidth 32)) s

/-- MIN_16 (R347). -/
def execMin16 (p : Pfx) (vd : BitVec 6) (vb : BitVec 5) (s : State) : Out :=
  lane16 (sigOf (.min16 p vd vb)) p vd vb laneMin s

/-- MAX_16 (R347). -/
def execMax16 (p : Pfx) (vd : BitVec 6) (vb : BitVec 5) (s : State) : Out :=
  lane16 (sigOf (.max16 p vd vb)) p vd vb laneMax s

/-- MINU_16 (R347). -/
def execMinu16 (p : Pfx) (vd : BitVec 6) (vb : BitVec 5) (s : State) : Out :=
  lane16 (sigOf (.minu16 p vd vb)) p vd vb laneMinu s

/-- MAXU_16 (R347). -/
def execMaxu16 (p : Pfx) (vd : BitVec 6) (vb : BitVec 5) (s : State) : Out :=
  lane16 (sigOf (.maxu16 p vd vb)) p vd vb laneMaxu s

/-! ### Three-operand words (R398, R399) -/

/-- ADD (R398). -/
def execAdd (p : Pfx) (d a b : BitVec 8) (u : Bool) (s : State) : Out :=
  lane3 (sigOf (.add p d a b u)) p d a b u (fun x y _ => x + y) s

/-- SUB (R398). -/
def execSub (p : Pfx) (d a b : BitVec 8) (u : Bool) (s : State) : Out :=
  lane3 (sigOf (.sub p d a b u)) p d a b u (fun x y _ => x - y) s

/-- AND (R398). -/
def execAnd (p : Pfx) (d a b : BitVec 8) (u : Bool) (s : State) : Out :=
  lane3 (sigOf (.and p d a b u)) p d a b u (fun x y _ => x &&& y) s

/-- OR (R398). -/
def execOr (p : Pfx) (d a b : BitVec 8) (u : Bool) (s : State) : Out :=
  lane3 (sigOf (.or p d a b u)) p d a b u (fun x y _ => x ||| y) s

/-- XOR (R398). -/
def execXor (p : Pfx) (d a b : BitVec 8) (u : Bool) (s : State) : Out :=
  lane3 (sigOf (.xor p d a b u)) p d a b u (fun x y _ => x ^^^ y) s

/-- SHL (R398). -/
def execShl (p : Pfx) (d a b : BitVec 8) (u : Bool) (s : State) : Out :=
  lane3 (sigOf (.shl p d a b u)) p d a b u (fun x y _ => laneShl x y) s

/-- SHR (R398). -/
def execShr (p : Pfx) (d a b : BitVec 8) (u : Bool) (s : State) : Out :=
  lane3 (sigOf (.shr p d a b u)) p d a b u (fun x y _ => laneShr x y) s

/-- SRA (R398). -/
def execSra (p : Pfx) (d a b : BitVec 8) (u : Bool) (s : State) : Out :=
  lane3 (sigOf (.sra p d a b u)) p d a b u (fun x y _ => laneSra x y) s

/-- MUL (R398). -/
def execMul (p : Pfx) (d a b : BitVec 8) (u : Bool) (s : State) : Out :=
  lane3 (sigOf (.mul p d a b u)) p d a b u (fun x y _ => x * y) s

/-- MAD (R398). -/
def execMad (p : Pfx) (d a b : BitVec 8) (u : Bool) (s : State) : Out :=
  lane3 (sigOf (.mad p d a b u)) p d a b u (fun x y z => x * y + z) s

/-- MULH (R398). -/
def execMulh (p : Pfx) (d a b : BitVec 8) (u : Bool) (s : State) : Out :=
  lane3 (sigOf (.mulh p d a b u)) p d a b u (fun x y _ => laneMulh x y) s

/-- MULHU (R398). -/
def execMulhu (p : Pfx) (d a b : BitVec 8) (u : Bool) (s : State) : Out :=
  lane3 (sigOf (.mulhu p d a b u)) p d a b u (fun x y _ => laneMulhu x y) s

/-- MIN (R398). -/
def execMin (p : Pfx) (d a b : BitVec 8) (u : Bool) (s : State) : Out :=
  lane3 (sigOf (.min p d a b u)) p d a b u (fun x y _ => laneMin x y) s

/-- MINU (R398). -/
def execMinu (p : Pfx) (d a b : BitVec 8) (u : Bool) (s : State) : Out :=
  lane3 (sigOf (.minu p d a b u)) p d a b u (fun x y _ => laneMinu x y) s

/-- MAX (R398). -/
def execMax (p : Pfx) (d a b : BitVec 8) (u : Bool) (s : State) : Out :=
  lane3 (sigOf (.max p d a b u)) p d a b u (fun x y _ => laneMax x y) s

/-- MAXU (R398). -/
def execMaxu (p : Pfx) (d a b : BitVec 8) (u : Bool) (s : State) : Out :=
  lane3 (sigOf (.maxu p d a b u)) p d a b u (fun x y _ => laneMaxu x y) s

/-- BFX (R399). -/
def execBfx (p : Pfx) (d a b : BitVec 8) (u : Bool) (s : State) : Out :=
  lane3 (sigOf (.bfx p d a b u)) p d a b u (fun x y _ => laneBfx x y) s

/-- BFI (R399). -/
def execBfi (p : Pfx) (d a b : BitVec 8) (u : Bool) (s : State) : Out :=
  lane3 (sigOf (.bfi p d a b u)) p d a b u laneBfi s

/-- CMP (R401). -/
def execCmp (p : Pfx) (c m : BitVec 4) (a b : BitVec 8) (u : Bool) (s : State) : Out :=
  maskOp (sigOf (.cmp p c m a b u)) p m.toNat
    (fun _ x => lanesWhere fun i => condInt c.toNat (x.vget a.toNat i) (x.opB b u i)) s

/-! ### Words with an immediate (R398, R401) -/

/-- ADD_IMM (R398). -/
def execAddImm (p : Pfx) (d a : BitVec 8) (imm : Imm) (s : State) : Out :=
  laneI (sigOf (.addImm p d a imm)) p d a imm true (· + ·) s

/-- MUL_IMM (R398). -/
def execMulImm (p : Pfx) (d a : BitVec 8) (imm : Imm) (s : State) : Out :=
  laneI (sigOf (.mulImm p d a imm)) p d a imm true (· * ·) s

/-- AND_IMM (R398). -/
def execAndImm (p : Pfx) (d a : BitVec 8) (imm : Imm) (s : State) : Out :=
  laneI (sigOf (.andImm p d a imm)) p d a imm true (· &&& ·) s

/-- OR_IMM (R398). -/
def execOrImm (p : Pfx) (d a : BitVec 8) (imm : Imm) (s : State) : Out :=
  laneI (sigOf (.orImm p d a imm)) p d a imm true (· ||| ·) s

/-- XOR_IMM (R398). -/
def execXorImm (p : Pfx) (d a : BitVec 8) (imm : Imm) (s : State) : Out :=
  laneI (sigOf (.xorImm p d a imm)) p d a imm true (· ^^^ ·) s

/-- SHL_IMM (R398). -/
def execShlImm (p : Pfx) (d a : BitVec 8) (imm : Imm) (s : State) : Out :=
  laneI (sigOf (.shlImm p d a imm)) p d a imm false laneShl s

/-- SHR_IMM (R398). -/
def execShrImm (p : Pfx) (d a : BitVec 8) (imm : Imm) (s : State) : Out :=
  laneI (sigOf (.shrImm p d a imm)) p d a imm false laneShr s

/-- SRA_IMM (R398). -/
def execSraImm (p : Pfx) (d a : BitVec 8) (imm : Imm) (s : State) : Out :=
  laneI (sigOf (.sraImm p d a imm)) p d a imm false laneSra s

/-- CMP_IMM (R401): the immediate is widened as signed and compared as the code says. -/
def execCmpImm (p : Pfx) (c m : BitVec 4) (a : BitVec 8) (imm : Imm) (s : State) : Out :=
  maskOp (sigOf (.cmpImm p c m a imm)) p m.toNat
    (fun _ x => lanesWhere fun i => condInt c.toNat (x.vget a.toNat i) (Imm.lane imm true)) s

/-! ### One-source words (R400) -/

/-- NOT (R400). -/
def execNot (p : Pfx) (d a : BitVec 8) (s : State) : Out := lane1 (sigOf (.not p d a)) p d a (~~~ ·) s

/-- ABS (R400). -/
def execAbs (p : Pfx) (d a : BitVec 8) (s : State) : Out := lane1 (sigOf (.abs p d a)) p d a laneAbs s

/-- NEG (R400). -/
def execNeg (p : Pfx) (d a : BitVec 8) (s : State) : Out := lane1 (sigOf (.neg p d a)) p d a laneNeg s

/-- POP (R400). -/
def execPop (p : Pfx) (d a : BitVec 8) (s : State) : Out := lane1 (sigOf (.pop p d a)) p d a lanePop s

/-- CLZ (R400). -/
def execClz (p : Pfx) (d a : BitVec 8) (s : State) : Out := lane1 (sigOf (.clz p d a)) p d a laneClz s

/-- SEL (R400): a where the bit of mK is 1, else d unchanged. -/
def execSel (p : Pfx) (d a : BitVec 8) (x : BitVec 4) (s : State) : Out :=
  issue (sigOf (.sel p d a x)) p.mask s fun i s =>
    let k := (s.my i).maskReg i.p.entry x.toNat
    .next ((s.upd i fun g => g.vfill d.toNat (i.mask &&& k) (g.vget a.toNat)).advance i)

/-! ### Mask instructions (R410) -/

/-- MAND (R410). -/
def execMand (p : Pfx) (d a k : BitVec 4) (s : State) : Out :=
  maskOp (sigOf (.mand p d a k)) p d.toNat
    (fun i g => g.maskReg i.p.entry a.toNat &&& g.maskReg i.p.entry k.toNat) s

/-- MOR (R410). -/
def execMor (p : Pfx) (d a k : BitVec 4) (s : State) : Out :=
  maskOp (sigOf (.mor p d a k)) p d.toNat
    (fun i g => g.maskReg i.p.entry a.toNat ||| g.maskReg i.p.entry k.toNat) s

/-- MXOR (R410). -/
def execMxor (p : Pfx) (d a k : BitVec 4) (s : State) : Out :=
  maskOp (sigOf (.mxor p d a k)) p d.toNat
    (fun i g => g.maskReg i.p.entry a.toNat ^^^ g.maskReg i.p.entry k.toNat) s

/-- MNOT (R410). -/
def execMnot (p : Pfx) (d a : BitVec 4) (s : State) : Out :=
  maskOp (sigOf (.mnot p d a)) p d.toNat (fun i g => ~~~(g.maskReg i.p.entry a.toNat)) s

/-- MMOV (R410). -/
def execMmov (p : Pfx) (d a : BitVec 4) (s : State) : Out :=
  maskOp (sigOf (.mmov p d a)) p d.toNat (fun i g => g.maskReg i.p.entry a.toNat) s

/-- MPOP (R410). -/
def execMpop (p : Pfx) (d : BitVec 8) (a : BitVec 4) (s : State) : Out :=
  issue (sigOf (.mpop p d a)) p.mask s fun i s =>
    let c := popCount ((s.my i).maskReg i.p.entry a.toNat &&& i.mask)
    .next ((s.upd i fun g => g.vfill d.toNat i.mask fun _ => BitVec.ofNat 32 c).advance i)

/-- The lowest set bit of a mask, 0 if there is none (R410). -/
def lowestBit (m : LaneMask) : LaneMask := m &&& (0 - m)

/-- MFIRST (R410). -/
def execMfirst (p : Pfx) (d a : BitVec 4) (s : State) : Out :=
  maskOp (sigOf (.mfirst p d a)) p d.toNat (fun i g => lowestBit (g.maskReg i.p.entry a.toNat &&& i.mask)) s

/-- MSET (R410). -/
def execMset (p : Pfx) (d : BitVec 4) (a : BitVec 8) (s : State) : Out :=
  maskOp (sigOf (.mset p d a)) p d.toNat (fun _ g => lanesWhere fun i => g.vget a.toNat i != 0) s

end Sys2Proof.Machine
end

