-- ==== Sys2Proof/Machine/LaneFloat.lean ====
section
/-!
DEFINITION. Lane float instructions, conversions and the special-function unit (R397, R402-R407).
-/

namespace Sys2Proof.Machine

/-- The format that a PK 0 prefix's TYPE selects (R397). -/
def fmtOf (ty : BitVec 3) : Fmt := if ty = 1 then fp16 else if ty = 2 then bf16 else fp32

/-- The low bits of a lane that a format takes (R397). -/
def Fmt.of (f : Fmt) (x : Lane) : Nat := x.toNat % 2 ^ (1 + f.ew + f.mw)

/-- An encoding as a lane, the bits above it 0 (R397). -/
def toLane (x : Nat) : Lane := BitVec.ofNat 32 x

/-- A three-operand float word. -/
def float3 (g : Sig) (p : Pfx) (d a b : BitVec 8) (u : Bool) (f : Fmt → Nat → Nat → Nat → Nat) (s : State) : Out :=
  let t := fmtOf p.ty
  lane3 g p d a b u (fun x y z => toLane (f t (t.of x) (t.of y) (t.of z))) s

/-- A one-source float word. -/
def float1 (g : Sig) (p : Pfx) (d a : BitVec 8) (f : Fmt → Nat → Nat) (s : State) : Out :=
  let t := fmtOf p.ty
  lane1 g p d a (fun x => toLane (f t (t.of x))) s

/-- FADD_16 (R347): FP32 under RNE. -/
def execFadd16 (p : Pfx) (vd : BitVec 6) (vb : BitVec 5) (s : State) : Out :=
  lane16 (sigOf (.fadd16 p vd vb)) p vd vb (fun x y => toLane (fp32.fadd 0 x.toNat y.toNat)) s

/-- FMUL_16 (R347). -/
def execFmul16 (p : Pfx) (vd : BitVec 6) (vb : BitVec 5) (s : State) : Out :=
  lane16 (sigOf (.fmul16 p vd vb)) p vd vb (fun x y => toLane (fp32.fmul 0 x.toNat y.toNat)) s

/-- FADD (R402). -/
def execFadd (p : Pfx) (d a b : BitVec 8) (u : Bool) (s : State) : Out :=
  float3 (sigOf (.fadd p d a b u)) p d a b u (fun t x y _ => t.fadd p.rm.toNat x y) s

/-- FSUB (R402). -/
def execFsub (p : Pfx) (d a b : BitVec 8) (u : Bool) (s : State) : Out :=
  float3 (sigOf (.fsub p d a b u)) p d a b u (fun t x y _ => t.fsub p.rm.toNat x y) s

/-- FMUL (R402). -/
def execFmul (p : Pfx) (d a b : BitVec 8) (u : Bool) (s : State) : Out :=
  float3 (sigOf (.fmul p d a b u)) p d a b u (fun t x y _ => t.fmul p.rm.toNat x y) s

/-- FFMA (R402): rounded once. -/
def execFfma (p : Pfx) (d a b : BitVec 8) (u : Bool) (s : State) : Out :=
  float3 (sigOf (.ffma p d a b u)) p d a b u (fun t x y z => t.ffma p.rm.toNat x y z) s

/-- FMIN (R402). -/
def execFmin (p : Pfx) (d a b : BitVec 8) (u : Bool) (s : State) : Out :=
  float3 (sigOf (.fmin p d a b u)) p d a b u (fun t x y _ => t.fmin x y) s

/-- FMAX (R402). -/
def execFmax (p : Pfx) (d a b : BitVec 8) (u : Bool) (s : State) : Out :=
  float3 (sigOf (.fmax p d a b u)) p d a b u (fun t x y _ => t.fmax x y) s

/-- FCMP (R403). -/
def execFcmp (p : Pfx) (c m : BitVec 4) (a b : BitVec 8) (u : Bool) (s : State) : Out :=
  let t := fmtOf p.ty
  maskOp (sigOf (.fcmp p c m a b u)) p m.toNat
    (fun _ x => lanesWhere fun i => condFloat c.toNat (t.dec (t.of (x.vget a.toNat i))) (t.dec (t.of (x.opB b u i)))) s

/-- FABS (R404). -/
def execFabs (p : Pfx) (d a : BitVec 8) (s : State) : Out := float1 (sigOf (.fabs p d a)) p d a Fmt.fabs s

/-- FNEG (R404). -/
def execFneg (p : Pfx) (d a : BitVec 8) (s : State) : Out := float1 (sigOf (.fneg p d a)) p d a Fmt.fneg s

/-- FCLASS (R404). -/
def execFclass (p : Pfx) (d a : BitVec 8) (s : State) : Out := float1 (sigOf (.fclass p d a)) p d a Fmt.fclass s

/-- FRND (R404). -/
def execFrnd (p : Pfx) (d a : BitVec 8) (s : State) : Out :=
  float1 (sigOf (.frnd p d a)) p d a (fun t => t.frnd p.rm.toNat) s

/-- The conversions of `fcvt` by code (R354, R405). -/
def laneConvert (code rm : Nat) (a : Lane) : Lane :=
  let x := a.toNat
  let int := fun (k : Int) => BitVec.ofInt 32 k
  match code with
  | 0 => toLane (fp16.conv fp32 0 (x % 65536))
  | 1 => toLane (bf16.conv fp32 0 (x % 65536))
  | 2 => toLane (fp32.conv fp16 rm x)
  | 3 => toLane (fp32.conv bf16 rm x)
  | 4 => toLane (bf16.conv fp16 rm (x % 65536))
  | 5 => toLane (fp16.conv bf16 rm (x % 65536))
  | 6 => int (fp32.toInt rm true 32 x)
  | 7 => int (fp32.toInt rm false 32 x)
  | 8 => toLane (fp32.ofInt rm a.toInt)
  | 9 => toLane (fp32.ofInt rm (x : Int))
  | 10 => int (satS a.toInt 8)
  | 11 => int (satU a.toInt 8)
  | 12 => int (satS (x : Int) 8)
  | _ => int (satU (x : Int) 8)

/-- FCVT (R405). -/
def execFcvt (p : Pfx) (d a : BitVec 8) (x : BitVec 4) (s : State) : Out :=
  lane1 (sigOf (.fcvt p d a x)) p d a (laneConvert x.toNat p.rm.toNat) s

/-! ### The special-function unit (R407) -/

/-- RCP (R407). -/
def execRcp (p : Pfx) (d a : BitVec 8) (s : State) : Out := float1 (sigOf (.rcp p d a)) p d a Fmt.rcp s

/-- RSQ (R407). -/
def execRsq (p : Pfx) (d a : BitVec 8) (s : State) : Out := float1 (sigOf (.rsq p d a)) p d a Fmt.rsq s

/-- SQRT (R407). -/
def execSqrt (p : Pfx) (d a : BitVec 8) (s : State) : Out := float1 (sigOf (.sqrt p d a)) p d a Fmt.sqrt s

/-- EXP2 (R407). -/
def execExp2 (p : Pfx) (d a : BitVec 8) (s : State) : Out := float1 (sigOf (.exp2 p d a)) p d a Fmt.exp2 s

/-- LOG2 (R407). -/
def execLog2 (p : Pfx) (d a : BitVec 8) (s : State) : Out := float1 (sigOf (.log2 p d a)) p d a Fmt.log2 s

/-- SIN (R407). -/
def execSin (p : Pfx) (d a : BitVec 8) (s : State) : Out := float1 (sigOf (.sin p d a)) p d a Fmt.sin s

/-- COS (R407). -/
def execCos (p : Pfx) (d a : BitVec 8) (s : State) : Out := float1 (sigOf (.cos p d a)) p d a Fmt.cos s

/-- TANH (R407). -/
def execTanh (p : Pfx) (d a : BitVec 8) (s : State) : Out := float1 (sigOf (.tanh p d a)) p d a Fmt.tanh s

end Sys2Proof.Machine
end

