-- ==== Sys2Proof/Machine/Cross.lean ====
section
/-!
DEFINITION. Cross-lane instructions (R411-R418): they read their sources in every lane, and write the lanes of the
effective mask.
-/

namespace Sys2Proof.Machine

/-- The distance of a shuffle's aux (R353). -/
def shfDist (x : BitVec 4) : Nat := if x.getLsbD 3 then 64 >>> (x.toNat % 8 + 1) else 2 ^ (x.toNat % 8)

/-- A shuffle: lane i takes a from lane `j i`, or its own where there is none (R412). -/
def shuffle (g : Sig) (p : Pfx) (d a : BitVec 8) (j : Nat → Option Nat) (s : State) : Out :=
  laneOp g p d.toNat (fun x i => x.vget a.toNat ((j i).getD i)) s

/-- SHF_UP (R412). -/
def execShfUp (p : Pfx) (d a : BitVec 8) (x : BitVec 4) (s : State) : Out :=
  shuffle (sigOf (.shfUp p d a x)) p d a (fun i => if shfDist x ≤ i then some (i - shfDist x) else none) s

/-- SHF_DN (R412). -/
def execShfDn (p : Pfx) (d a : BitVec 8) (x : BitVec 4) (s : State) : Out :=
  shuffle (sigOf (.shfDn p d a x)) p d a (fun i => if i + shfDist x < 64 then some (i + shfDist x) else none) s

/-- SHF_XOR (R412). -/
def execShfXor (p : Pfx) (d a : BitVec 8) (x : BitVec 4) (s : State) : Out :=
  shuffle (sigOf (.shfXor p d a x)) p d a (fun i => if i ^^^ shfDist x < 64 then some (i ^^^ shfDist x) else none) s

/-- SHF_ROT (R412). -/
def execShfRot (p : Pfx) (d a : BitVec 8) (x : BitVec 4) (s : State) : Out :=
  shuffle (sigOf (.shfRot p d a x)) p d a (fun i => some ((i + shfDist x) % 64)) s

/-- SHF_IDX (R413). -/
def execShfIdx (p : Pfx) (d a : BitVec 8) (s : State) : Out :=
  laneOp (sigOf (.shfIdx p d a)) p d.toNat (fun x i => x.vget a.toNat ((x.vget d.toNat i).toNat % 64)) s

/-- The highest active lane that sends to lane `j` (R414). -/
def sender (g : Grp) (d : Nat) (m : LaneMask) (j : Nat) : Option Nat :=
  ((lanesOf m).filter fun i => (g.vget d i).toNat % 64 == j).getLast?

/-- SCT (R414). -/
def execSct (p : Pfx) (d a : BitVec 8) (s : State) : Out :=
  issue (sigOf (.sct p d a)) p.mask s fun i s =>
    let g := s.my i
    let f := fun j => match sender g d.toNat i.mask j with
      | some k => g.vget a.toNat k
      | none => g.vget d.toNat j
    .next ((s.upd i fun x => x.vfill d.toNat i.mask f).advance i)

/-- BCST (R413). -/
def execBcst (p : Pfx) (d a : BitVec 8) (s : State) : Out :=
  issue (sigOf (.bcst p d a)) p.mask s fun i s =>
    let x := (s.my i).vget a.toNat (lowLane i.mask)
    .next ((s.upd i fun g => g.vfill d.toNat i.mask fun _ => x).advance i)

/-! ### Reductions and scans (R415) -/

/-- The operation of a reduction code on two values (R354, R415). -/
def redOp (code : Nat) (t : Fmt) (x y : Lane) : Lane :=
  match code with
  | 0 => x + y
  | 1 => laneMin x y
  | 2 => laneMax x y
  | 3 => laneMinu x y
  | 4 => laneMaxu x y
  | 5 => x &&& y
  | 6 => x ||| y
  | 7 => x ^^^ y
  | 8 => toLane (t.fadd 0 (t.of x) (t.of y))
  | 9 => toLane (t.fmin (t.of x) (t.of y))
  | _ => toLane (t.fmax (t.of x) (t.of y))

/-- The identity of a reduction code (R415). -/
def redId (code : Nat) (t : Fmt) : Lane :=
  match code with
  | 1 => 0x7FFFFFFF
  | 2 => 0x80000000
  | 3 => 0xFFFFFFFF
  | 5 => 0xFFFFFFFF
  | 8 => toLane t.sign
  | 9 => toLane t.inf
  | 10 => toLane (t.sign + t.inf)
  | _ => 0

/-- A lane result of a float code: any NaN becomes the canonical one, bits above the format 0 (R397, R415). -/
def redOut (code : Nat) (t : Fmt) (x : Lane) : Lane :=
  if code < 8 then x else if (t.dec (t.of x)).isNan then toLane t.nan else toLane (t.of x)

/-- The values that the steps start from (R415). -/
def redStart (g : Grp) (a code : Nat) (t : Fmt) (m : LaneMask) : List Lane :=
  (upto 0 64).map fun i => if m.getLsbD i then g.vget a i else redId code t

/-- The tree steps of `lred`, at distances 1, 2, 4, ... (R415). -/
def redTree (op : Lane → Lane → Lane) : Nat → Nat → List Lane → List Lane
  | 0, _, x => x
  | f + 1, w, x =>
    redTree op f (2 * w) ((upto 0 64).map fun i => if i % (2 * w) = 0 then op (x.getD i 0) (x.getD (i + w) 0) else x.getD i 0)

/-- The steps of a scan (R415). -/
def scanSteps (op : Lane → Lane → Lane) : Nat → Nat → List Lane → List Lane
  | 0, _, x => x
  | f + 1, w, x =>
    scanSteps op f (2 * w) ((upto 0 64).map fun i => if w ≤ i then op (x.getD (i - w) 0) (x.getD i 0) else x.getD i 0)

/-- LRED (R415). -/
def execLred (p : Pfx) (d a : BitVec 8) (x : BitVec 4) (s : State) : Out :=
  issue (sigOf (.lred p d a x)) p.mask s fun i s =>
    let t := fmtOf p.ty
    let r := (redTree (redOp x.toNat t) 6 1 (redStart (s.my i) a.toNat x.toNat t i.mask)).getD 0 0
    .next ((s.upd i fun g => g.vfill d.toNat i.mask fun _ => redOut x.toNat t r).advance i)

/-- SCAN (R415). -/
def execScan (p : Pfx) (d a : BitVec 8) (x : BitVec 4) (s : State) : Out :=
  issue (sigOf (.scan p d a x)) p.mask s fun i s =>
    let t := fmtOf p.ty
    let r := scanSteps (redOp x.toNat t) 6 1 (redStart (s.my i) a.toNat x.toNat t i.mask)
    .next ((s.upd i fun g => g.vfill d.toNat i.mask fun l => redOut x.toNat t (r.getD l 0)).advance i)

/-- SCAN_EX (R415). -/
def execScanEx (p : Pfx) (d a : BitVec 8) (x : BitVec 4) (s : State) : Out :=
  issue (sigOf (.scanEx p d a x)) p.mask s fun i s =>
    let t := fmtOf p.ty
    let r := scanSteps (redOp x.toNat t) 6 1 (redStart (s.my i) a.toNat x.toNat t i.mask)
    let f := fun l => redOut x.toNat t (if l = 0 then redId x.toNat t else r.getD (l - 1) 0)
    .next ((s.upd i fun g => g.vfill d.toNat i.mask f).advance i)

/-! ### Tables, votes, lane numbers (R417, R418) -/

/-- The new bytes of one lane of `tbl` (R417). -/
def tblLane (g : Grp) (d a n : Nat) (fill : Byte) (l : Nat) : Lane :=
  let t := (upto 0 n).flatMap fun r => leBytes 4 (g.vget (a + r) l).toNat
  let ix := leBytes 4 (g.vget d l).toNat
  BitVec.ofNat 32 (leNat (ix.map fun k => (t[k.toNat]?).getD fill))

/-- TBL (R417): `n` holds the number of registers less 1. -/
def execTbl (p : Pfx) (d a : BitVec 8) (n : BitVec 3) (fill : BitVec 4) (s : State) : Out :=
  laneOp (sigOf (.tbl p d a n fill)) p d.toNat
    (fun x l => tblLane x d.toNat a.toNat (n.toNat + 1) (fill.signExtend 8) l) s

/-- The vote over the active lanes (R418). -/
def voteOf (mode : Nat) (xs : List Lane) : Lane :=
  match mode with
  | 0 => if xs.any (· != 0) then 1 else 0
  | 1 => if xs.all (· != 0) then 1 else 0
  | _ => if xs.all (· == xs.headD 0) then 1 else 0

/-- VOTE (R418). -/
def execVote (p : Pfx) (d a : BitVec 8) (x : BitVec 4) (s : State) : Out :=
  issue (sigOf (.vote p d a x)) p.mask s fun i s =>
    let r := voteOf x.toNat ((lanesOf i.mask).map ((s.my i).vget a.toNat))
    .next ((s.upd i fun g => g.vfill d.toNat i.mask fun _ => r).advance i)

/-- LID (R418). -/
def execLid (p : Pfx) (d : BitVec 8) (s : State) : Out :=
  laneOp (sigOf (.lid p d)) p d.toNat (fun _ l => BitVec.ofNat 32 l) s

end Sys2Proof.Machine
end

