-- ==== Sys2Proof/Machine/Pilot.lean ====
section
/-!
DEFINITION. Pilot instructions (R382-R386): building the open run, the checks of a close in the order of R510, closing
into an emit queue, and the event row ECL_STALL_END.
-/

namespace Sys2Proof.Machine

/-! ### The open run (R383, R384) -/

/-- A word as `emit` takes it from a register: bit 0 gives its length. -/
def wordOf (x : U64) : Bool × BitVec 32 :=
  if x.getLsbD 0 then (true, x.setWidth 32) else (false, (x.setWidth 16 : BitVec 16).setWidth 32)

/-- Append a word to the open run; the 25th marks it over-long and is discarded. -/
def RunRec.append (r : RunRec) (w : Bool × BitVec 32) : RunRec :=
  if 24 ≤ r.words.length then { r with overLong := true } else { r with words := r.words ++ [w] }

/-- The lowest bit and the width of an `emitx` field, and whether it is a field of a 32-bit word (R384). -/
def emitField (code : Nat) : Option (Nat × Nat × Bool) :=
  match code with
  | 0 => some (7, 8, true)
  | 1 => some (15, 8, true)
  | 2 => some (23, 8, true)
  | 3 => some (23, 9, true)
  | 4 => some (23, 5, true)
  | 5 => some (28, 4, true)
  | 6 => some (5, 6, false)
  | 7 => some (11, 5, false)
  | 8 => some (7, 25, true)
  | _ => none

/-- Replace bits [lo + n - 1 : lo] of a word by the low bits of `x`. -/
def putField (w : BitVec 32) (lo n : Nat) (x : U64) : BitVec 32 :=
  let m := BitVec.ofNat 32 ((2 ^ n - 1) * 2 ^ lo)
  (w &&& ~~~m) ||| (BitVec.ofNat 32 (x.toNat * 2 ^ lo) &&& m)

/-- EMIT (R383). -/
def execEmit (a : BitVec 8) (s : State) : Out :=
  issue (sigOf (.emit a)) 0 s fun i s =>
    let w := wordOf ((s.my i).sget a.toNat)
    .next ((s.updTeam i.p.team fun t => { t with openRun := t.openRun.append w }).advance i)

/-- EMITX (R384). -/
def execEmitx (d a : BitVec 8) (x : BitVec 4) (s : State) : Out :=
  issue (sigOf (.emitx d a x)) 0 s fun i s =>
    let g := s.my i
    let w := wordOf (g.sget d.toNat)
    match emitField x.toNat with
    | none => .next (s.trap 0x20 0x00)
    | some (lo, n, long) =>
      if w.1 != long then .next (s.trap 0x20 0x00) else
      let w := (w.1, putField w.2 lo n (g.sget a.toNat))
      .next ((s.updTeam i.p.team fun t => { t with openRun := t.openRun.append w }).advance i)

/-! ### The checks of a close (R133, R362, R510) -/

/-- EMIT_BAD's detail for a check of R362 (R292): 0x10 is added to the details of ILLEGAL_OP. -/
def emitDetail (c : Cause) : Nat := if c.1 = 0x20 then c.2 + 0x10 else c.2

/-- The first failing body word of an open run, as an EMIT_BAD detail. -/
def bodyFault (vregs acc : Nat) : Nat → List (Bool × BitVec 32) → Option Nat
  | 0, _ => none
  | _, [] => none
  | fuel + 1, ws =>
    let hs := ws.flatMap fun w => if w.1 then halves32 w.2 else [w.2.setWidth 16]
    match decodeHalves hs with
    | .bad .pfxBeforeRend => some 0x00
    | .bad _ => some 0x10
    | .truncated => some 0x00
    | .ok (.rend _ _ _) _ => some 0x00
    | .ok i len =>
      match (sigOf i).check 0 true 0 0 vregs acc with
      | some c => some (emitDetail c)
      | none => bodyFault vregs acc fuel (ws.drop (ceilDiv len 2))

/-- The bytes of a close's trailer register (R385). -/
def trailerOf (x : U64) : List Nat := (leBytes 8 x.toNat).map (·.toNat)

/-- What fails a close first, as an EMIT_BAD detail (R510). -/
def closeFault (r : RunRec) (tr : List Nat) (vregs acc : Nat) : Option Nat :=
  let named := tr.takeWhile (· != 0xFF)
  if r.overLong || r.words.isEmpty then some 0x01
  else
    match bodyFault vregs acc 25 r.words with
    | some x => some x
    | none =>
      if named.any (248 ≤ ·) || (tr.drop named.length).any (· != 0xFF) then some 0x02
      else if named.any (vregs ≤ ·) then some 0x11
      else none

/-- A close into queue `q` (R385). `d` is the result register of `ecln`; `ecl` waits on a full queue. -/
def closeRun (g : Sig) (d : Option (BitVec 8)) (a : BitVec 8) (q : BitVec 2) (s : State) : Out :=
  issue g 0 s fun i s =>
    match s.team? i.p.team, s.cur with
    | some t, some c =>
      let x := (s.my i).sget a.toNat
      match closeFault t.openRun (trailerOf x) t.vregs t.acc with
      | some detail =>
        let s := s.updTeam i.p.team fun t => { t with openRun := RunRec.none }
        .next (s.takeTrap i.p { trapInfo (s.my i) c 0x23 detail 0 0 with resume := i.next })
      | none =>
        if 8 ≤ s.queueFill t q.toNat then
          match d with
          | none => .next (s.setPark i.p (some (.ecl q.toNat)))
          | some d => .next ((s.upd i fun g => g.sput d.toNat 0).advance i)
        else
          let r := { t.openRun with
            trailer := (leBytes 8 x.toNat).takeWhile (· != 0xFF), pc := i.at_, seq := t.pseq, born := s.clk }
          let s := s.updTeam i.p.team fun t =>
            { t with queues := modAt t.queues q.toNat (· ++ [r]), pseq := t.pseq + 1, openRun := RunRec.none }
          let s := match d with
            | none => s
            | some d => s.upd i fun g => g.sput d.toNat (t.pseq.setWidth 64 <<< 32 ||| 1)
          .next (s.advance i)
    | _, _ => .fault .noIssuer

/-- ECL (R385). -/
def execEcl (a : BitVec 8) (q : BitVec 2) (s : State) : Out := closeRun (sigOf (.ecl a q)) none a q s

/-- ECLN (R385). -/
def execEcln (d a : BitVec 8) (q : BitVec 2) (s : State) : Out := closeRun (sigOf (.ecln d a q)) (some d) a q s

/-- EQFREE (R386): the free places as the queue stood at the start of the clk. -/
def execEqfree (d : BitVec 8) (q : BitVec 2) (s : State) : Out :=
  issue (sigOf (.eqfree d q)) 0 s fun i s =>
    match s.team? i.p.team with
    | none => .fault .noIssuer
    | some t =>
      let fill := (s.takeable t q.toNat).length + (t.taken.filter fun x => x.1 == q.toNat && x.2 == s.clk).length
      .next ((s.upd i fun g => g.sput d.toNat (BitVec.ofNat 64 (8 - fill))).advance i)

/-- ECL_STALL_END (R385): the `ecl` acts again. -/
def execEclStallEnd (team : Nat) (s : State) : Out := .next (s.unpark team 17 0)

end Sys2Proof.Machine
end

