-- ==== Sys2Proof/Machine/System.lean ====
section
/-!
DEFINITION. System instructions (R388-R394): status registers, the return from a trap, PRIO and hints.
-/

namespace Sys2Proof.Machine

/-- The number of a status register (R322). -/
def csrNum (a : BitVec 8) (x : BitVec 4) : Nat := a.toNat + 256 * x.toNat

/-- CSRR (R389). -/
def execCsrr (d a : BitVec 8) (x : BitVec 4) (s : State) : Out :=
  issue (sigOf (.csrr d a x)) 0 s fun i s =>
    match s.team? i.p.team, s.launchOf i.p.team with
    | some t, some l =>
      match s.csrRead t l i.p (csrNum a x) with
      | some v => .next ((s.upd i fun g => g.sput d.toNat v).advance i)
      | none => .next (s.trap 0x20 0x08)
    | _, _ => .fault .noIssuer

/-- `csrw` in the handler slot (R394): TAKEST and TWST of the trapped group's image copy; none for anything else. -/
def State.csrImage (s : State) (u n : Nat) (x : U64) : Option State :=
  match s.inTrap u, s.launchOf u with
  | some tr, some l =>
    if tr.unit = 17 then none
    else
      let off := if n = 0x0F then 48 else 56
      if n != 0x0F && n != 0x16 then none
      else if !x.getLsbD 0 then some s
      else some ((s.saveSpan l.ctx 1 (tr.regs.fimg.toNat + off) 1 []).getD (s.doubleFault u 16 tr.regs))
  | _, _ => none

/-- CSRW (R390, R394). -/
def execCsrw (d a : BitVec 8) (x : BitVec 4) (s : State) : Out :=
  issue (sigOf (.csrw d a x)) 0 s fun i s =>
    let v := (s.my i).sget d.toNat
    let n := csrNum a x
    if i.p.unit = 17 then .next (s.trap 0x20 0x08)
    else if i.p.unit = 16 then
      match s.csrImage i.p.team n v with
      | some s => .next (s.advance i)
      | none => .next (s.trap 0x20 0x08)
    else
      match (s.my i).csrWrite n v with
      | some g => .next ((s.upd i fun _ => g).advance i)
      | none => .next (s.trap 0x20 0x08)

/-- TRET (R393): what the handler has stored is performed before the image is read. -/
def execTret (s : State) : Out :=
  issue (sigOf .tret) 0 s fun i s =>
    if s.idle i.p.team i.p.unit then .next (s.returnFromTrap i.p.team)
    else .next (s.setPark i.p (some (.counters 0 0 0 0 0 false)))

/-- PRIO (R391); in the handler slot it traps (R394). -/
def execPrio (x : BitVec 4) (s : State) : Out :=
  issue (sigOf (.prio x)) 0 s fun i s =>
    if i.p.unit = 16 then .next (s.trap 0x20 0x08)
    else .next ((s.upd i fun g => { g with prio := x }).advance i)

/-- HINT (R392): SPIN and QWAIT hold the fragment or the pilot back; every other use has no effect. -/
def execHint (x : BitVec 4) (s : State) : Out :=
  issue (sigOf (.hint x)) 0 s fun i s =>
    let s := s.advance i
    if x = 1 && !i.inRun then .next (s.setPark i.p (some (.spin (s.clk + 17) false)))
    else if x = 2 && i.p.unit = 17 then .next (s.setPark i.p (some (.spin (s.clk + 1025) true)))
    else .next s

end Sys2Proof.Machine
end

