-- ==== Sys2Proof/Machine/Uniform.lean ====
section
/-!
DEFINITION. Uniform instructions (R363-R366): one 64-bit value per fragment, s registers in lane code and p registers in
pilot code. `sld` and `sst` stand with the memory instructions.
-/

namespace Sys2Proof.Machine

/-- A uniform instruction writes register d with `f` of the register context (R363, R365). -/
def uniOp (g : Sig) (d : BitVec 8) (f : Grp → U64) (s : State) : Out :=
  issue g 0 s fun i s => .next ((s.upd i fun x => x.sput d.toNat (f x)).advance i)

/-- A form with two source registers. -/
def uni3 (g : Sig) (d a b : BitVec 8) (f : U64 → U64 → U64) (s : State) : Out :=
  uniOp g d (fun x => f (x.sget a.toNat) (x.sget b.toNat)) s

/-- A form with an immediate (R323). -/
def uniI (g : Sig) (d a : BitVec 8) (imm : Imm) (signed : Bool) (f : U64 → U64 → U64) (s : State) : Out :=
  uniOp g d (fun x => f (x.sget a.toNat) (Imm.uniform imm signed)) s

/-- A two-address form: x is s[d], y is s[a]. -/
def uni2 (g : Sig) (d a : BitVec 8) (f : U64 → U64 → U64) (s : State) : Out :=
  uniOp g d (fun x => f (x.sget d.toNat) (x.sget a.toNat)) s

/-- Shifts by y mod 64 (R365). -/
def uniShl (x y : U64) : U64 := x <<< (y.toNat % 64)
def uniShr (x y : U64) : U64 := x >>> (y.toNat % 64)
def uniSra (x y : U64) : U64 := x.sshiftRight (y.toNat % 64)
/-- The high half of a signed product. -/
def uniMulh (x y : U64) : U64 := BitVec.ofInt 64 (x.toInt * y.toInt / 2 ^ 64)

/-- SADD (R365). -/
def execSadd (p : Pfx) (d a b : BitVec 8) (s : State) : Out := uni3 (sigOf (.sadd p d a b)) d a b (· + ·) s

/-- SSUB (R365). -/
def execSsub (p : Pfx) (d a b : BitVec 8) (s : State) : Out := uni3 (sigOf (.ssub p d a b)) d a b (· - ·) s

/-- SMUL (R365). -/
def execSmul (p : Pfx) (d a b : BitVec 8) (s : State) : Out := uni3 (sigOf (.smul p d a b)) d a b (· * ·) s

/-- SMULH (R365). -/
def execSmulh (p : Pfx) (d a b : BitVec 8) (s : State) : Out := uni3 (sigOf (.smulh p d a b)) d a b uniMulh s

/-- SAND (R365). -/
def execSand (p : Pfx) (d a b : BitVec 8) (s : State) : Out := uni3 (sigOf (.sand p d a b)) d a b (· &&& ·) s

/-- SOR (R365). -/
def execSor (p : Pfx) (d a b : BitVec 8) (s : State) : Out := uni3 (sigOf (.sor p d a b)) d a b (· ||| ·) s

/-- SXOR (R365). -/
def execSxor (p : Pfx) (d a b : BitVec 8) (s : State) : Out := uni3 (sigOf (.sxor p d a b)) d a b (· ^^^ ·) s

/-- SSHL (R365). -/
def execSshl (p : Pfx) (d a b : BitVec 8) (s : State) : Out := uni3 (sigOf (.sshl p d a b)) d a b uniShl s

/-- SLI (R366). -/
def execSli (p : Pfx) (d : BitVec 8) (imm : Imm) (s : State) : Out :=
  uniOp (sigOf (.sli p d imm)) d (fun _ => Imm.uniform imm true) s

/-- SLUI (R366): the high word; the low word stays. -/
def execSlui (p : Pfx) (d : BitVec 8) (imm : Imm) (s : State) : Out :=
  uniOp (sigOf (.slui p d imm)) d
    (fun x => (Imm.uniform imm true).extractLsb' 0 32 ++ (x.sget d.toNat).extractLsb' 0 32) s

/-- SADD_IMM (R365). -/
def execSaddImm (p : Pfx) (d a : BitVec 8) (imm : Imm) (s : State) : Out :=
  uniI (sigOf (.saddImm p d a imm)) d a imm true (· + ·) s

/-- SAND_IMM (R365). -/
def execSandImm (p : Pfx) (d a : BitVec 8) (imm : Imm) (s : State) : Out :=
  uniI (sigOf (.sandImm p d a imm)) d a imm true (· &&& ·) s

/-- SSHL_IMM (R365). -/
def execSshlImm (p : Pfx) (d a : BitVec 8) (imm : Imm) (s : State) : Out :=
  uniI (sigOf (.sshlImm p d a imm)) d a imm false uniShl s

/-- SSHR_IMM (R365). -/
def execSshrImm (p : Pfx) (d a : BitVec 8) (imm : Imm) (s : State) : Out :=
  uniI (sigOf (.sshrImm p d a imm)) d a imm false uniShr s

/-- SMOV (R365). -/
def execSmov (d a : BitVec 8) (s : State) : Out := uni2 (sigOf (.smov d a)) d a (fun _ y => y) s

/-- SSHR (R365). -/
def execSshr (d a : BitVec 8) (s : State) : Out := uni2 (sigOf (.sshr d a)) d a uniShr s

/-- SSRA (R365). -/
def execSsra (d a : BitVec 8) (s : State) : Out := uni2 (sigOf (.ssra d a)) d a uniSra s

/-- SMIN (R365). -/
def execSmin (d a : BitVec 8) (s : State) : Out :=
  uni2 (sigOf (.smin d a)) d a (fun x y => if y.slt x then y else x) s

/-- SMAX (R365). -/
def execSmax (d a : BitVec 8) (s : State) : Out :=
  uni2 (sigOf (.smax d a)) d a (fun x y => if x.slt y then y else x) s

/-- SMINU (R365). -/
def execSminu (d a : BitVec 8) (s : State) : Out :=
  uni2 (sigOf (.sminu d a)) d a (fun x y => if y.ult x then y else x) s

/-- SMAXU (R365). -/
def execSmaxu (d a : BitVec 8) (s : State) : Out :=
  uni2 (sigOf (.smaxu d a)) d a (fun x y => if x.ult y then y else x) s

/-- SCMP (R365). -/
def execScmp (d a : BitVec 8) (x : BitVec 4) (s : State) : Out :=
  uni2 (sigOf (.scmp d a x)) d a (fun y z => if condInt x.toNat y z then 1 else 0) s

/-- SSEL (R365). -/
def execSsel (d a : BitVec 8) (x : BitVec 4) (s : State) : Out :=
  uniOp (sigOf (.ssel d a x)) d (fun g => if g.sget x.toNat != 0 then g.sget a.toNat else g.sget d.toNat) s

end Sys2Proof.Machine
end

