-- ==== Sys2Proof/Machine/Dispatch.lean ====
section
/-!
DEFINITION. One arm per row of the step table: each calls the one meaning of its row.
-/

namespace Sys2Proof.Machine

def exec (i : Instr) (s : State) : Host.Outcome State Fault Refusal :=
  match i with
  | .add16 p vd vb => Sys2Proof.Machine.execAdd16 p vd vb s
  | .addImm16 p vd vb => Sys2Proof.Machine.execAddImm16 p vd vb s
  | .sub16 p vd vb => Sys2Proof.Machine.execSub16 p vd vb s
  | .mul16 p vd vb => Sys2Proof.Machine.execMul16 p vd vb s
  | .and16 p vd vb => Sys2Proof.Machine.execAnd16 p vd vb s
  | .or16 p vd vb => Sys2Proof.Machine.execOr16 p vd vb s
  | .xor16 p vd vb => Sys2Proof.Machine.execXor16 p vd vb s
  | .shl16 p vd vb => Sys2Proof.Machine.execShl16 p vd vb s
  | .shr16 p vd vb => Sys2Proof.Machine.execShr16 p vd vb s
  | .sra16 p vd vb => Sys2Proof.Machine.execSra16 p vd vb s
  | .min16 p vd vb => Sys2Proof.Machine.execMin16 p vd vb s
  | .max16 p vd vb => Sys2Proof.Machine.execMax16 p vd vb s
  | .minu16 p vd vb => Sys2Proof.Machine.execMinu16 p vd vb s
  | .maxu16 p vd vb => Sys2Proof.Machine.execMaxu16 p vd vb s
  | .fadd16 p vd vb => Sys2Proof.Machine.execFadd16 p vd vb s
  | .fmul16 p vd vb => Sys2Proof.Machine.execFmul16 p vd vb s
  | .add p d a b u => Sys2Proof.Machine.execAdd p d a b u s
  | .sub p d a b u => Sys2Proof.Machine.execSub p d a b u s
  | .and p d a b u => Sys2Proof.Machine.execAnd p d a b u s
  | .or p d a b u => Sys2Proof.Machine.execOr p d a b u s
  | .xor p d a b u => Sys2Proof.Machine.execXor p d a b u s
  | .shl p d a b u => Sys2Proof.Machine.execShl p d a b u s
  | .shr p d a b u => Sys2Proof.Machine.execShr p d a b u s
  | .sra p d a b u => Sys2Proof.Machine.execSra p d a b u s
  | .mul p d a b u => Sys2Proof.Machine.execMul p d a b u s
  | .mad p d a b u => Sys2Proof.Machine.execMad p d a b u s
  | .mulh p d a b u => Sys2Proof.Machine.execMulh p d a b u s
  | .mulhu p d a b u => Sys2Proof.Machine.execMulhu p d a b u s
  | .min p d a b u => Sys2Proof.Machine.execMin p d a b u s
  | .minu p d a b u => Sys2Proof.Machine.execMinu p d a b u s
  | .max p d a b u => Sys2Proof.Machine.execMax p d a b u s
  | .maxu p d a b u => Sys2Proof.Machine.execMaxu p d a b u s
  | .bfx p d a b u => Sys2Proof.Machine.execBfx p d a b u s
  | .bfi p d a b u => Sys2Proof.Machine.execBfi p d a b u s
  | .cmp p c m a b u => Sys2Proof.Machine.execCmp p c m a b u s
  | .fcmp p c m a b u => Sys2Proof.Machine.execFcmp p c m a b u s
  | .fadd p d a b u => Sys2Proof.Machine.execFadd p d a b u s
  | .fsub p d a b u => Sys2Proof.Machine.execFsub p d a b u s
  | .fmul p d a b u => Sys2Proof.Machine.execFmul p d a b u s
  | .ffma p d a b u => Sys2Proof.Machine.execFfma p d a b u s
  | .fmin p d a b u => Sys2Proof.Machine.execFmin p d a b u s
  | .fmax p d a b u => Sys2Proof.Machine.execFmax p d a b u s
  | .addImm p d a imm => Sys2Proof.Machine.execAddImm p d a imm s
  | .mulImm p d a imm => Sys2Proof.Machine.execMulImm p d a imm s
  | .andImm p d a imm => Sys2Proof.Machine.execAndImm p d a imm s
  | .orImm p d a imm => Sys2Proof.Machine.execOrImm p d a imm s
  | .xorImm p d a imm => Sys2Proof.Machine.execXorImm p d a imm s
  | .shlImm p d a imm => Sys2Proof.Machine.execShlImm p d a imm s
  | .shrImm p d a imm => Sys2Proof.Machine.execShrImm p d a imm s
  | .sraImm p d a imm => Sys2Proof.Machine.execSraImm p d a imm s
  | .cmpImm p c m a imm => Sys2Proof.Machine.execCmpImm p c m a imm s
  | .rcp p d a => Sys2Proof.Machine.execRcp p d a s
  | .rsq p d a => Sys2Proof.Machine.execRsq p d a s
  | .sqrt p d a => Sys2Proof.Machine.execSqrt p d a s
  | .exp2 p d a => Sys2Proof.Machine.execExp2 p d a s
  | .log2 p d a => Sys2Proof.Machine.execLog2 p d a s
  | .sin p d a => Sys2Proof.Machine.execSin p d a s
  | .cos p d a => Sys2Proof.Machine.execCos p d a s
  | .tanh p d a => Sys2Proof.Machine.execTanh p d a s
  | .fabs p d a => Sys2Proof.Machine.execFabs p d a s
  | .fneg p d a => Sys2Proof.Machine.execFneg p d a s
  | .fclass p d a => Sys2Proof.Machine.execFclass p d a s
  | .frnd p d a => Sys2Proof.Machine.execFrnd p d a s
  | .fcvt p d a x => Sys2Proof.Machine.execFcvt p d a x s
  | .not p d a => Sys2Proof.Machine.execNot p d a s
  | .abs p d a => Sys2Proof.Machine.execAbs p d a s
  | .neg p d a => Sys2Proof.Machine.execNeg p d a s
  | .pop p d a => Sys2Proof.Machine.execPop p d a s
  | .clz p d a => Sys2Proof.Machine.execClz p d a s
  | .sel p d a x => Sys2Proof.Machine.execSel p d a x s
  | .mand p d a k => Sys2Proof.Machine.execMand p d a k s
  | .mor p d a k => Sys2Proof.Machine.execMor p d a k s
  | .mxor p d a k => Sys2Proof.Machine.execMxor p d a k s
  | .mnot p d a => Sys2Proof.Machine.execMnot p d a s
  | .mmov p d a => Sys2Proof.Machine.execMmov p d a s
  | .mpop p d a => Sys2Proof.Machine.execMpop p d a s
  | .mfirst p d a => Sys2Proof.Machine.execMfirst p d a s
  | .mset p d a => Sys2Proof.Machine.execMset p d a s
  | .shfUp p d a x => Sys2Proof.Machine.execShfUp p d a x s
  | .shfDn p d a x => Sys2Proof.Machine.execShfDn p d a x s
  | .shfXor p d a x => Sys2Proof.Machine.execShfXor p d a x s
  | .shfRot p d a x => Sys2Proof.Machine.execShfRot p d a x s
  | .shfIdx p d a => Sys2Proof.Machine.execShfIdx p d a s
  | .sct p d a => Sys2Proof.Machine.execSct p d a s
  | .bcst p d a => Sys2Proof.Machine.execBcst p d a s
  | .lred p d a x => Sys2Proof.Machine.execLred p d a x s
  | .scan p d a x => Sys2Proof.Machine.execScan p d a x s
  | .scanEx p d a x => Sys2Proof.Machine.execScanEx p d a x s
  | .tbl p d a n fill => Sys2Proof.Machine.execTbl p d a n fill s
  | .vote p d a x => Sys2Proof.Machine.execVote p d a x s
  | .lid p d => Sys2Proof.Machine.execLid p d s
  | .ld p m => Sys2Proof.Machine.execLd p m s
  | .ldc p m => Sys2Proof.Machine.execLdc p m s
  | .st p m => Sys2Proof.Machine.execSt p m s
  | .stc p m => Sys2Proof.Machine.execStc p m s
  | .lds p m => Sys2Proof.Machine.execLds p m s
  | .prf p m => Sys2Proof.Machine.execPrf p m s
  | .sts p m => Sys2Proof.Machine.execSts p m s
  | .inv p m => Sys2Proof.Machine.execInv p m s
  | .sadd p d a b => Sys2Proof.Machine.execSadd p d a b s
  | .ssub p d a b => Sys2Proof.Machine.execSsub p d a b s
  | .smul p d a b => Sys2Proof.Machine.execSmul p d a b s
  | .smulh p d a b => Sys2Proof.Machine.execSmulh p d a b s
  | .sand p d a b => Sys2Proof.Machine.execSand p d a b s
  | .sor p d a b => Sys2Proof.Machine.execSor p d a b s
  | .sxor p d a b => Sys2Proof.Machine.execSxor p d a b s
  | .sshl p d a b => Sys2Proof.Machine.execSshl p d a b s
  | .sld p d a imm => Sys2Proof.Machine.execSld p d a imm s
  | .sst p d a imm => Sys2Proof.Machine.execSst p d a imm s
  | .sli p d imm => Sys2Proof.Machine.execSli p d imm s
  | .slui p d imm => Sys2Proof.Machine.execSlui p d imm s
  | .saddImm p d a imm => Sys2Proof.Machine.execSaddImm p d a imm s
  | .sandImm p d a imm => Sys2Proof.Machine.execSandImm p d a imm s
  | .sshlImm p d a imm => Sys2Proof.Machine.execSshlImm p d a imm s
  | .sshrImm p d a imm => Sys2Proof.Machine.execSshrImm p d a imm s
  | .smov d a => Sys2Proof.Machine.execSmov d a s
  | .sshr d a => Sys2Proof.Machine.execSshr d a s
  | .ssra d a => Sys2Proof.Machine.execSsra d a s
  | .smin d a => Sys2Proof.Machine.execSmin d a s
  | .smax d a => Sys2Proof.Machine.execSmax d a s
  | .sminu d a => Sys2Proof.Machine.execSminu d a s
  | .smaxu d a => Sys2Proof.Machine.execSmaxu d a s
  | .scmp d a x => Sys2Proof.Machine.execScmp d a x s
  | .ssel d a x => Sys2Proof.Machine.execSsel d a x s
  | .br p off => Sys2Proof.Machine.execBr p off s
  | .call p l off => Sys2Proof.Machine.execCall p l off s
  | .rcv p off => Sys2Proof.Machine.execRcv p off s
  | .bl p m sense off => Sys2Proof.Machine.execBl p m sense off s
  | .bc p c off => Sys2Proof.Machine.execBc p c off s
  | .nop => Sys2Proof.Machine.execNop s
  | .exit => Sys2Proof.Machine.execExit s
  | .yield => Sys2Proof.Machine.execYield s
  | .rgn => Sys2Proof.Machine.execRgn s
  | .run => Sys2Proof.Machine.execRun s
  | .rend n t0 t1 => Sys2Proof.Machine.execRend n t0 t1 s
  | .take x => Sys2Proof.Machine.execTake x s
  | .jmp a => Sys2Proof.Machine.execJmp a s
  | .ret a => Sys2Proof.Machine.execRet a s
  | .brk a x => Sys2Proof.Machine.execBrk a x s
  | .acq p a => Sys2Proof.Machine.execAcq p a s
  | .rel p a => Sys2Proof.Machine.execRel p a s
  | .fence x => Sys2Proof.Machine.execFence x s
  | .bar => Sys2Proof.Machine.execBar s
  | .cbar => Sys2Proof.Machine.execCbar s
  | .tlw a x => Sys2Proof.Machine.execTlw a x s
  | .tlr d x => Sys2Proof.Machine.execTlr d x s
  | .wait l st c t r => Sys2Proof.Machine.execWait l st c t r s
  | .rop p d a id ng => Sys2Proof.Machine.execRop p d a id ng s
  | .ropr p d a id ng => Sys2Proof.Machine.execRopr p d a id ng s
  | .ropw p d a id ng => Sys2Proof.Machine.execRopw p d a id ng s
  | .rdef d a => Sys2Proof.Machine.execRdef d a s
  | .rdel d => Sys2Proof.Machine.execRdel d s
  | .rstat d a => Sys2Proof.Machine.execRstat d a s
  | .rstatStat d => Sys2Proof.Machine.execRstatStat d s
  | .board d a => Sys2Proof.Machine.execBoard d a s
  | .alight d a => Sys2Proof.Machine.execAlight d a s
  | .catch d a => Sys2Proof.Machine.execCatch d a s
  | .rwr d a x => Sys2Proof.Machine.execRwr d a x s
  | .rwrR d a x => Sys2Proof.Machine.execRwrR d a x s
  | .mstone d => Sys2Proof.Machine.execMstone d s
  | .mld p front r f o => Sys2Proof.Machine.execMld p front r f o s
  | .mswp p => Sys2Proof.Machine.execMswp p s
  | .mmul p t z r f o => Sys2Proof.Machine.execMmul p t z r f o s
  | .mzero p t => Sys2Proof.Machine.execMzero p t s
  | .mdrain p t clr code r o => Sys2Proof.Machine.execMdrain p t clr code r o s
  | .mrsum p t r f o => Sys2Proof.Machine.execMrsum p t r f o s
  | .msave p obj t a => Sys2Proof.Machine.execMsave p obj t a s
  | .mrest p obj t a => Sys2Proof.Machine.execMrest p obj t a s
  | .mstat p d => Sys2Proof.Machine.execMstat p d s
  | .skd p d a w sp => Sys2Proof.Machine.execSkd p d a w sp s
  | .skh p d a w sp => Sys2Proof.Machine.execSkh p d a w sp s
  | .skq p d a sp => Sys2Proof.Machine.execSkq p d a sp s
  | .skm p d a kind sp => Sys2Proof.Machine.execSkm p d a kind sp s
  | .skqv p d a sp => Sys2Proof.Machine.execSkqv p d a sp s
  | .skest p d a sp => Sys2Proof.Machine.execSkest p d a sp s
  | .sktop p d a sp => Sys2Proof.Machine.execSktop p d a sp s
  | .sksd p d a kind sp => Sys2Proof.Machine.execSksd p d a kind sp s
  | .xadd p d a w sp => Sys2Proof.Machine.execXadd p d a w sp s
  | .xrnd p d a w sp => Sys2Proof.Machine.execXrnd p d a w sp s
  | .xclr p a v sp => Sys2Proof.Machine.execXclr p a v sp s
  | .xcp p d a => Sys2Proof.Machine.execXcp p d a s
  | .xcpFill p d a => Sys2Proof.Machine.execXcpFill p d a s
  | .bat p d => Sys2Proof.Machine.execBat p d s
  | .wbat a => Sys2Proof.Machine.execWbat a s
  | .push d a x => Sys2Proof.Machine.execPush d a x s
  | .dld p d a k => Sys2Proof.Machine.execDld p d a k s
  | .fmt p d a k => Sys2Proof.Machine.execFmt p d a k s
  | .emit a => Sys2Proof.Machine.execEmit a s
  | .emitx d a x => Sys2Proof.Machine.execEmitx d a x s
  | .ecl a q => Sys2Proof.Machine.execEcl a q s
  | .ecln d a q => Sys2Proof.Machine.execEcln d a q s
  | .eqfree d q => Sys2Proof.Machine.execEqfree d q s
  | .csrr d a x => Sys2Proof.Machine.execCsrr d a x s
  | .csrw d a x => Sys2Proof.Machine.execCsrw d a x s
  | .tret => Sys2Proof.Machine.execTret s
  | .prio x => Sys2Proof.Machine.execPrio x s
  | .hint x => Sys2Proof.Machine.execHint x s
  | .coldReset b => Sys2Proof.Machine.execColdReset b s
  | .warmReset b => Sys2Proof.Machine.execWarmReset b s
  | .functionLevelReset fn => Sys2Proof.Machine.execFunctionLevelReset fn s
  | .thermalTripHold => Sys2Proof.Machine.execThermalTripHold s
  | .thermtrip below90 b => Sys2Proof.Machine.execThermtrip below90 b s
  | .clockLevelStep avgW maxTemp windowCool windowHot => Sys2Proof.Machine.execClockLevelStep avgW maxTemp windowCool windowHot s
  | .powerWindowEnd means hot => Sys2Proof.Machine.execPowerWindowEnd means hot s
  | .bandwidthWindow => Sys2Proof.Machine.execBandwidthWindow s
  | .pcieConfigRequest => Sys2Proof.Machine.execPcieConfigRequest s
  | .registerWrite fn off val => Sys2Proof.Machine.execRegisterWrite fn off val s
  | .bar4Read fn off n => Sys2Proof.Machine.execBar4Read fn off n s
  | .bar4Write fn off data => Sys2Proof.Machine.execBar4Write fn off data s
  | .queueRegisterWrite fn q off val => Sys2Proof.Machine.execQueueRegisterWrite fn q off val s
  | .doorbell fn q off v => Sys2Proof.Machine.execDoorbell fn q off v s
  | .chpwrWrite val => Sys2Proof.Machine.execChpwrWrite val s
  | .linkEnable n en => Sys2Proof.Machine.execLinkEnable n en s
  | .ctxCreate fn => Sys2Proof.Machine.execCtxCreate fn s
  | .ctxCreateResume fn => Sys2Proof.Machine.execCtxCreateResume fn s
  | .ctxRetire fn => Sys2Proof.Machine.execCtxRetire fn s
  | .queueBind fn => Sys2Proof.Machine.execQueueBind fn s
  | .vfConfig fn => Sys2Proof.Machine.execVfConfig fn s
  | .attest fn => Sys2Proof.Machine.execAttest fn s
  | .certRead fn => Sys2Proof.Machine.execCertRead fn s
  | .preempt fn => Sys2Proof.Machine.execPreempt fn s
  | .resume fn => Sys2Proof.Machine.execResume fn s
  | .ringEvict fn => Sys2Proof.Machine.execRingEvict fn s
  | .drain tr => Sys2Proof.Machine.execDrain tr s
  | .confirm tr => Sys2Proof.Machine.execConfirm tr s
  | .migrate tr => Sys2Proof.Machine.execMigrate tr s
  | .exportsRequest tr => Sys2Proof.Machine.execExportsRequest tr s
  | .translationRequestDone tr => Sys2Proof.Machine.execTranslationRequestDone tr s
  | .linkTraining n farId farAccepts => Sys2Proof.Machine.execLinkTraining n farId farAccepts s
  | .linkFailure n => Sys2Proof.Machine.execLinkFailure n s
  | .frameDiscard n => Sys2Proof.Machine.execFrameDiscard n s
  | .replayRequest n fcnt => Sys2Proof.Machine.execReplayRequest n fcnt s
  | .rekey n => Sys2Proof.Machine.execRekey n s
  | .heartbeatTimer n => Sys2Proof.Machine.execHeartbeatTimer n s
  | .readRequest m => Sys2Proof.Machine.execReadRequest m s
  | .writeRequest m => Sys2Proof.Machine.execWriteRequest m s
  | .readResponse m => Sys2Proof.Machine.execReadResponse m s
  | .writeAcknowledgement m => Sys2Proof.Machine.execWriteAcknowledgement m s
  | .remoteOpNoReturn m => Sys2Proof.Machine.execRemoteOpNoReturn m s
  | .remoteOpWithReturn m => Sys2Proof.Machine.execRemoteOpWithReturn m s
  | .remoteOpResponse m => Sys2Proof.Machine.execRemoteOpResponse m s
  | .collectiveChunk m => Sys2Proof.Machine.execCollectiveChunk m s
  | .collectiveCredit m => Sys2Proof.Machine.execCollectiveCredit m s
  | .translationDrain m => Sys2Proof.Machine.execTranslationDrain m s
  | .translationConfirm m => Sys2Proof.Machine.execTranslationConfirm m s
  | .peerConfirmComplete pc => Sys2Proof.Machine.execPeerConfirmComplete pc s
  | .translationAcknowledgement m => Sys2Proof.Machine.execTranslationAcknowledgement m s
  | .resetNotice m => Sys2Proof.Machine.execResetNotice m s
  | .powerDownNotice m => Sys2Proof.Machine.execPowerDownNotice m s
  | .heartbeat m => Sys2Proof.Machine.execHeartbeat m s
  | .peerLossTimeout peer => Sys2Proof.Machine.execPeerLossTimeout peer s
  | .launchRecord fn q => Sys2Proof.Machine.execLaunchRecord fn q s
  | .takeLease l => Sys2Proof.Machine.execTakeLease l s
  | .slotAssignment l => Sys2Proof.Machine.execSlotAssignment l s
  | .clusterPlacement l => Sys2Proof.Machine.execClusterPlacement l s
  | .oldestClusterHold => Sys2Proof.Machine.execOldestClusterHold s
  | .poolZeroing core => Sys2Proof.Machine.execPoolZeroing core s
  | .dispatch team => Sys2Proof.Machine.execDispatch team s
  | .parallelPreemption l => Sys2Proof.Machine.execParallelPreemption l s
  | .cooperativeSave team g => Sys2Proof.Machine.execCooperativeSave team g s
  | .forcedSave team g => Sys2Proof.Machine.execForcedSave team g s
  | .gridCompletion l => Sys2Proof.Machine.execGridCompletion l s
  | .sealRecord sl => Sys2Proof.Machine.execSealRecord sl s
  | .watchdog team g => Sys2Proof.Machine.execWatchdog team g s
  | .waitingEntryActivation team g e => Sys2Proof.Machine.execWaitingEntryActivation team g e s
  | .serialStep team g e => Sys2Proof.Machine.execSerialStep team g e s
  | .homeAccess op => Sys2Proof.Machine.execHomeAccess op s
  | .mergingFillReturn op => Sys2Proof.Machine.execMergingFillReturn op s
  | .loadCompletion op => Sys2Proof.Machine.execLoadCompletion op s
  | .storePerformed op => Sys2Proof.Machine.execStorePerformed op s
  | .tileOpCompletion core => Sys2Proof.Machine.execTileOpCompletion core s
  | .migrating team g => Sys2Proof.Machine.execMigrating team g s
  | .replay team g => Sys2Proof.Machine.execReplay team g s
  | .softError team g => Sys2Proof.Machine.execSoftError team g s
  | .memUncorrectable l => Sys2Proof.Machine.execMemUncorrectable l s
  | .taskEnd l why => Sys2Proof.Machine.execTaskEnd l why s
  | .remoteOpApply op k resid => Sys2Proof.Machine.execRemoteOpApply op k resid s
  | .ropStatusReturn op k => Sys2Proof.Machine.execRopStatusReturn op k s
  | .combiningAgeOut e => Sys2Proof.Machine.execCombiningAgeOut e s
  | .lockLapse pch => Sys2Proof.Machine.execLockLapse pch s
  | .cuuWatchdog pch => Sys2Proof.Machine.execCuuWatchdog pch s
  | .idleTimer pch => Sys2Proof.Machine.execIdleTimer pch s
  | .channelPowerEntry pch => Sys2Proof.Machine.execChannelPowerEntry pch s
  | .channelWake pch => Sys2Proof.Machine.execChannelWake pch s
  | .slotPass core => Sys2Proof.Machine.execSlotPass core s
  | .junctionPass slot => Sys2Proof.Machine.execJunctionPass slot s
  | .notag core tid => Sys2Proof.Machine.execNotag core tid s
  | .copy eng => Sys2Proof.Machine.execCopy eng s
  | .fill eng => Sys2Proof.Machine.execFill eng s
  | .chunkEnd eng => Sys2Proof.Machine.execChunkEnd eng s
  | .gload eng => Sys2Proof.Machine.execGload eng s
  | .grun eng => Sys2Proof.Machine.execGrun eng s
  | .nodeCompletion eng node => Sys2Proof.Machine.execNodeCompletion eng node s
  | .seal eng => Sys2Proof.Machine.execSeal eng s
  | .acquireGrant op => Sys2Proof.Machine.execAcquireGrant op s
  | .releaseAcknowledged op => Sys2Proof.Machine.execReleaseAcknowledged op s
  | .barrierCompletion team cluster => Sys2Proof.Machine.execBarrierCompletion team cluster s
  | .timelineReached team g e => Sys2Proof.Machine.execTimelineReached team g e s
  | .batchComplete team g e => Sys2Proof.Machine.execBatchComplete team g e s
  | .counterWaitEnd team g e => Sys2Proof.Machine.execCounterWaitEnd team g e s
  | .takeWake team g e => Sys2Proof.Machine.execTakeWake team g e s
  | .eclStallEnd team => Sys2Proof.Machine.execEclStallEnd team s
  | .unassignedEncoding why => Sys2Proof.Machine.execUnassignedEncoding why s
  | .forcedSaveReplay team g => Sys2Proof.Machine.execForcedSaveReplay team g s
  | .rdefCompletion op => Sys2Proof.Machine.execRdefCompletion op s
  | .retirementSweepEnd ctx => Sys2Proof.Machine.execRetirementSweepEnd ctx s
  | .recordReadReturn op => Sys2Proof.Machine.execRecordReadReturn op s

end Sys2Proof.Machine
end

