-- ==== Sys2Proof/Machine/Events.lean ====
section
/-!
DEFINITION. The meaning of an event that stands ready: the one that `exec` gives the row of the same name.
-/

namespace Sys2Proof.Machine

/-- Run an event. -/
def runEvent (e : Ev) (s : State) : Out :=
  match e with
  | .coldReset b => Sys2Proof.Machine.execColdReset b s
  | .warmReset b => Sys2Proof.Machine.execWarmReset b s
  | .functionLevelReset fn => Sys2Proof.Machine.execFunctionLevelReset fn s
  | .thermalTripHold => Sys2Proof.Machine.execThermalTripHold s
  | .thermtrip below90 b => Sys2Proof.Machine.execThermtrip below90 b s
  | .clockLevelStep avgW maxTemp windowCool windowHot => Sys2Proof.Machine.execClockLevelStep avgW maxTemp windowCool windowHot s
  | .powerWindowEnd means hot => Sys2Proof.Machine.execPowerWindowEnd means hot s
  | .bandwidthWindow => Sys2Proof.Machine.execBandwidthWindow s
  | .pcieConfigRequest => Sys2Proof.Machine.execPcieConfigRequest s
  | .registerWrite fn off val => Sys2Proof.Machine.execRegisterWrite fn off val s
  | .bar4Read fn off n => Sys2Proof.Machine.execBar4Read fn off n s
  | .bar4Write fn off data => Sys2Proof.Machine.execBar4Write fn off data s
  | .queueRegisterWrite fn q off val => Sys2Proof.Machine.execQueueRegisterWrite fn q off val s
  | .doorbell fn q off v => Sys2Proof.Machine.execDoorbell fn q off v s
  | .chpwrWrite val => Sys2Proof.Machine.execChpwrWrite val s
  | .linkEnable n en => Sys2Proof.Machine.execLinkEnable n en s
  | .ctxCreate fn => Sys2Proof.Machine.execCtxCreate fn s
  | .ctxCreateResume fn => Sys2Proof.Machine.execCtxCreateResume fn s
  | .ctxRetire fn => Sys2Proof.Machine.execCtxRetire fn s
  | .queueBind fn => Sys2Proof.Machine.execQueueBind fn s
  | .vfConfig fn => Sys2Proof.Machine.execVfConfig fn s
  | .attest fn => Sys2Proof.Machine.execAttest fn s
  | .certRead fn => Sys2Proof.Machine.execCertRead fn s
  | .preempt fn => Sys2Proof.Machine.execPreempt fn s
  | .resume fn => Sys2Proof.Machine.execResume fn s
  | .ringEvict fn => Sys2Proof.Machine.execRingEvict fn s
  | .drain tr => Sys2Proof.Machine.execDrain tr s
  | .confirm tr => Sys2Proof.Machine.execConfirm tr s
  | .migrate tr => Sys2Proof.Machine.execMigrate tr s
  | .exportsRequest tr => Sys2Proof.Machine.execExportsRequest tr s
  | .translationRequestDone tr => Sys2Proof.Machine.execTranslationRequestDone tr s
  | .linkTraining n farId farAccepts => Sys2Proof.Machine.execLinkTraining n farId farAccepts s
  | .linkFailure n => Sys2Proof.Machine.execLinkFailure n s
  | .frameDiscard n => Sys2Proof.Machine.execFrameDiscard n s
  | .replayRequest n fcnt => Sys2Proof.Machine.execReplayRequest n fcnt s
  | .rekey n => Sys2Proof.Machine.execRekey n s
  | .heartbeatTimer n => Sys2Proof.Machine.execHeartbeatTimer n s
  | .readRequest m => Sys2Proof.Machine.execReadRequest m s
  | .writeRequest m => Sys2Proof.Machine.execWriteRequest m s
  | .readResponse m => Sys2Proof.Machine.execReadResponse m s
  | .writeAcknowledgement m => Sys2Proof.Machine.execWriteAcknowledgement m s
  | .remoteOpNoReturn m => Sys2Proof.Machine.execRemoteOpNoReturn m s
  | .remoteOpWithReturn m => Sys2Proof.Machine.execRemoteOpWithReturn m s
  | .remoteOpResponse m => Sys2Proof.Machine.execRemoteOpResponse m s
  | .collectiveChunk m => Sys2Proof.Machine.execCollectiveChunk m s
  | .collectiveCredit m => Sys2Proof.Machine.execCollectiveCredit m s
  | .translationDrain m => Sys2Proof.Machine.execTranslationDrain m s
  | .translationConfirm m => Sys2Proof.Machine.execTranslationConfirm m s
  | .peerConfirmComplete pc => Sys2Proof.Machine.execPeerConfirmComplete pc s
  | .translationAcknowledgement m => Sys2Proof.Machine.execTranslationAcknowledgement m s
  | .resetNotice m => Sys2Proof.Machine.execResetNotice m s
  | .powerDownNotice m => Sys2Proof.Machine.execPowerDownNotice m s
  | .heartbeat m => Sys2Proof.Machine.execHeartbeat m s
  | .peerLossTimeout peer => Sys2Proof.Machine.execPeerLossTimeout peer s
  | .launchRecord fn q => Sys2Proof.Machine.execLaunchRecord fn q s
  | .takeLease l => Sys2Proof.Machine.execTakeLease l s
  | .slotAssignment l => Sys2Proof.Machine.execSlotAssignment l s
  | .clusterPlacement l => Sys2Proof.Machine.execClusterPlacement l s
  | .oldestClusterHold => Sys2Proof.Machine.execOldestClusterHold s
  | .poolZeroing core => Sys2Proof.Machine.execPoolZeroing core s
  | .dispatch team => Sys2Proof.Machine.execDispatch team s
  | .parallelPreemption l => Sys2Proof.Machine.execParallelPreemption l s
  | .cooperativeSave team g => Sys2Proof.Machine.execCooperativeSave team g s
  | .forcedSave team g => Sys2Proof.Machine.execForcedSave team g s
  | .gridCompletion l => Sys2Proof.Machine.execGridCompletion l s
  | .sealRecord sl => Sys2Proof.Machine.execSealRecord sl s
  | .watchdog team g => Sys2Proof.Machine.execWatchdog team g s
  | .waitingEntryActivation team g e => Sys2Proof.Machine.execWaitingEntryActivation team g e s
  | .serialStep team g e => Sys2Proof.Machine.execSerialStep team g e s
  | .homeAccess op => Sys2Proof.Machine.execHomeAccess op s
  | .mergingFillReturn op => Sys2Proof.Machine.execMergingFillReturn op s
  | .loadCompletion op => Sys2Proof.Machine.execLoadCompletion op s
  | .storePerformed op => Sys2Proof.Machine.execStorePerformed op s
  | .tileOpCompletion core => Sys2Proof.Machine.execTileOpCompletion core s
  | .migrating team g => Sys2Proof.Machine.execMigrating team g s
  | .replay team g => Sys2Proof.Machine.execReplay team g s
  | .softError team g => Sys2Proof.Machine.execSoftError team g s
  | .memUncorrectable l => Sys2Proof.Machine.execMemUncorrectable l s
  | .taskEnd l why => Sys2Proof.Machine.execTaskEnd l why s
  | .remoteOpApply op k resid => Sys2Proof.Machine.execRemoteOpApply op k resid s
  | .ropStatusReturn op k => Sys2Proof.Machine.execRopStatusReturn op k s
  | .combiningAgeOut e => Sys2Proof.Machine.execCombiningAgeOut e s
  | .lockLapse pch => Sys2Proof.Machine.execLockLapse pch s
  | .cuuWatchdog pch => Sys2Proof.Machine.execCuuWatchdog pch s
  | .idleTimer pch => Sys2Proof.Machine.execIdleTimer pch s
  | .channelPowerEntry pch => Sys2Proof.Machine.execChannelPowerEntry pch s
  | .channelWake pch => Sys2Proof.Machine.execChannelWake pch s
  | .slotPass core => Sys2Proof.Machine.execSlotPass core s
  | .junctionPass slot => Sys2Proof.Machine.execJunctionPass slot s
  | .notag core tid => Sys2Proof.Machine.execNotag core tid s
  | .copy eng => Sys2Proof.Machine.execCopy eng s
  | .fill eng => Sys2Proof.Machine.execFill eng s
  | .chunkEnd eng => Sys2Proof.Machine.execChunkEnd eng s
  | .gload eng => Sys2Proof.Machine.execGload eng s
  | .grun eng => Sys2Proof.Machine.execGrun eng s
  | .nodeCompletion eng node => Sys2Proof.Machine.execNodeCompletion eng node s
  | .seal eng => Sys2Proof.Machine.execSeal eng s
  | .acquireGrant op => Sys2Proof.Machine.execAcquireGrant op s
  | .releaseAcknowledged op => Sys2Proof.Machine.execReleaseAcknowledged op s
  | .barrierCompletion team cluster => Sys2Proof.Machine.execBarrierCompletion team cluster s
  | .timelineReached team g e => Sys2Proof.Machine.execTimelineReached team g e s
  | .batchComplete team g e => Sys2Proof.Machine.execBatchComplete team g e s
  | .counterWaitEnd team g e => Sys2Proof.Machine.execCounterWaitEnd team g e s
  | .takeWake team g e => Sys2Proof.Machine.execTakeWake team g e s
  | .eclStallEnd team => Sys2Proof.Machine.execEclStallEnd team s
  | .unassignedEncoding why => Sys2Proof.Machine.execUnassignedEncoding why s
  | .forcedSaveReplay team g => Sys2Proof.Machine.execForcedSaveReplay team g s
  | .rdefCompletion op => Sys2Proof.Machine.execRdefCompletion op s
  | .retirementSweepEnd ctx => Sys2Proof.Machine.execRetirementSweepEnd ctx s
  | .recordReadReturn op => Sys2Proof.Machine.execRecordReadReturn op s

end Sys2Proof.Machine
end

