-- ==== Sys2Proof/Machine/Select.lean ====
section
/-!
DEFINITION. What comes next: reading the instruction at a party's PC (R128, R317, R380), readiness and issue
selection (R103-R107, R132), the events whose condition holds, and one step of the package. Steps that the
manual does not order come in a free order (`Config.freePick`).
-/

namespace Sys2Proof.Machine

/-! ### Reaching an instruction -/

/-- What stands at a party's PC. -/
inductive Reach where
  | instr (i : Instr) (next : U64) (words : Nat)
  | bad (why : BadWord)
  | stop (why : Tr)
  | atEnd    -- the body of an emitted run is at its end (R130)
  deriving DecidableEq, Repr

/-- The body words that an instruction of `len` halfwords takes in a run (R128); `rend` takes none. -/
def wordsOf (i : Instr) (len : Nat) : Nat :=
  match i with
  | .rend _ _ _ => 0
  | _ => ceilDiv len 2

/-- The halfwords of an emitted run's words from index `i`. -/
def RunRec.halves (r : RunRec) (i : Nat) : List (BitVec 16) :=
  (r.words.drop i).flatMap fun w => if w.1 then halves32 w.2 else [w.2.setWidth 16]

/-- What the decoder found, at address `pc`. -/
def Reach.of (pc : U64) (d : Decoded) (stop : Tr) : Reach :=
  match d with
  | .ok i len => .instr i (pc + BitVec.ofNat 64 (2 * len)) (wordsOf i len)
  | .bad why => .bad why
  | .truncated => .stop stop

/-- What a party reaches: the next body word of an emitted run, or the word at its PC. -/
def State.reach (s : State) (p : Party) : Reach :=
  let g := s.grp p.team p.unit
  let pc := (g.entry p.entry).pc
  let emitted : Option (Nat × RunRec) :=
    match g.run with
    | some r => r.emitted.map fun x => (r.idx, x)
    | none => none
  match emitted with
  | some (i, x) =>
    if x.words.length ≤ i then .atEnd else
    match decodeHalves (x.halves i) with
    | .ok j len => .instr j (pc + 4) (wordsOf j len)
    | .bad why => .bad why
    | .truncated => .bad .pfxBeforeRend
  | none =>
    let f := s.fetch p pc
    Reach.of pc (decode f.bytes) (f.stop.getD .miss)

/-- Issue what a party reaches. A fetch outside the lease, from a lost peer, or of a poisoned word ends the task (R76, R88, R204); a
draining page holds the party back (R83), and so do bytes that are still to be brought. -/
def State.issueParty (s : State) (p : Party) (port : Nat) : Out :=
  let pc := (s.entry p).pc
  let s := match s.launchOf p.team with
    | some l => s.warm l pc.toNat
    | none => s
  let at_ := fun next words =>
    { s.dropFetch p.team p.unit with cur := some { p := p, at_ := pc, next := next, words := words, port := port } }
  if !(at_ pc 0).issuing { p := p, at_ := pc, next := pc, words := 0, port := port } then .next s
  else if (s.grp p.team p.unit).rop.isSome then .next s else
  match s.reach p with
  | .instr i next words => exec i (at_ next words)
  | .bad why => Sys2Proof.Machine.execUnassignedEncoding why (at_ (pc + 4) 1)
  | .atEnd => .next s
  | .stop .lost => .next ((at_ pc 0).endBy 0x11 pc.toNat)
  | .stop (.drain _) => .next s
  | .stop .absent => .next s
  | .stop (.bad st) => .next ((at_ pc 0).endBy st pc.toNat)
  | .stop .double => .next ((at_ pc 0).endBy 0x13 pc.toNat)
  | .stop _ => .next ((at_ pc 0).endBy 0x10 pc.toNat)

/-! ### Bringing instruction bytes (R85, R155) -/

/-- The first of a party's instruction bytes that have to be brought, and where they are. -/
def State.fetchGap (s : State) (p : Party) : Nat → Nat → Option (Nat × Tgt)
  | 0, _ => none
  | n + 1, va =>
    match s.translateFor p.team p.unit va false with
    | .ok t =>
      (match (s.fetchPair p (s.ctxOf p.team) va t).stop with
       | none => s.fetchGap p n (va + 2)
       | some .absent => some (va, t)
       | some _ => none)
    | _ => none

/-- Ask a peer for the 32-byte sector of an address, on behalf of a party (R85). -/
def State.fetchAsk (s : State) (p : Party) (va peer addr : Nat) : State :=
  let tag := s.nextId
  let b : FetchBuf :=
    { team := p.team, unit := p.unit, entry := p.entry, at_ := va / 32 * 32, tag := tag, bytes := [], bad := 0 }
  let q : Pend :=
    { tag := tag, itag := s.freeTag p.team p.unit, team := p.team, unit := p.unit, entry := p.entry, cls := .none, act := .fetch,
      lanes := [], got := [], batch := none, org := Origin.none, bad := [] }
  ({ s with fetches := s.fetches ++ [b], pends := s.pends ++ [q] }.bump).addReq tag p.team p.unit (s.coreOf p.team) (s.ctxOf p.team)
    b.at_ 32 (.peer peer (addr - va % 32)) (.read [])

/-- A sector of an update-at-memory line has been read for a party's fetch. -/
def State.fetched (s : State) (p : Party) (va : Nat) (bs : List Byte) : State :=
  { s with fetches := s.fetches ++
      [{ team := p.team, unit := p.unit, entry := p.entry, at_ := va / 32 * 32, tag := 0, bytes := bs, bad := 0 }] }

/-- Instruction bytes are brought: a local line comes into its slice, with what is held on it merged first (R200), once no unit
holds it locked (R162) and it is its turn at the channel (R158, R160), which serves the sector of an update-at-memory line; those of
a peer are asked for. -/
def State.fetchStep (s : State) (p : Party) : State :=
  match s.fetchGap p 6 (s.entry p).pc.toNat with
  | none => s
  | some (va, .home d true k) =>
    let at_ := d - va % 32
    let who := Asker.fetch p.team p.unit p.entry
    let r := s.serveNow who (s.ctxOf p.team) (s.launchIdOf p.team) (.home at_ true k) 32 false
    if r.2 then (r.1.mergeHeld at_ 32).fetched p va (r.1.pointRead (s.ctxOf p.team) at_ true 32) else r.1
  | some (_, .home d false k) =>
    let r := s.serveNow (.fetch p.team p.unit p.entry) (s.ctxOf p.team) (s.launchIdOf p.team) (.home d false k) 2 false
    if r.2 then r.1.mergeHeld d 2 else r.1
  | some (va, .peer q a) => if (s.fetchBuf p va).isSome then s else s.fetchAsk p va q a
  | some (_, .spad _ _) => s

/-! ### Readiness and selection (R103-R107) -/

/-- A fragment that is ready for some port: its rank key (R104), what its instruction needs, and the ports. -/
structure ReadyFrag where
  p     : Party
  key   : List Nat
  sig   : Sig
  ports : List Nat
  push  : Bool       -- its instruction is `push` (R443)
  deriving DecidableEq, Repr

/-- Lexicographic order of rank keys. -/
def keyLt : List Nat → List Nat → Bool
  | a :: x, b :: y => a < b || (a == b && keyLt x y)
  | [], _ :: _ => true
  | _, [] => false

/-- The parties of a core's groups and handler slots. -/
def State.parties (s : State) (core : Nat) : List Party :=
  s.teams.flatMap fun t =>
    if t.core == core && t.live then
      ((upto 0 t.groups.length).flatMap fun g => (upto 0 8).map fun e => { team := t.uid, unit := g, entry := e }) ++
        [{ team := t.uid, unit := 16, entry := 0 }]
    else []

/-- Ports of a core that a run holds (R107). -/
def State.heldPorts (s : State) (core : Nat) : List Nat :=
  s.teams.flatMap fun t =>
    if t.core == core && t.live then
      (t.groups ++ [t.handler]).flatMap fun g => match g.run with
        | .some r => if g.st == .live then [r.port] else []
        | .none => []
    else []

/-- Whether issue is gated in this clk (R17): the windows of 8 clk are counted from clk 0, the same in every core (DESIGN CHOICE, log
109). -/
def State.gated (s : State) : Bool := 8 / 2 ^ s.dev.gate ≤ s.clk % 8

/-- Whether a port can issue an instruction in this clk (R103, R105, R408): its vector pipe or the SFU accepts one, and the port is not
held. -/
def State.portFree (s : State) (core : Nat) (sig : Sig) (q : Nat) : Bool :=
  let c := s.core core
  c.ports.getD q 0 ≤ s.clk && (sig.unit != 1 || c.pipes.getD q 0 ≤ s.clk) && (sig.unit != 2 || c.sfu ≤ s.clk)

/-- Whether an instruction is `push`. -/
def isPush : Instr → Bool
  | .push _ _ _ => true
  | _ => false

/-- Whether a group is stopped by the pre-emption of its team as soon as it is in no run (R110). -/
def State.stopping (s : State) (p : Party) : Bool :=
  match s.team? p.team with
  | some t => s.forcing t && (t.grp p.unit).run.isNone
  | none => false

/-- A party's fragment, if it is ready (R103); a handler issues from the clk after its trap, when the order of that clk's traps
is settled (R303). A run is its whole group's (R107, R315): until it ends, no other fragment of the group is ready (DEDUCED, log
126). -/
def State.ready? (s : State) (core : Nat) (p : Party) : Option ReadyFrag :=
  let g := s.grp p.team p.unit
  let e := g.entry p.entry
  if g.st != .live || e.st != .active || e.mask == 0 || g.parked || s.gated then none
  else if e.park.isSome || g.arrival p.entry != .go then none
  else if p.unit == 16 && (s.inTrap p.team).any (·.born == s.clk) then none
  else
    let inRun := match g.run with
      | .some r => some (r.port, r.entry)
      | .none => none
    let sig := match s.reach p with
      | .instr i _ _ => some (s.sigAt p.team i, isPush i)
      | .stop (.drain _) => none
      | .stop .absent => none
      | .atEnd => none
      | _ => some ({}, false)
    match sig with
    | none => none
    | some (sig, push) =>
      if s.waits p.team p.unit sig || s.stopping p then none else
      let ports := match inRun with
        | some (q, r) => if r = p.entry then [q] else []
        | none => [0, 1].filter fun q => !(s.heldPorts core).contains q
      let ports := ports.filter (s.portFree core sig)
      if ports.isEmpty then none else
      some { p := p, sig := sig, ports := ports, push := push,
             key := [if e.loss = 64 then 0 else 1, 15 - g.prio.toNat, g.age, p.unit, p.entry] }

/-- The best of a list of ready fragments (R104). -/
def bestOf : List ReadyFrag → Option ReadyFrag
  | [] => none
  | x :: t =>
    match bestOf t with
    | none => some x
    | some y => if keyLt y.key x.key then some y else some x

/-- Conflict of R105: more than 2 reads from one register bank, or one port of the matrix unit, the SFU or memory. A uniform
instruction conflicts with nothing (R363). A register that an instruction names twice counts as two reads (DESIGN CHOICE, log 8). -/
def Sig.conflicts (a b : Sig) : Bool :=
  !a.pilotOk && !b.pilotOk && ((upto 0 4).any (fun k => 2 < ((a.vr ++ b.vr).filter fun r => r % 4 == k).length) || (a.unit == b.unit && 2 ≤ a.unit))

/-- Words of a run count as first (R107). -/
def State.inRun (s : State) (p : Party) : Bool := (s.grp p.team p.unit).run.isSome

/-- The selection of a core in this clk (R105-R107): the parties that issue, with their ports. -/
def State.selection (s : State) (rs : List ReadyFrag) : List (Party × Nat) :=
  let runs := rs.filter fun r => s.inRun r.p
  match bestOf (if runs.isEmpty then rs else runs) with
  | none => []
  | some a =>
    let pf := a.ports.headD 0
    match bestOf (rs.filter fun r => r.ports.contains (1 - pf) && !(r.p.team == a.p.team && r.p.unit == a.p.unit)) with
    | none => [(a.p, pf)]
    | some b => if a.sig.conflicts b.sig then [(a.p, pf)] else [(a.p, pf), (b.p, 1 - pf)]

/-- Whether an instruction alone needs more than 2 reads from one register bank (R105). -/
def Sig.triple (g : Sig) : Bool := (upto 0 4).any fun k => 2 < (g.vr.filter fun r => r % 4 == k).length

/-- The lanes in which an instruction of a fragment acts (R103, R119): its masking register stands last among those it names. -/
def Grp.sigLanes (g : Grp) (e : Nat) (sig : Sig) : LaneMask :=
  (g.entry e).mask &&& (match sig.mr.getLast? with
    | .some k => if k = 0 then BitVec.allOnes 64 else g.maskReg e k
    | .none => BitVec.allOnes 64)

/-- What an issue on port `q` occupies (R103, R105, R408): a vector pipe for 2 clk, or 1 when one half of the mask is empty; the SFU for
twice as long; the port for a second clk, when the instruction alone needs 3 reads from a bank. -/
def Core.occupy (c : Core) (clk q : Nat) (sig : Sig) (m : LaneMask) : Core :=
  let n := if m.setWidth 32 = 0#32 || m.extractLsb' 32 32 = 0#32 then 1 else 2
  { c with
    pipes := if sig.unit = 1 then c.pipes.set q (clk + n) else c.pipes
    sfu := if sig.unit = 2 then clk + 2 * n else c.sfu
    ports := if sig.triple then c.ports.set q (clk + 2) else c.ports }

/-- What a selection occupies. -/
def State.occupy (s : State) (core : Nat) (rs : List ReadyFrag) (sel : List (Party × Nat)) : State :=
  sel.foldl (fun s e => match rs.find? fun r => r.p == e.1 with
    | some r => s.updCore core fun c => c.occupy s.clk e.2 r.sig ((s.grp r.p.team r.p.unit).sigLanes r.p.entry r.sig)
    | none => s) s

/-- A core selects: what issues has its loss count cleared, what was ready and does not issue counts a loss (R106). -/
def State.selectOn (s : State) (core : Nat) (rs : List ReadyFrag) : State :=
  let sel := s.selection rs
  let s := rs.foldl (fun s r => s.updEntry r.p fun e =>
    { e with loss := if sel.any (·.1 == r.p) then 0 else min 64 (e.loss + 1) }) s
  let s := s.occupy core rs sel
  { s with ev := { s.ev with issue := s.ev.issue ++ sel, issued := core :: s.ev.issued } }

/-- The fragments of a core that are ready, if it has not selected in this clk. -/
def State.readyOn (s : State) (core : Nat) : List ReadyFrag :=
  if s.ev.issued.contains core then [] else (s.parties core).filterMap (s.ready? core)

/-- Whether a team's pilot can issue (R132, R387). -/
def State.pilotReady (s : State) (t : Team) : Bool :=
  t.live && t.pilot.st == .live && (t.pilot.entry 0).park.isNone && !s.ev.pilots.contains t.uid && !s.gated &&
    (match s.reach { team := t.uid, unit := 17, entry := 0 } with
     | .instr i _ _ => !s.waits t.uid 17 (sigOf i)
     | .stop (.drain _) => false
     | .stop .absent => false
     | _ => true)

/-! ### What the part does before an instruction issues -/

/-- The FROP of a report as a trap's registers hold it, with the run's provenance (R208, R307). -/
def RopReport.trap (r : RopReport) : TrapInfo :=
  { cause := 0x27, detail := r.status.toNat, addr := r.addr.toNat, lanes := 1#64 <<< r.lane.toNat, fpc := r.ipc,
    resume := 0, frop := BitVec.ofNat 64 r.frop, inrun := r.widx.isSome, emitted := r.emitted,
    widx := match r.widx with
      | some w => w.toNat
      | none => 0,
    seq := r.seq, epc := r.epc }

/-- What one group must do first: raise a ROP fault that came back while it was not placed (R310), end an emitted run
(R380), take a watchdog trap (R99), or let a fragment end at its JOIN or step in serial mode (R124, R125). -/
def State.settleGroup (s : State) (u unit : Nat) : Option Out :=
  let g := s.grp u unit
  if g.st != .live then none else
  let heldBack := g.parkedBy fun k => match k with
    | .sync _ _ => true
    | .tide _ => true
    | .read _ => true
    | _ => false
  let heldBack := heldBack || s.pends.any fun p => p.team == u && p.unit == unit && p.holds
  let rop := if heldBack then none else g.rop
  match rop with
  | some r => some (.next ((s.updGrp u unit fun g => { g with rop := none }).takeTrapAt u unit r.entry r.trap))
  | none =>
    if s.takeOver u unit then some (.next (s.endTake u unit))
    else if g.wdog != 0 && g.wdog.toNat ≤ g.wdcnt && g.run.isNone && !g.watchStopped then some (runEvent (.watchdog u unit) s)
    else
      match (upto 0 g.split.length).find? fun e =>
          (g.entry e).st == .active && (g.entry e).park.isNone && g.arrival e != .go with
      | none => none
      | some e =>
        if g.arrival e = .serial then some (runEvent (.serialStep u unit e) s)
        else some (.next (s.updGrp u unit (·.freeEntry 9 e)))

/-- What must happen before anything issues, if there is such a thing; a report that comes back to the handler slot is a double fault
(R208, R305). -/
def State.settle (s : State) : Option Out :=
  s.teams.findSome? fun t =>
    if t.live && !t.ended then (upto 0 t.groups.length ++ [16]).findSome? (s.settleGroup t.uid) else none

/-! ### What may come next -/

/-- One thing that may come next: an input, a due event, the end of a wait, the issue of a core or of a pilot, instruction bytes
that come (R85, R155), a write-back (R155), the merging of a held contribution (R198, R199), a BAR4 access (R39), an image that firmware
loads (R34), and the end of the clk. -/
inductive Cand where
  | input
  | due (i : Nat)
  | wake (e : Ev)
  | core (c : Nat)
  | pilot (u : Nat)
  | fetch (p : Party)
  | writeBack (x : L2Line)
  | merge (id : Nat)
  | bar (id : Nat)
  | firmware
  | edge
  deriving DecidableEq, Repr

/-- The parties of every placed team, the pilots among them. -/
def State.allParties (s : State) : List Party :=
  (distinct ((s.teams.filter fun t => t.live && !t.ended).map (·.core))).flatMap s.parties ++
    (s.teams.filter fun t => t.live && !t.ended).map fun t => { team := t.uid, unit := 17, entry := 0 }

/-- Whether a party has to fetch instruction bytes that are to be brought. -/
def State.wantsFetch (s : State) (p : Party) : Bool :=
  let g := s.grp p.team p.unit
  let e := g.entry p.entry
  g.st == .live && e.st == .active && e.park.isNone && !g.parked && g.arrival p.entry == .go && (match s.reach p with
    | .stop .absent => true
    | _ => false)

/-- The rank key of the `push` that a core would issue (R104, R443). -/
def State.pushKey (s : State) (core : Nat) : Option (List Nat) :=
  let rs := s.readyOn core
  let sel := s.selection rs
  (rs.find? fun r => r.push && sel.any (·.1 == r.p)).map (·.key)

/-- The cores that may issue next: those that have not, the pushes of one clk in the order of R104 (R443). -/
def State.issuers (s : State) : List Nat :=
  let cores := (s.teams.foldl (fun l t => if t.live && !l.contains t.core then l ++ [t.core] else l) []).filter
    fun c => !(s.readyOn c).isEmpty
  cores.filter fun c => match s.pushKey c with
    | none => true
    | some k => cores.all fun d => match s.pushKey d with
      | some j => !keyLt j k
      | none => true

/-- Every thing that may come next. The pilots issue once every core that is ready has issued (R443), and the clk ends after them
(R105, R132). -/
def State.cands (s : State) : List Cand :=
  let cores := s.issuers
  let pilots := if cores.isEmpty then (s.teams.filter s.pilotReady).map (·.uid) else []
  (if s.ev.inputs.isEmpty then [] else [Cand.input]) ++ (upto 0 s.ev.due.length).map Cand.due ++
    s.wakes.map Cand.wake ++ cores.map Cand.core ++ pilots.map Cand.pilot ++
    (s.allParties.filter s.wantsFetch).map Cand.fetch ++ (s.mem.l2.filter (·.out)).map Cand.writeBack ++
    s.combs.map (fun c => Cand.merge c.id) ++ s.barHeads.map Cand.bar ++ (if s.dev.loads.isEmpty then [] else [Cand.firmware]) ++
    (if cores.isEmpty && pilots.isEmpty then [Cand.edge] else [])

/-- Drop element `i` of a list. -/
def dropAt {α : Type} (l : List α) (i : Nat) : List α := l.take i ++ l.drop (i + 1)

/-- Let one thing happen. -/
def State.perform (s : State) (c : Cand) : Out :=
  match c with
  | .input =>
    match s.ev.inputs with
    | e :: rest => runEvent e { s with ev := { s.ev with inputs := rest } }
    | [] => .next s
  | .due i =>
    match s.ev.due[i]? with
    | some e => runEvent e { s with ev := { s.ev with due := dropAt s.ev.due i } }
    | none => .next s
  | .wake e => runEvent e s
  | .core c => .next (s.selectOn c (s.readyOn c))
  | .pilot u =>
    { s with ev := { s.ev with pilots := u :: s.ev.pilots } }.issueParty { team := u, unit := 17, entry := 0 } 0
  | .fetch p => .next (s.fetchStep p)
  | .writeBack x => .next (s.writeBack x)
  | .merge id => Sys2Proof.Machine.execCombiningAgeOut id s
  | .bar id => .next (s.stepBar id)
  | .firmware => .next s.firmwareLoad
  | .edge => .next s.clkEdge

/-- One step of the package: what follows at once comes first, then what this clk's selection issues, then what the
part does before an instruction issues, then one of the things that may come next. -/
def State.advanceOne (s : State) : Out :=
  let s := { s with tick := s.tick + 1, cur := none }
  match s.ev.now with
  | e :: rest => runEvent e { s with ev := { s.ev with now := rest } }
  | [] =>
    match s.ev.issue with
    | (p, port) :: rest => { s with ev := { s.ev with issue := rest } }.issueParty p port
    | [] =>
      match s.settle with
      | some o => o
      | none =>
        match s.cands with
        | [c] => s.perform c
        | l =>
          match l[Config.freePick s.tick % l.length]? with
          | some c => s.perform c
          | none => .next s

end Sys2Proof.Machine
end

