-- ==== Sys2Proof/Machine/Step.lean ====
section
/-!
DEFINITION. One step of the package, and the placing of one instruction word where the next step fetches.
-/

namespace Sys2Proof.Machine

/-- One step of the package. -/
def step (s : State) : Host.Outcome State Fault Refusal := s.advanceOne

/-- `s` with a program of one instruction loaded and running, the bits of the word as the opcode table numbers them. -/
def State.withFetchWord (s : State) (nbits w : Nat) : State := s.placeWord nbits w

end Sys2Proof.Machine
end

