-- ==== Sys2Proof/Laws/Arms.lean ====
section
/-!
SUPPORT. Each arm of `exec`, and the signature of each encoded instruction, as an equation of its own.
-/

namespace Sys2Proof.Machine

@[simp] theorem exec_add16 (p : Pfx) (vd : BitVec 6) (vb : BitVec 5) (s : State) :
    exec (.add16 p vd vb) s = execAdd16 p vd vb s := rfl
@[simp] theorem exec_addImm16 (p : Pfx) (vd : BitVec 6) (vb : BitVec 5) (s : State) :
    exec (.addImm16 p vd vb) s = execAddImm16 p vd vb s := rfl
@[simp] theorem exec_sub16 (p : Pfx) (vd : BitVec 6) (vb : BitVec 5) (s : State) :
    exec (.sub16 p vd vb) s = execSub16 p vd vb s := rfl
@[simp] theorem exec_mul16 (p : Pfx) (vd : BitVec 6) (vb : BitVec 5) (s : State) :
    exec (.mul16 p vd vb) s = execMul16 p vd vb s := rfl
@[simp] theorem exec_and16 (p : Pfx) (vd : BitVec 6) (vb : BitVec 5) (s : State) :
    exec (.and16 p vd vb) s = execAnd16 p vd vb s := rfl
@[simp] theorem exec_or16 (p : Pfx) (vd : BitVec 6) (vb : BitVec 5) (s : State) :
    exec (.or16 p vd vb) s = execOr16 p vd vb s := rfl
@[simp] theorem exec_xor16 (p : Pfx) (vd : BitVec 6) (vb : BitVec 5) (s : State) :
    exec (.xor16 p vd vb) s = execXor16 p vd vb s := rfl
@[simp] theorem exec_shl16 (p : Pfx) (vd : BitVec 6) (vb : BitVec 5) (s : State) :
    exec (.shl16 p vd vb) s = execShl16 p vd vb s := rfl
@[simp] theorem exec_shr16 (p : Pfx) (vd : BitVec 6) (vb : BitVec 5) (s : State) :
    exec (.shr16 p vd vb) s = execShr16 p vd vb s := rfl
@[simp] theorem exec_sra16 (p : Pfx) (vd : BitVec 6) (vb : BitVec 5) (s : State) :
    exec (.sra16 p vd vb) s = execSra16 p vd vb s := rfl
@[simp] theorem exec_min16 (p : Pfx) (vd : BitVec 6) (vb : BitVec 5) (s : State) :
    exec (.min16 p vd vb) s = execMin16 p vd vb s := rfl
@[simp] theorem exec_max16 (p : Pfx) (vd : BitVec 6) (vb : BitVec 5) (s : State) :
    exec (.max16 p vd vb) s = execMax16 p vd vb s := rfl
@[simp] theorem exec_minu16 (p : Pfx) (vd : BitVec 6) (vb : BitVec 5) (s : State) :
    exec (.minu16 p vd vb) s = execMinu16 p vd vb s := rfl
@[simp] theorem exec_maxu16 (p : Pfx) (vd : BitVec 6) (vb : BitVec 5) (s : State) :
    exec (.maxu16 p vd vb) s = execMaxu16 p vd vb s := rfl
@[simp] theorem exec_fadd16 (p : Pfx) (vd : BitVec 6) (vb : BitVec 5) (s : State) :
    exec (.fadd16 p vd vb) s = execFadd16 p vd vb s := rfl
@[simp] theorem exec_fmul16 (p : Pfx) (vd : BitVec 6) (vb : BitVec 5) (s : State) :
    exec (.fmul16 p vd vb) s = execFmul16 p vd vb s := rfl
@[simp] theorem exec_add (p : Pfx) (d : BitVec 8) (a : BitVec 8) (b : BitVec 8) (u : Bool) (s : State) :
    exec (.add p d a b u) s = execAdd p d a b u s := rfl
@[simp] theorem exec_sub (p : Pfx) (d : BitVec 8) (a : BitVec 8) (b : BitVec 8) (u : Bool) (s : State) :
    exec (.sub p d a b u) s = execSub p d a b u s := rfl
@[simp] theorem exec_and (p : Pfx) (d : BitVec 8) (a : BitVec 8) (b : BitVec 8) (u : Bool) (s : State) :
    exec (.and p d a b u) s = execAnd p d a b u s := rfl
@[simp] theorem exec_or (p : Pfx) (d : BitVec 8) (a : BitVec 8) (b : BitVec 8) (u : Bool) (s : State) :
    exec (.or p d a b u) s = execOr p d a b u s := rfl
@[simp] theorem exec_xor (p : Pfx) (d : BitVec 8) (a : BitVec 8) (b : BitVec 8) (u : Bool) (s : State) :
    exec (.xor p d a b u) s = execXor p d a b u s := rfl
@[simp] theorem exec_shl (p : Pfx) (d : BitVec 8) (a : BitVec 8) (b : BitVec 8) (u : Bool) (s : State) :
    exec (.shl p d a b u) s = execShl p d a b u s := rfl
@[simp] theorem exec_shr (p : Pfx) (d : BitVec 8) (a : BitVec 8) (b : BitVec 8) (u : Bool) (s : State) :
    exec (.shr p d a b u) s = execShr p d a b u s := rfl
@[simp] theorem exec_sra (p : Pfx) (d : BitVec 8) (a : BitVec 8) (b : BitVec 8) (u : Bool) (s : State) :
    exec (.sra p d a b u) s = execSra p d a b u s := rfl
@[simp] theorem exec_mul (p : Pfx) (d : BitVec 8) (a : BitVec 8) (b : BitVec 8) (u : Bool) (s : State) :
    exec (.mul p d a b u) s = execMul p d a b u s := rfl
@[simp] theorem exec_mad (p : Pfx) (d : BitVec 8) (a : BitVec 8) (b : BitVec 8) (u : Bool) (s : State) :
    exec (.mad p d a b u) s = execMad p d a b u s := rfl
@[simp] theorem exec_mulh (p : Pfx) (d : BitVec 8) (a : BitVec 8) (b : BitVec 8) (u : Bool) (s : State) :
    exec (.mulh p d a b u) s = execMulh p d a b u s := rfl
@[simp] theorem exec_mulhu (p : Pfx) (d : BitVec 8) (a : BitVec 8) (b : BitVec 8) (u : Bool) (s : State) :
    exec (.mulhu p d a b u) s = execMulhu p d a b u s := rfl
@[simp] theorem exec_min (p : Pfx) (d : BitVec 8) (a : BitVec 8) (b : BitVec 8) (u : Bool) (s : State) :
    exec (.min p d a b u) s = execMin p d a b u s := rfl
@[simp] theorem exec_minu (p : Pfx) (d : BitVec 8) (a : BitVec 8) (b : BitVec 8) (u : Bool) (s : State) :
    exec (.minu p d a b u) s = execMinu p d a b u s := rfl
@[simp] theorem exec_max (p : Pfx) (d : BitVec 8) (a : BitVec 8) (b : BitVec 8) (u : Bool) (s : State) :
    exec (.max p d a b u) s = execMax p d a b u s := rfl
@[simp] theorem exec_maxu (p : Pfx) (d : BitVec 8) (a : BitVec 8) (b : BitVec 8) (u : Bool) (s : State) :
    exec (.maxu p d a b u) s = execMaxu p d a b u s := rfl
@[simp] theorem exec_bfx (p : Pfx) (d : BitVec 8) (a : BitVec 8) (b : BitVec 8) (u : Bool) (s : State) :
    exec (.bfx p d a b u) s = execBfx p d a b u s := rfl
@[simp] theorem exec_bfi (p : Pfx) (d : BitVec 8) (a : BitVec 8) (b : BitVec 8) (u : Bool) (s : State) :
    exec (.bfi p d a b u) s = execBfi p d a b u s := rfl
@[simp] theorem exec_cmp (p : Pfx) (c : BitVec 4) (m : BitVec 4) (a : BitVec 8) (b : BitVec 8) (u : Bool) (s : State) :
    exec (.cmp p c m a b u) s = execCmp p c m a b u s := rfl
@[simp] theorem exec_fcmp (p : Pfx) (c : BitVec 4) (m : BitVec 4) (a : BitVec 8) (b : BitVec 8) (u : Bool) (s : State) :
    exec (.fcmp p c m a b u) s = execFcmp p c m a b u s := rfl
@[simp] theorem exec_fadd (p : Pfx) (d : BitVec 8) (a : BitVec 8) (b : BitVec 8) (u : Bool) (s : State) :
    exec (.fadd p d a b u) s = execFadd p d a b u s := rfl
@[simp] theorem exec_fsub (p : Pfx) (d : BitVec 8) (a : BitVec 8) (b : BitVec 8) (u : Bool) (s : State) :
    exec (.fsub p d a b u) s = execFsub p d a b u s := rfl
@[simp] theorem exec_fmul (p : Pfx) (d : BitVec 8) (a : BitVec 8) (b : BitVec 8) (u : Bool) (s : State) :
    exec (.fmul p d a b u) s = execFmul p d a b u s := rfl
@[simp] theorem exec_ffma (p : Pfx) (d : BitVec 8) (a : BitVec 8) (b : BitVec 8) (u : Bool) (s : State) :
    exec (.ffma p d a b u) s = execFfma p d a b u s := rfl
@[simp] theorem exec_fmin (p : Pfx) (d : BitVec 8) (a : BitVec 8) (b : BitVec 8) (u : Bool) (s : State) :
    exec (.fmin p d a b u) s = execFmin p d a b u s := rfl
@[simp] theorem exec_fmax (p : Pfx) (d : BitVec 8) (a : BitVec 8) (b : BitVec 8) (u : Bool) (s : State) :
    exec (.fmax p d a b u) s = execFmax p d a b u s := rfl
@[simp] theorem exec_addImm (p : Pfx) (d : BitVec 8) (a : BitVec 8) (imm : Imm) (s : State) :
    exec (.addImm p d a imm) s = execAddImm p d a imm s := rfl
@[simp] theorem exec_mulImm (p : Pfx) (d : BitVec 8) (a : BitVec 8) (imm : Imm) (s : State) :
    exec (.mulImm p d a imm) s = execMulImm p d a imm s := rfl
@[simp] theorem exec_andImm (p : Pfx) (d : BitVec 8) (a : BitVec 8) (imm : Imm) (s : State) :
    exec (.andImm p d a imm) s = execAndImm p d a imm s := rfl
@[simp] theorem exec_orImm (p : Pfx) (d : BitVec 8) (a : BitVec 8) (imm : Imm) (s : State) :
    exec (.orImm p d a imm) s = execOrImm p d a imm s := rfl
@[simp] theorem exec_xorImm (p : Pfx) (d : BitVec 8) (a : BitVec 8) (imm : Imm) (s : State) :
    exec (.xorImm p d a imm) s = execXorImm p d a imm s := rfl
@[simp] theorem exec_shlImm (p : Pfx) (d : BitVec 8) (a : BitVec 8) (imm : Imm) (s : State) :
    exec (.shlImm p d a imm) s = execShlImm p d a imm s := rfl
@[simp] theorem exec_shrImm (p : Pfx) (d : BitVec 8) (a : BitVec 8) (imm : Imm) (s : State) :
    exec (.shrImm p d a imm) s = execShrImm p d a imm s := rfl
@[simp] theorem exec_sraImm (p : Pfx) (d : BitVec 8) (a : BitVec 8) (imm : Imm) (s : State) :
    exec (.sraImm p d a imm) s = execSraImm p d a imm s := rfl
@[simp] theorem exec_cmpImm (p : Pfx) (c : BitVec 4) (m : BitVec 4) (a : BitVec 8) (imm : Imm) (s : State) :
    exec (.cmpImm p c m a imm) s = execCmpImm p c m a imm s := rfl
@[simp] theorem exec_rcp (p : Pfx) (d : BitVec 8) (a : BitVec 8) (s : State) :
    exec (.rcp p d a) s = execRcp p d a s := rfl
@[simp] theorem exec_rsq (p : Pfx) (d : BitVec 8) (a : BitVec 8) (s : State) :
    exec (.rsq p d a) s = execRsq p d a s := rfl
@[simp] theorem exec_sqrt (p : Pfx) (d : BitVec 8) (a : BitVec 8) (s : State) :
    exec (.sqrt p d a) s = execSqrt p d a s := rfl
@[simp] theorem exec_exp2 (p : Pfx) (d : BitVec 8) (a : BitVec 8) (s : State) :
    exec (.exp2 p d a) s = execExp2 p d a s := rfl
@[simp] theorem exec_log2 (p : Pfx) (d : BitVec 8) (a : BitVec 8) (s : State) :
    exec (.log2 p d a) s = execLog2 p d a s := rfl
@[simp] theorem exec_sin (p : Pfx) (d : BitVec 8) (a : BitVec 8) (s : State) :
    exec (.sin p d a) s = execSin p d a s := rfl
@[simp] theorem exec_cos (p : Pfx) (d : BitVec 8) (a : BitVec 8) (s : State) :
    exec (.cos p d a) s = execCos p d a s := rfl
@[simp] theorem exec_tanh (p : Pfx) (d : BitVec 8) (a : BitVec 8) (s : State) :
    exec (.tanh p d a) s = execTanh p d a s := rfl
@[simp] theorem exec_fabs (p : Pfx) (d : BitVec 8) (a : BitVec 8) (s : State) :
    exec (.fabs p d a) s = execFabs p d a s := rfl
@[simp] theorem exec_fneg (p : Pfx) (d : BitVec 8) (a : BitVec 8) (s : State) :
    exec (.fneg p d a) s = execFneg p d a s := rfl
@[simp] theorem exec_fclass (p : Pfx) (d : BitVec 8) (a : BitVec 8) (s : State) :
    exec (.fclass p d a) s = execFclass p d a s := rfl
@[simp] theorem exec_frnd (p : Pfx) (d : BitVec 8) (a : BitVec 8) (s : State) :
    exec (.frnd p d a) s = execFrnd p d a s := rfl
@[simp] theorem exec_fcvt (p : Pfx) (d : BitVec 8) (a : BitVec 8) (x : BitVec 4) (s : State) :
    exec (.fcvt p d a x) s = execFcvt p d a x s := rfl
@[simp] theorem exec_not (p : Pfx) (d : BitVec 8) (a : BitVec 8) (s : State) :
    exec (.not p d a) s = execNot p d a s := rfl
@[simp] theorem exec_abs (p : Pfx) (d : BitVec 8) (a : BitVec 8) (s : State) :
    exec (.abs p d a) s = execAbs p d a s := rfl
@[simp] theorem exec_neg (p : Pfx) (d : BitVec 8) (a : BitVec 8) (s : State) :
    exec (.neg p d a) s = execNeg p d a s := rfl
@[simp] theorem exec_pop (p : Pfx) (d : BitVec 8) (a : BitVec 8) (s : State) :
    exec (.pop p d a) s = execPop p d a s := rfl
@[simp] theorem exec_clz (p : Pfx) (d : BitVec 8) (a : BitVec 8) (s : State) :
    exec (.clz p d a) s = execClz p d a s := rfl
@[simp] theorem exec_sel (p : Pfx) (d : BitVec 8) (a : BitVec 8) (x : BitVec 4) (s : State) :
    exec (.sel p d a x) s = execSel p d a x s := rfl
@[simp] theorem exec_mand (p : Pfx) (d : BitVec 4) (a : BitVec 4) (k : BitVec 4) (s : State) :
    exec (.mand p d a k) s = execMand p d a k s := rfl
@[simp] theorem exec_mor (p : Pfx) (d : BitVec 4) (a : BitVec 4) (k : BitVec 4) (s : State) :
    exec (.mor p d a k) s = execMor p d a k s := rfl
@[simp] theorem exec_mxor (p : Pfx) (d : BitVec 4) (a : BitVec 4) (k : BitVec 4) (s : State) :
    exec (.mxor p d a k) s = execMxor p d a k s := rfl
@[simp] theorem exec_mnot (p : Pfx) (d : BitVec 4) (a : BitVec 4) (s : State) :
    exec (.mnot p d a) s = execMnot p d a s := rfl
@[simp] theorem exec_mmov (p : Pfx) (d : BitVec 4) (a : BitVec 4) (s : State) :
    exec (.mmov p d a) s = execMmov p d a s := rfl
@[simp] theorem exec_mpop (p : Pfx) (d : BitVec 8) (a : BitVec 4) (s : State) :
    exec (.mpop p d a) s = execMpop p d a s := rfl
@[simp] theorem exec_mfirst (p : Pfx) (d : BitVec 4) (a : BitVec 4) (s : State) :
    exec (.mfirst p d a) s = execMfirst p d a s := rfl
@[simp] theorem exec_mset (p : Pfx) (d : BitVec 4) (a : BitVec 8) (s : State) :
    exec (.mset p d a) s = execMset p d a s := rfl
@[simp] theorem exec_shfUp (p : Pfx) (d : BitVec 8) (a : BitVec 8) (x : BitVec 4) (s : State) :
    exec (.shfUp p d a x) s = execShfUp p d a x s := rfl
@[simp] theorem exec_shfDn (p : Pfx) (d : BitVec 8) (a : BitVec 8) (x : BitVec 4) (s : State) :
    exec (.shfDn p d a x) s = execShfDn p d a x s := rfl
@[simp] theorem exec_shfXor (p : Pfx) (d : BitVec 8) (a : BitVec 8) (x : BitVec 4) (s : State) :
    exec (.shfXor p d a x) s = execShfXor p d a x s := rfl
@[simp] theorem exec_shfRot (p : Pfx) (d : BitVec 8) (a : BitVec 8) (x : BitVec 4) (s : State) :
    exec (.shfRot p d a x) s = execShfRot p d a x s := rfl
@[simp] theorem exec_shfIdx (p : Pfx) (d : BitVec 8) (a : BitVec 8) (s : State) :
    exec (.shfIdx p d a) s = execShfIdx p d a s := rfl
@[simp] theorem exec_sct (p : Pfx) (d : BitVec 8) (a : BitVec 8) (s : State) :
    exec (.sct p d a) s = execSct p d a s := rfl
@[simp] theorem exec_bcst (p : Pfx) (d : BitVec 8) (a : BitVec 8) (s : State) :
    exec (.bcst p d a) s = execBcst p d a s := rfl
@[simp] theorem exec_lred (p : Pfx) (d : BitVec 8) (a : BitVec 8) (x : BitVec 4) (s : State) :
    exec (.lred p d a x) s = execLred p d a x s := rfl
@[simp] theorem exec_scan (p : Pfx) (d : BitVec 8) (a : BitVec 8) (x : BitVec 4) (s : State) :
    exec (.scan p d a x) s = execScan p d a x s := rfl
@[simp] theorem exec_scanEx (p : Pfx) (d : BitVec 8) (a : BitVec 8) (x : BitVec 4) (s : State) :
    exec (.scanEx p d a x) s = execScanEx p d a x s := rfl
@[simp] theorem exec_tbl (p : Pfx) (d : BitVec 8) (a : BitVec 8) (n : BitVec 3) (fill : BitVec 4) (s : State) :
    exec (.tbl p d a n fill) s = execTbl p d a n fill s := rfl
@[simp] theorem exec_vote (p : Pfx) (d : BitVec 8) (a : BitVec 8) (x : BitVec 4) (s : State) :
    exec (.vote p d a x) s = execVote p d a x s := rfl
@[simp] theorem exec_lid (p : Pfx) (d : BitVec 8) (s : State) :
    exec (.lid p d) s = execLid p d s := rfl
@[simp] theorem exec_ld (p : Pfx) (m : MemArg) (s : State) :
    exec (.ld p m) s = execLd p m s := rfl
@[simp] theorem exec_ldc (p : Pfx) (m : MemArg) (s : State) :
    exec (.ldc p m) s = execLdc p m s := rfl
@[simp] theorem exec_st (p : Pfx) (m : MemArg) (s : State) :
    exec (.st p m) s = execSt p m s := rfl
@[simp] theorem exec_stc (p : Pfx) (m : MemArg) (s : State) :
    exec (.stc p m) s = execStc p m s := rfl
@[simp] theorem exec_lds (p : Pfx) (m : MemArg) (s : State) :
    exec (.lds p m) s = execLds p m s := rfl
@[simp] theorem exec_prf (p : Pfx) (m : MemArg) (s : State) :
    exec (.prf p m) s = execPrf p m s := rfl
@[simp] theorem exec_sts (p : Pfx) (m : MemArg) (s : State) :
    exec (.sts p m) s = execSts p m s := rfl
@[simp] theorem exec_inv (p : Pfx) (m : MemArg) (s : State) :
    exec (.inv p m) s = execInv p m s := rfl
@[simp] theorem exec_sadd (p : Pfx) (d : BitVec 8) (a : BitVec 8) (b : BitVec 8) (s : State) :
    exec (.sadd p d a b) s = execSadd p d a b s := rfl
@[simp] theorem exec_ssub (p : Pfx) (d : BitVec 8) (a : BitVec 8) (b : BitVec 8) (s : State) :
    exec (.ssub p d a b) s = execSsub p d a b s := rfl
@[simp] theorem exec_smul (p : Pfx) (d : BitVec 8) (a : BitVec 8) (b : BitVec 8) (s : State) :
    exec (.smul p d a b) s = execSmul p d a b s := rfl
@[simp] theorem exec_smulh (p : Pfx) (d : BitVec 8) (a : BitVec 8) (b : BitVec 8) (s : State) :
    exec (.smulh p d a b) s = execSmulh p d a b s := rfl
@[simp] theorem exec_sand (p : Pfx) (d : BitVec 8) (a : BitVec 8) (b : BitVec 8) (s : State) :
    exec (.sand p d a b) s = execSand p d a b s := rfl
@[simp] theorem exec_sor (p : Pfx) (d : BitVec 8) (a : BitVec 8) (b : BitVec 8) (s : State) :
    exec (.sor p d a b) s = execSor p d a b s := rfl
@[simp] theorem exec_sxor (p : Pfx) (d : BitVec 8) (a : BitVec 8) (b : BitVec 8) (s : State) :
    exec (.sxor p d a b) s = execSxor p d a b s := rfl
@[simp] theorem exec_sshl (p : Pfx) (d : BitVec 8) (a : BitVec 8) (b : BitVec 8) (s : State) :
    exec (.sshl p d a b) s = execSshl p d a b s := rfl
@[simp] theorem exec_sld (p : Pfx) (d : BitVec 8) (a : BitVec 8) (imm : Imm) (s : State) :
    exec (.sld p d a imm) s = execSld p d a imm s := rfl
@[simp] theorem exec_sst (p : Pfx) (d : BitVec 8) (a : BitVec 8) (imm : Imm) (s : State) :
    exec (.sst p d a imm) s = execSst p d a imm s := rfl
@[simp] theorem exec_sli (p : Pfx) (d : BitVec 8) (imm : Imm) (s : State) :
    exec (.sli p d imm) s = execSli p d imm s := rfl
@[simp] theorem exec_slui (p : Pfx) (d : BitVec 8) (imm : Imm) (s : State) :
    exec (.slui p d imm) s = execSlui p d imm s := rfl
@[simp] theorem exec_saddImm (p : Pfx) (d : BitVec 8) (a : BitVec 8) (imm : Imm) (s : State) :
    exec (.saddImm p d a imm) s = execSaddImm p d a imm s := rfl
@[simp] theorem exec_sandImm (p : Pfx) (d : BitVec 8) (a : BitVec 8) (imm : Imm) (s : State) :
    exec (.sandImm p d a imm) s = execSandImm p d a imm s := rfl
@[simp] theorem exec_sshlImm (p : Pfx) (d : BitVec 8) (a : BitVec 8) (imm : Imm) (s : State) :
    exec (.sshlImm p d a imm) s = execSshlImm p d a imm s := rfl
@[simp] theorem exec_sshrImm (p : Pfx) (d : BitVec 8) (a : BitVec 8) (imm : Imm) (s : State) :
    exec (.sshrImm p d a imm) s = execSshrImm p d a imm s := rfl
@[simp] theorem exec_smov (d : BitVec 8) (a : BitVec 8) (s : State) :
    exec (.smov d a) s = execSmov d a s := rfl
@[simp] theorem exec_sshr (d : BitVec 8) (a : BitVec 8) (s : State) :
    exec (.sshr d a) s = execSshr d a s := rfl
@[simp] theorem exec_ssra (d : BitVec 8) (a : BitVec 8) (s : State) :
    exec (.ssra d a) s = execSsra d a s := rfl
@[simp] theorem exec_smin (d : BitVec 8) (a : BitVec 8) (s : State) :
    exec (.smin d a) s = execSmin d a s := rfl
@[simp] theorem exec_smax (d : BitVec 8) (a : BitVec 8) (s : State) :
    exec (.smax d a) s = execSmax d a s := rfl
@[simp] theorem exec_sminu (d : BitVec 8) (a : BitVec 8) (s : State) :
    exec (.sminu d a) s = execSminu d a s := rfl
@[simp] theorem exec_smaxu (d : BitVec 8) (a : BitVec 8) (s : State) :
    exec (.smaxu d a) s = execSmaxu d a s := rfl
@[simp] theorem exec_scmp (d : BitVec 8) (a : BitVec 8) (x : BitVec 4) (s : State) :
    exec (.scmp d a x) s = execScmp d a x s := rfl
@[simp] theorem exec_ssel (d : BitVec 8) (a : BitVec 8) (x : BitVec 4) (s : State) :
    exec (.ssel d a x) s = execSsel d a x s := rfl
@[simp] theorem exec_br (p : Pfx) (off : Off) (s : State) :
    exec (.br p off) s = execBr p off s := rfl
@[simp] theorem exec_call (p : Pfx) (l : BitVec 8) (off : Off) (s : State) :
    exec (.call p l off) s = execCall p l off s := rfl
@[simp] theorem exec_rcv (p : Pfx) (off : Off) (s : State) :
    exec (.rcv p off) s = execRcv p off s := rfl
@[simp] theorem exec_bl (p : Pfx) (m : BitVec 4) (sense : Bool) (off : Off) (s : State) :
    exec (.bl p m sense off) s = execBl p m sense off s := rfl
@[simp] theorem exec_bc (p : Pfx) (c : BitVec 8) (off : Off) (s : State) :
    exec (.bc p c off) s = execBc p c off s := rfl
@[simp] theorem exec_nop (s : State) :
    exec .nop s = execNop s := rfl
@[simp] theorem exec_exit (s : State) :
    exec .exit s = execExit s := rfl
@[simp] theorem exec_yield (s : State) :
    exec .yield s = execYield s := rfl
@[simp] theorem exec_rgn (s : State) :
    exec .rgn s = execRgn s := rfl
@[simp] theorem exec_run (s : State) :
    exec .run s = execRun s := rfl
@[simp] theorem exec_rend (n : BitVec 4) (t0 : BitVec 32) (t1 : BitVec 32) (s : State) :
    exec (.rend n t0 t1) s = execRend n t0 t1 s := rfl
@[simp] theorem exec_take (x : BitVec 4) (s : State) :
    exec (.take x) s = execTake x s := rfl
@[simp] theorem exec_jmp (a : BitVec 8) (s : State) :
    exec (.jmp a) s = execJmp a s := rfl
@[simp] theorem exec_ret (a : BitVec 8) (s : State) :
    exec (.ret a) s = execRet a s := rfl
@[simp] theorem exec_brk (a : BitVec 8) (x : BitVec 4) (s : State) :
    exec (.brk a x) s = execBrk a x s := rfl
@[simp] theorem exec_acq (p : Pfx) (a : BitVec 8) (s : State) :
    exec (.acq p a) s = execAcq p a s := rfl
@[simp] theorem exec_rel (p : Pfx) (a : BitVec 8) (s : State) :
    exec (.rel p a) s = execRel p a s := rfl
@[simp] theorem exec_fence (x : BitVec 4) (s : State) :
    exec (.fence x) s = execFence x s := rfl
@[simp] theorem exec_bar (s : State) :
    exec .bar s = execBar s := rfl
@[simp] theorem exec_cbar (s : State) :
    exec .cbar s = execCbar s := rfl
@[simp] theorem exec_tlw (a : BitVec 8) (x : BitVec 4) (s : State) :
    exec (.tlw a x) s = execTlw a x s := rfl
@[simp] theorem exec_tlr (d : BitVec 8) (x : BitVec 4) (s : State) :
    exec (.tlr d x) s = execTlr d x s := rfl
@[simp] theorem exec_wait (l : BitVec 4) (st : BitVec 4) (c : BitVec 4) (t : BitVec 4) (r : BitVec 4) (s : State) :
    exec (.wait l st c t r) s = execWait l st c t r s := rfl
@[simp] theorem exec_rop (p : Pfx) (d : BitVec 8) (a : BitVec 8) (id : BitVec 6) (ng : BitVec 3) (s : State) :
    exec (.rop p d a id ng) s = execRop p d a id ng s := rfl
@[simp] theorem exec_ropr (p : Pfx) (d : BitVec 8) (a : BitVec 8) (id : BitVec 6) (ng : BitVec 3) (s : State) :
    exec (.ropr p d a id ng) s = execRopr p d a id ng s := rfl
@[simp] theorem exec_ropw (p : Pfx) (d : BitVec 8) (a : BitVec 8) (id : BitVec 6) (ng : BitVec 3) (s : State) :
    exec (.ropw p d a id ng) s = execRopw p d a id ng s := rfl
@[simp] theorem exec_rdef (d : BitVec 8) (a : BitVec 8) (s : State) :
    exec (.rdef d a) s = execRdef d a s := rfl
@[simp] theorem exec_rdel (d : BitVec 8) (s : State) :
    exec (.rdel d) s = execRdel d s := rfl
@[simp] theorem exec_rstat (d : BitVec 8) (a : BitVec 8) (s : State) :
    exec (.rstat d a) s = execRstat d a s := rfl
@[simp] theorem exec_rstatStat (d : BitVec 8) (s : State) :
    exec (.rstatStat d) s = execRstatStat d s := rfl
@[simp] theorem exec_board (d : BitVec 8) (a : BitVec 8) (s : State) :
    exec (.board d a) s = execBoard d a s := rfl
@[simp] theorem exec_alight (d : BitVec 8) (a : BitVec 8) (s : State) :
    exec (.alight d a) s = execAlight d a s := rfl
@[simp] theorem exec_catch (d : BitVec 8) (a : BitVec 8) (s : State) :
    exec (.catch d a) s = execCatch d a s := rfl
@[simp] theorem exec_rwr (d : BitVec 8) (a : BitVec 8) (x : BitVec 4) (s : State) :
    exec (.rwr d a x) s = execRwr d a x s := rfl
@[simp] theorem exec_rwrR (d : BitVec 8) (a : BitVec 8) (x : BitVec 4) (s : State) :
    exec (.rwrR d a x) s = execRwrR d a x s := rfl
@[simp] theorem exec_mstone (d : BitVec 8) (s : State) :
    exec (.mstone d) s = execMstone d s := rfl
@[simp] theorem exec_mld (p : Pfx) (front : Bool) (r : BitVec 4) (f : BitVec 3) (o : BitVec 5) (s : State) :
    exec (.mld p front r f o) s = execMld p front r f o s := rfl
@[simp] theorem exec_mswp (p : Pfx) (s : State) :
    exec (.mswp p) s = execMswp p s := rfl
@[simp] theorem exec_mmul (p : Pfx) (t : BitVec 6) (z : Bool) (r : BitVec 4) (f : BitVec 3) (o : BitVec 5) (s : State) :
    exec (.mmul p t z r f o) s = execMmul p t z r f o s := rfl
@[simp] theorem exec_mzero (p : Pfx) (t : BitVec 6) (s : State) :
    exec (.mzero p t) s = execMzero p t s := rfl
@[simp] theorem exec_mdrain (p : Pfx) (t : BitVec 6) (clr : Bool) (code : BitVec 3) (r : BitVec 4) (o : BitVec 5) (s : State) :
    exec (.mdrain p t clr code r o) s = execMdrain p t clr code r o s := rfl
@[simp] theorem exec_mrsum (p : Pfx) (t : BitVec 6) (r : BitVec 4) (f : BitVec 3) (o : BitVec 5) (s : State) :
    exec (.mrsum p t r f o) s = execMrsum p t r f o s := rfl
@[simp] theorem exec_msave (p : Pfx) (obj : BitVec 2) (t : BitVec 6) (a : BitVec 8) (s : State) :
    exec (.msave p obj t a) s = execMsave p obj t a s := rfl
@[simp] theorem exec_mrest (p : Pfx) (obj : BitVec 2) (t : BitVec 6) (a : BitVec 8) (s : State) :
    exec (.mrest p obj t a) s = execMrest p obj t a s := rfl
@[simp] theorem exec_mstat (p : Pfx) (d : BitVec 8) (s : State) :
    exec (.mstat p d) s = execMstat p d s := rfl
@[simp] theorem exec_skd (p : Pfx) (d : BitVec 8) (a : BitVec 8) (w : Bool) (sp : Bool) (s : State) :
    exec (.skd p d a w sp) s = execSkd p d a w sp s := rfl
@[simp] theorem exec_skh (p : Pfx) (d : BitVec 8) (a : BitVec 8) (w : Bool) (sp : Bool) (s : State) :
    exec (.skh p d a w sp) s = execSkh p d a w sp s := rfl
@[simp] theorem exec_skq (p : Pfx) (d : BitVec 8) (a : BitVec 8) (sp : Bool) (s : State) :
    exec (.skq p d a sp) s = execSkq p d a sp s := rfl
@[simp] theorem exec_skm (p : Pfx) (d : BitVec 8) (a : BitVec 8) (kind : BitVec 2) (sp : Bool) (s : State) :
    exec (.skm p d a kind sp) s = execSkm p d a kind sp s := rfl
@[simp] theorem exec_skqv (p : Pfx) (d : BitVec 8) (a : BitVec 8) (sp : Bool) (s : State) :
    exec (.skqv p d a sp) s = execSkqv p d a sp s := rfl
@[simp] theorem exec_skest (p : Pfx) (d : BitVec 8) (a : BitVec 8) (sp : Bool) (s : State) :
    exec (.skest p d a sp) s = execSkest p d a sp s := rfl
@[simp] theorem exec_sktop (p : Pfx) (d : BitVec 8) (a : BitVec 8) (sp : Bool) (s : State) :
    exec (.sktop p d a sp) s = execSktop p d a sp s := rfl
@[simp] theorem exec_sksd (p : Pfx) (d : BitVec 8) (a : BitVec 8) (kind : BitVec 2) (sp : Bool) (s : State) :
    exec (.sksd p d a kind sp) s = execSksd p d a kind sp s := rfl
@[simp] theorem exec_xadd (p : Pfx) (d : BitVec 8) (a : BitVec 8) (w : Bool) (sp : Bool) (s : State) :
    exec (.xadd p d a w sp) s = execXadd p d a w sp s := rfl
@[simp] theorem exec_xrnd (p : Pfx) (d : BitVec 8) (a : BitVec 8) (w : Bool) (sp : Bool) (s : State) :
    exec (.xrnd p d a w sp) s = execXrnd p d a w sp s := rfl
@[simp] theorem exec_xclr (p : Pfx) (a : BitVec 8) (v : Bool) (sp : Bool) (s : State) :
    exec (.xclr p a v sp) s = execXclr p a v sp s := rfl
@[simp] theorem exec_xcp (p : Pfx) (d : BitVec 4) (a : BitVec 4) (s : State) :
    exec (.xcp p d a) s = execXcp p d a s := rfl
@[simp] theorem exec_xcpFill (p : Pfx) (d : BitVec 4) (a : BitVec 8) (s : State) :
    exec (.xcpFill p d a) s = execXcpFill p d a s := rfl
@[simp] theorem exec_bat (p : Pfx) (d : BitVec 8) (s : State) :
    exec (.bat p d) s = execBat p d s := rfl
@[simp] theorem exec_wbat (a : BitVec 8) (s : State) :
    exec (.wbat a) s = execWbat a s := rfl
@[simp] theorem exec_push (d : BitVec 8) (a : BitVec 8) (x : BitVec 4) (s : State) :
    exec (.push d a x) s = execPush d a x s := rfl
@[simp] theorem exec_dld (p : Pfx) (d : BitVec 4) (a : BitVec 8) (k : BitVec 4) (s : State) :
    exec (.dld p d a k) s = execDld p d a k s := rfl
@[simp] theorem exec_fmt (p : Pfx) (d : BitVec 3) (a : BitVec 8) (k : BitVec 4) (s : State) :
    exec (.fmt p d a k) s = execFmt p d a k s := rfl
@[simp] theorem exec_emit (a : BitVec 8) (s : State) :
    exec (.emit a) s = execEmit a s := rfl
@[simp] theorem exec_emitx (d : BitVec 8) (a : BitVec 8) (x : BitVec 4) (s : State) :
    exec (.emitx d a x) s = execEmitx d a x s := rfl
@[simp] theorem exec_ecl (a : BitVec 8) (q : BitVec 2) (s : State) :
    exec (.ecl a q) s = execEcl a q s := rfl
@[simp] theorem exec_ecln (d : BitVec 8) (a : BitVec 8) (q : BitVec 2) (s : State) :
    exec (.ecln d a q) s = execEcln d a q s := rfl
@[simp] theorem exec_eqfree (d : BitVec 8) (q : BitVec 2) (s : State) :
    exec (.eqfree d q) s = execEqfree d q s := rfl
@[simp] theorem exec_csrr (d : BitVec 8) (a : BitVec 8) (x : BitVec 4) (s : State) :
    exec (.csrr d a x) s = execCsrr d a x s := rfl
@[simp] theorem exec_csrw (d : BitVec 8) (a : BitVec 8) (x : BitVec 4) (s : State) :
    exec (.csrw d a x) s = execCsrw d a x s := rfl
@[simp] theorem exec_tret (s : State) :
    exec .tret s = execTret s := rfl
@[simp] theorem exec_prio (x : BitVec 4) (s : State) :
    exec (.prio x) s = execPrio x s := rfl
@[simp] theorem exec_hint (x : BitVec 4) (s : State) :
    exec (.hint x) s = execHint x s := rfl
@[simp] theorem exec_coldReset (b : BringUp) (s : State) :
    exec (.coldReset b) s = execColdReset b s := rfl
@[simp] theorem exec_warmReset (b : BringUp) (s : State) :
    exec (.warmReset b) s = execWarmReset b s := rfl
@[simp] theorem exec_functionLevelReset (fn : Nat) (s : State) :
    exec (.functionLevelReset fn) s = execFunctionLevelReset fn s := rfl
@[simp] theorem exec_thermalTripHold (s : State) :
    exec .thermalTripHold s = execThermalTripHold s := rfl
@[simp] theorem exec_thermtrip (below90 : Bool) (b : BringUp) (s : State) :
    exec (.thermtrip below90 b) s = execThermtrip below90 b s := rfl
@[simp] theorem exec_clockLevelStep (avgW : Nat) (maxTemp : Nat) (windowCool : Bool) (windowHot : Bool) (s : State) :
    exec (.clockLevelStep avgW maxTemp windowCool windowHot) s = execClockLevelStep avgW maxTemp windowCool windowHot s := rfl
@[simp] theorem exec_powerWindowEnd (means : List (Nat × Nat)) (hot : Bool) (s : State) :
    exec (.powerWindowEnd means hot) s = execPowerWindowEnd means hot s := rfl
@[simp] theorem exec_bandwidthWindow (s : State) :
    exec .bandwidthWindow s = execBandwidthWindow s := rfl
@[simp] theorem exec_pcieConfigRequest (s : State) :
    exec .pcieConfigRequest s = execPcieConfigRequest s := rfl
@[simp] theorem exec_registerWrite (fn : Nat) (off : Nat) (val : BitVec 64) (s : State) :
    exec (.registerWrite fn off val) s = execRegisterWrite fn off val s := rfl
@[simp] theorem exec_bar4Read (fn : Nat) (off : Nat) (n : Nat) (s : State) :
    exec (.bar4Read fn off n) s = execBar4Read fn off n s := rfl
@[simp] theorem exec_bar4Write (fn : Nat) (off : Nat) (data : List (BitVec 8)) (s : State) :
    exec (.bar4Write fn off data) s = execBar4Write fn off data s := rfl
@[simp] theorem exec_queueRegisterWrite (fn : Nat) (q : Nat) (off : Nat) (val : BitVec 64) (s : State) :
    exec (.queueRegisterWrite fn q off val) s = execQueueRegisterWrite fn q off val s := rfl
@[simp] theorem exec_doorbell (fn : Nat) (q : Nat) (off : Nat) (v : BitVec 64) (s : State) :
    exec (.doorbell fn q off v) s = execDoorbell fn q off v s := rfl
@[simp] theorem exec_chpwrWrite (val : BitVec 64) (s : State) :
    exec (.chpwrWrite val) s = execChpwrWrite val s := rfl
@[simp] theorem exec_linkEnable (n : Nat) (en : Bool) (s : State) :
    exec (.linkEnable n en) s = execLinkEnable n en s := rfl
@[simp] theorem exec_ctxCreate (fn : Nat) (s : State) :
    exec (.ctxCreate fn) s = execCtxCreate fn s := rfl
@[simp] theorem exec_ctxCreateResume (fn : Nat) (s : State) :
    exec (.ctxCreateResume fn) s = execCtxCreateResume fn s := rfl
@[simp] theorem exec_ctxRetire (fn : Nat) (s : State) :
    exec (.ctxRetire fn) s = execCtxRetire fn s := rfl
@[simp] theorem exec_queueBind (fn : Nat) (s : State) :
    exec (.queueBind fn) s = execQueueBind fn s := rfl
@[simp] theorem exec_vfConfig (fn : Nat) (s : State) :
    exec (.vfConfig fn) s = execVfConfig fn s := rfl
@[simp] theorem exec_attest (fn : Nat) (s : State) :
    exec (.attest fn) s = execAttest fn s := rfl
@[simp] theorem exec_certRead (fn : Nat) (s : State) :
    exec (.certRead fn) s = execCertRead fn s := rfl
@[simp] theorem exec_preempt (fn : Nat) (s : State) :
    exec (.preempt fn) s = execPreempt fn s := rfl
@[simp] theorem exec_resume (fn : Nat) (s : State) :
    exec (.resume fn) s = execResume fn s := rfl
@[simp] theorem exec_ringEvict (fn : Nat) (s : State) :
    exec (.ringEvict fn) s = execRingEvict fn s := rfl
@[simp] theorem exec_drain (tr : Nat) (s : State) :
    exec (.drain tr) s = execDrain tr s := rfl
@[simp] theorem exec_confirm (tr : Nat) (s : State) :
    exec (.confirm tr) s = execConfirm tr s := rfl
@[simp] theorem exec_migrate (tr : Nat) (s : State) :
    exec (.migrate tr) s = execMigrate tr s := rfl
@[simp] theorem exec_exportsRequest (tr : Nat) (s : State) :
    exec (.exportsRequest tr) s = execExportsRequest tr s := rfl
@[simp] theorem exec_translationRequestDone (tr : Nat) (s : State) :
    exec (.translationRequestDone tr) s = execTranslationRequestDone tr s := rfl
@[simp] theorem exec_linkTraining (n : Nat) (farId : BitVec 6) (farAccepts : Bool) (s : State) :
    exec (.linkTraining n farId farAccepts) s = execLinkTraining n farId farAccepts s := rfl
@[simp] theorem exec_linkFailure (n : Nat) (s : State) :
    exec (.linkFailure n) s = execLinkFailure n s := rfl
@[simp] theorem exec_frameDiscard (n : Nat) (s : State) :
    exec (.frameDiscard n) s = execFrameDiscard n s := rfl
@[simp] theorem exec_replayRequest (n : Nat) (fcnt : Nat) (s : State) :
    exec (.replayRequest n fcnt) s = execReplayRequest n fcnt s := rfl
@[simp] theorem exec_rekey (n : Nat) (s : State) :
    exec (.rekey n) s = execRekey n s := rfl
@[simp] theorem exec_heartbeatTimer (n : Nat) (s : State) :
    exec (.heartbeatTimer n) s = execHeartbeatTimer n s := rfl
@[simp] theorem exec_readRequest (m : Msg) (s : State) :
    exec (.readRequest m) s = execReadRequest m s := rfl
@[simp] theorem exec_writeRequest (m : Msg) (s : State) :
    exec (.writeRequest m) s = execWriteRequest m s := rfl
@[simp] theorem exec_readResponse (m : Msg) (s : State) :
    exec (.readResponse m) s = execReadResponse m s := rfl
@[simp] theorem exec_writeAcknowledgement (m : Msg) (s : State) :
    exec (.writeAcknowledgement m) s = execWriteAcknowledgement m s := rfl
@[simp] theorem exec_remoteOpNoReturn (m : Msg) (s : State) :
    exec (.remoteOpNoReturn m) s = execRemoteOpNoReturn m s := rfl
@[simp] theorem exec_remoteOpWithReturn (m : Msg) (s : State) :
    exec (.remoteOpWithReturn m) s = execRemoteOpWithReturn m s := rfl
@[simp] theorem exec_remoteOpResponse (m : Msg) (s : State) :
    exec (.remoteOpResponse m) s = execRemoteOpResponse m s := rfl
@[simp] theorem exec_collectiveChunk (m : Msg) (s : State) :
    exec (.collectiveChunk m) s = execCollectiveChunk m s := rfl
@[simp] theorem exec_collectiveCredit (m : Msg) (s : State) :
    exec (.collectiveCredit m) s = execCollectiveCredit m s := rfl
@[simp] theorem exec_translationDrain (m : Msg) (s : State) :
    exec (.translationDrain m) s = execTranslationDrain m s := rfl
@[simp] theorem exec_translationConfirm (m : Msg) (s : State) :
    exec (.translationConfirm m) s = execTranslationConfirm m s := rfl
@[simp] theorem exec_peerConfirmComplete (pc : Nat) (s : State) :
    exec (.peerConfirmComplete pc) s = execPeerConfirmComplete pc s := rfl
@[simp] theorem exec_translationAcknowledgement (m : Msg) (s : State) :
    exec (.translationAcknowledgement m) s = execTranslationAcknowledgement m s := rfl
@[simp] theorem exec_resetNotice (m : Msg) (s : State) :
    exec (.resetNotice m) s = execResetNotice m s := rfl
@[simp] theorem exec_powerDownNotice (m : Msg) (s : State) :
    exec (.powerDownNotice m) s = execPowerDownNotice m s := rfl
@[simp] theorem exec_heartbeat (m : Msg) (s : State) :
    exec (.heartbeat m) s = execHeartbeat m s := rfl
@[simp] theorem exec_peerLossTimeout (peer : Nat) (s : State) :
    exec (.peerLossTimeout peer) s = execPeerLossTimeout peer s := rfl
@[simp] theorem exec_launchRecord (fn : Nat) (q : Nat) (s : State) :
    exec (.launchRecord fn q) s = execLaunchRecord fn q s := rfl
@[simp] theorem exec_takeLease (l : Nat) (s : State) :
    exec (.takeLease l) s = execTakeLease l s := rfl
@[simp] theorem exec_slotAssignment (l : Nat) (s : State) :
    exec (.slotAssignment l) s = execSlotAssignment l s := rfl
@[simp] theorem exec_clusterPlacement (l : Nat) (s : State) :
    exec (.clusterPlacement l) s = execClusterPlacement l s := rfl
@[simp] theorem exec_oldestClusterHold (s : State) :
    exec .oldestClusterHold s = execOldestClusterHold s := rfl
@[simp] theorem exec_poolZeroing (core : Nat) (s : State) :
    exec (.poolZeroing core) s = execPoolZeroing core s := rfl
@[simp] theorem exec_dispatch (team : Nat) (s : State) :
    exec (.dispatch team) s = execDispatch team s := rfl
@[simp] theorem exec_parallelPreemption (l : Nat) (s : State) :
    exec (.parallelPreemption l) s = execParallelPreemption l s := rfl
@[simp] theorem exec_cooperativeSave (team : Nat) (g : Nat) (s : State) :
    exec (.cooperativeSave team g) s = execCooperativeSave team g s := rfl
@[simp] theorem exec_forcedSave (team : Nat) (g : Nat) (s : State) :
    exec (.forcedSave team g) s = execForcedSave team g s := rfl
@[simp] theorem exec_gridCompletion (l : Nat) (s : State) :
    exec (.gridCompletion l) s = execGridCompletion l s := rfl
@[simp] theorem exec_sealRecord (sl : Nat) (s : State) :
    exec (.sealRecord sl) s = execSealRecord sl s := rfl
@[simp] theorem exec_watchdog (team : Nat) (g : Nat) (s : State) :
    exec (.watchdog team g) s = execWatchdog team g s := rfl
@[simp] theorem exec_waitingEntryActivation (team : Nat) (g : Nat) (e : Nat) (s : State) :
    exec (.waitingEntryActivation team g e) s = execWaitingEntryActivation team g e s := rfl
@[simp] theorem exec_serialStep (team : Nat) (g : Nat) (e : Nat) (s : State) :
    exec (.serialStep team g e) s = execSerialStep team g e s := rfl
@[simp] theorem exec_homeAccess (op : Nat) (s : State) :
    exec (.homeAccess op) s = execHomeAccess op s := rfl
@[simp] theorem exec_mergingFillReturn (op : Nat) (s : State) :
    exec (.mergingFillReturn op) s = execMergingFillReturn op s := rfl
@[simp] theorem exec_loadCompletion (op : Nat) (s : State) :
    exec (.loadCompletion op) s = execLoadCompletion op s := rfl
@[simp] theorem exec_storePerformed (op : Nat) (s : State) :
    exec (.storePerformed op) s = execStorePerformed op s := rfl
@[simp] theorem exec_tileOpCompletion (core : Nat) (s : State) :
    exec (.tileOpCompletion core) s = execTileOpCompletion core s := rfl
@[simp] theorem exec_migrating (team : Nat) (g : Nat) (s : State) :
    exec (.migrating team g) s = execMigrating team g s := rfl
@[simp] theorem exec_replay (team : Nat) (g : Nat) (s : State) :
    exec (.replay team g) s = execReplay team g s := rfl
@[simp] theorem exec_softError (team : Nat) (g : Nat) (s : State) :
    exec (.softError team g) s = execSoftError team g s := rfl
@[simp] theorem exec_memUncorrectable (l : Nat) (s : State) :
    exec (.memUncorrectable l) s = execMemUncorrectable l s := rfl
@[simp] theorem exec_taskEnd (l : Nat) (why : TaskEnd) (s : State) :
    exec (.taskEnd l why) s = execTaskEnd l why s := rfl
@[simp] theorem exec_remoteOpApply (op : Nat) (k : Nat) (resid : Nat) (s : State) :
    exec (.remoteOpApply op k resid) s = execRemoteOpApply op k resid s := rfl
@[simp] theorem exec_ropStatusReturn (op : Nat) (k : Nat) (s : State) :
    exec (.ropStatusReturn op k) s = execRopStatusReturn op k s := rfl
@[simp] theorem exec_combiningAgeOut (e : Nat) (s : State) :
    exec (.combiningAgeOut e) s = execCombiningAgeOut e s := rfl
@[simp] theorem exec_lockLapse (pch : Nat) (s : State) :
    exec (.lockLapse pch) s = execLockLapse pch s := rfl
@[simp] theorem exec_cuuWatchdog (pch : Nat) (s : State) :
    exec (.cuuWatchdog pch) s = execCuuWatchdog pch s := rfl
@[simp] theorem exec_idleTimer (pch : Nat) (s : State) :
    exec (.idleTimer pch) s = execIdleTimer pch s := rfl
@[simp] theorem exec_channelPowerEntry (pch : Nat) (s : State) :
    exec (.channelPowerEntry pch) s = execChannelPowerEntry pch s := rfl
@[simp] theorem exec_channelWake (pch : Nat) (s : State) :
    exec (.channelWake pch) s = execChannelWake pch s := rfl
@[simp] theorem exec_slotPass (core : Nat) (s : State) :
    exec (.slotPass core) s = execSlotPass core s := rfl
@[simp] theorem exec_junctionPass (slot : Nat) (s : State) :
    exec (.junctionPass slot) s = execJunctionPass slot s := rfl
@[simp] theorem exec_notag (core : Nat) (tid : Nat) (s : State) :
    exec (.notag core tid) s = execNotag core tid s := rfl
@[simp] theorem exec_copy (eng : Nat) (s : State) :
    exec (.copy eng) s = execCopy eng s := rfl
@[simp] theorem exec_fill (eng : Nat) (s : State) :
    exec (.fill eng) s = execFill eng s := rfl
@[simp] theorem exec_chunkEnd (eng : Nat) (s : State) :
    exec (.chunkEnd eng) s = execChunkEnd eng s := rfl
@[simp] theorem exec_gload (eng : Nat) (s : State) :
    exec (.gload eng) s = execGload eng s := rfl
@[simp] theorem exec_grun (eng : Nat) (s : State) :
    exec (.grun eng) s = execGrun eng s := rfl
@[simp] theorem exec_nodeCompletion (eng : Nat) (node : Nat) (s : State) :
    exec (.nodeCompletion eng node) s = execNodeCompletion eng node s := rfl
@[simp] theorem exec_seal (eng : Nat) (s : State) :
    exec (.seal eng) s = execSeal eng s := rfl
@[simp] theorem exec_acquireGrant (op : Nat) (s : State) :
    exec (.acquireGrant op) s = execAcquireGrant op s := rfl
@[simp] theorem exec_releaseAcknowledged (op : Nat) (s : State) :
    exec (.releaseAcknowledged op) s = execReleaseAcknowledged op s := rfl
@[simp] theorem exec_barrierCompletion (team : Nat) (cluster : Bool) (s : State) :
    exec (.barrierCompletion team cluster) s = execBarrierCompletion team cluster s := rfl
@[simp] theorem exec_timelineReached (team : Nat) (g : Nat) (e : Nat) (s : State) :
    exec (.timelineReached team g e) s = execTimelineReached team g e s := rfl
@[simp] theorem exec_batchComplete (team : Nat) (g : Nat) (e : Nat) (s : State) :
    exec (.batchComplete team g e) s = execBatchComplete team g e s := rfl
@[simp] theorem exec_counterWaitEnd (team : Nat) (g : Nat) (e : Nat) (s : State) :
    exec (.counterWaitEnd team g e) s = execCounterWaitEnd team g e s := rfl
@[simp] theorem exec_takeWake (team : Nat) (g : Nat) (e : Nat) (s : State) :
    exec (.takeWake team g e) s = execTakeWake team g e s := rfl
@[simp] theorem exec_eclStallEnd (team : Nat) (s : State) :
    exec (.eclStallEnd team) s = execEclStallEnd team s := rfl
@[simp] theorem exec_unassignedEncoding (why : BadWord) (s : State) :
    exec (.unassignedEncoding why) s = execUnassignedEncoding why s := rfl
@[simp] theorem exec_forcedSaveReplay (team : Nat) (g : Nat) (s : State) :
    exec (.forcedSaveReplay team g) s = execForcedSaveReplay team g s := rfl
@[simp] theorem exec_rdefCompletion (op : Nat) (s : State) :
    exec (.rdefCompletion op) s = execRdefCompletion op s := rfl
@[simp] theorem exec_retirementSweepEnd (ctx : Nat) (s : State) :
    exec (.retirementSweepEnd ctx) s = execRetirementSweepEnd ctx s := rfl
@[simp] theorem exec_recordReadReturn (op : Nat) (s : State) :
    exec (.recordReadReturn op) s = execRecordReadReturn op s := rfl

theorem sigOf_add16 (p : Pfx) (vd : BitVec 6) (vb : BitVec 5) : sigOf (.add16 p vd vb) =
    { vr := [vd.toNat, vb.toNat], vw := [vd.toNat], mr := [p.mask.toNat], unit := 1 } := rfl
theorem sigOf_addImm16 (p : Pfx) (vd : BitVec 6) (vb : BitVec 5) : sigOf (.addImm16 p vd vb) =
    { vr := [vd.toNat], vw := [vd.toNat], mr := [p.mask.toNat], unit := 1 } := rfl
theorem sigOf_sub16 (p : Pfx) (vd : BitVec 6) (vb : BitVec 5) : sigOf (.sub16 p vd vb) =
    { vr := [vd.toNat, vb.toNat], vw := [vd.toNat], mr := [p.mask.toNat], unit := 1 } := rfl
theorem sigOf_mul16 (p : Pfx) (vd : BitVec 6) (vb : BitVec 5) : sigOf (.mul16 p vd vb) =
    { vr := [vd.toNat, vb.toNat], vw := [vd.toNat], mr := [p.mask.toNat], unit := 1 } := rfl
theorem sigOf_and16 (p : Pfx) (vd : BitVec 6) (vb : BitVec 5) : sigOf (.and16 p vd vb) =
    { vr := [vd.toNat, vb.toNat], vw := [vd.toNat], mr := [p.mask.toNat], unit := 1 } := rfl
theorem sigOf_or16 (p : Pfx) (vd : BitVec 6) (vb : BitVec 5) : sigOf (.or16 p vd vb) =
    { vr := [vd.toNat, vb.toNat], vw := [vd.toNat], mr := [p.mask.toNat], unit := 1 } := rfl
theorem sigOf_xor16 (p : Pfx) (vd : BitVec 6) (vb : BitVec 5) : sigOf (.xor16 p vd vb) =
    { vr := [vd.toNat, vb.toNat], vw := [vd.toNat], mr := [p.mask.toNat], unit := 1 } := rfl
theorem sigOf_shl16 (p : Pfx) (vd : BitVec 6) (vb : BitVec 5) : sigOf (.shl16 p vd vb) =
    { vr := [vd.toNat], vw := [vd.toNat], mr := [p.mask.toNat], unit := 1 } := rfl
theorem sigOf_shr16 (p : Pfx) (vd : BitVec 6) (vb : BitVec 5) : sigOf (.shr16 p vd vb) =
    { vr := [vd.toNat], vw := [vd.toNat], mr := [p.mask.toNat], unit := 1 } := rfl
theorem sigOf_sra16 (p : Pfx) (vd : BitVec 6) (vb : BitVec 5) : sigOf (.sra16 p vd vb) =
    { vr := [vd.toNat], vw := [vd.toNat], mr := [p.mask.toNat], unit := 1 } := rfl
theorem sigOf_min16 (p : Pfx) (vd : BitVec 6) (vb : BitVec 5) : sigOf (.min16 p vd vb) =
    { vr := [vd.toNat, vb.toNat], vw := [vd.toNat], mr := [p.mask.toNat], unit := 1 } := rfl
theorem sigOf_max16 (p : Pfx) (vd : BitVec 6) (vb : BitVec 5) : sigOf (.max16 p vd vb) =
    { vr := [vd.toNat, vb.toNat], vw := [vd.toNat], mr := [p.mask.toNat], unit := 1 } := rfl
theorem sigOf_minu16 (p : Pfx) (vd : BitVec 6) (vb : BitVec 5) : sigOf (.minu16 p vd vb) =
    { vr := [vd.toNat, vb.toNat], vw := [vd.toNat], mr := [p.mask.toNat], unit := 1 } := rfl
theorem sigOf_maxu16 (p : Pfx) (vd : BitVec 6) (vb : BitVec 5) : sigOf (.maxu16 p vd vb) =
    { vr := [vd.toNat, vb.toNat], vw := [vd.toNat], mr := [p.mask.toNat], unit := 1 } := rfl
theorem sigOf_fadd16 (p : Pfx) (vd : BitVec 6) (vb : BitVec 5) : sigOf (.fadd16 p vd vb) =
    { vr := [vd.toNat, vb.toNat], vw := [vd.toNat], mr := [p.mask.toNat], unit := 1 } := rfl
theorem sigOf_fmul16 (p : Pfx) (vd : BitVec 6) (vb : BitVec 5) : sigOf (.fmul16 p vd vb) =
    { vr := [vd.toNat, vb.toNat], vw := [vd.toNat], mr := [p.mask.toNat], unit := 1 } := rfl
theorem sigOf_add (p : Pfx) (d : BitVec 8) (a : BitVec 8) (b : BitVec 8) (u : Bool) : sigOf (.add p d a b u) =
    { vr := if u then [a.toNat] else [a.toNat, b.toNat], sr := if u then [b.toNat] else [], vw := [d.toNat], mr := [p.mask.toNat], unit := 1 } := rfl
theorem sigOf_sub (p : Pfx) (d : BitVec 8) (a : BitVec 8) (b : BitVec 8) (u : Bool) : sigOf (.sub p d a b u) =
    { vr := if u then [a.toNat] else [a.toNat, b.toNat], sr := if u then [b.toNat] else [], vw := [d.toNat], mr := [p.mask.toNat], unit := 1 } := rfl
theorem sigOf_and (p : Pfx) (d : BitVec 8) (a : BitVec 8) (b : BitVec 8) (u : Bool) : sigOf (.and p d a b u) =
    { vr := if u then [a.toNat] else [a.toNat, b.toNat], sr := if u then [b.toNat] else [], vw := [d.toNat], mr := [p.mask.toNat], unit := 1 } := rfl
theorem sigOf_or (p : Pfx) (d : BitVec 8) (a : BitVec 8) (b : BitVec 8) (u : Bool) : sigOf (.or p d a b u) =
    { vr := if u then [a.toNat] else [a.toNat, b.toNat], sr := if u then [b.toNat] else [], vw := [d.toNat], mr := [p.mask.toNat], unit := 1 } := rfl
theorem sigOf_xor (p : Pfx) (d : BitVec 8) (a : BitVec 8) (b : BitVec 8) (u : Bool) : sigOf (.xor p d a b u) =
    { vr := if u then [a.toNat] else [a.toNat, b.toNat], sr := if u then [b.toNat] else [], vw := [d.toNat], mr := [p.mask.toNat], unit := 1 } := rfl
theorem sigOf_shl (p : Pfx) (d : BitVec 8) (a : BitVec 8) (b : BitVec 8) (u : Bool) : sigOf (.shl p d a b u) =
    { vr := if u then [a.toNat] else [a.toNat, b.toNat], sr := if u then [b.toNat] else [], vw := [d.toNat], mr := [p.mask.toNat], unit := 1 } := rfl
theorem sigOf_shr (p : Pfx) (d : BitVec 8) (a : BitVec 8) (b : BitVec 8) (u : Bool) : sigOf (.shr p d a b u) =
    { vr := if u then [a.toNat] else [a.toNat, b.toNat], sr := if u then [b.toNat] else [], vw := [d.toNat], mr := [p.mask.toNat], unit := 1 } := rfl
theorem sigOf_sra (p : Pfx) (d : BitVec 8) (a : BitVec 8) (b : BitVec 8) (u : Bool) : sigOf (.sra p d a b u) =
    { vr := if u then [a.toNat] else [a.toNat, b.toNat], sr := if u then [b.toNat] else [], vw := [d.toNat], mr := [p.mask.toNat], unit := 1 } := rfl
theorem sigOf_mul (p : Pfx) (d : BitVec 8) (a : BitVec 8) (b : BitVec 8) (u : Bool) : sigOf (.mul p d a b u) =
    { vr := if u then [a.toNat] else [a.toNat, b.toNat], sr := if u then [b.toNat] else [], vw := [d.toNat], mr := [p.mask.toNat], unit := 1 } := rfl
theorem sigOf_mad (p : Pfx) (d : BitVec 8) (a : BitVec 8) (b : BitVec 8) (u : Bool) : sigOf (.mad p d a b u) =
    { vr := if u then [a.toNat, d.toNat] else [a.toNat, b.toNat, d.toNat], sr := if u then [b.toNat] else [], vw := [d.toNat], mr := [p.mask.toNat], unit := 1 } := rfl
theorem sigOf_mulh (p : Pfx) (d : BitVec 8) (a : BitVec 8) (b : BitVec 8) (u : Bool) : sigOf (.mulh p d a b u) =
    { vr := if u then [a.toNat] else [a.toNat, b.toNat], sr := if u then [b.toNat] else [], vw := [d.toNat], mr := [p.mask.toNat], unit := 1 } := rfl
theorem sigOf_mulhu (p : Pfx) (d : BitVec 8) (a : BitVec 8) (b : BitVec 8) (u : Bool) : sigOf (.mulhu p d a b u) =
    { vr := if u then [a.toNat] else [a.toNat, b.toNat], sr := if u then [b.toNat] else [], vw := [d.toNat], mr := [p.mask.toNat], unit := 1 } := rfl
theorem sigOf_min (p : Pfx) (d : BitVec 8) (a : BitVec 8) (b : BitVec 8) (u : Bool) : sigOf (.min p d a b u) =
    { vr := if u then [a.toNat] else [a.toNat, b.toNat], sr := if u then [b.toNat] else [], vw := [d.toNat], mr := [p.mask.toNat], unit := 1 } := rfl
theorem sigOf_minu (p : Pfx) (d : BitVec 8) (a : BitVec 8) (b : BitVec 8) (u : Bool) : sigOf (.minu p d a b u) =
    { vr := if u then [a.toNat] else [a.toNat, b.toNat], sr := if u then [b.toNat] else [], vw := [d.toNat], mr := [p.mask.toNat], unit := 1 } := rfl
theorem sigOf_max (p : Pfx) (d : BitVec 8) (a : BitVec 8) (b : BitVec 8) (u : Bool) : sigOf (.max p d a b u) =
    { vr := if u then [a.toNat] else [a.toNat, b.toNat], sr := if u then [b.toNat] else [], vw := [d.toNat], mr := [p.mask.toNat], unit := 1 } := rfl
theorem sigOf_maxu (p : Pfx) (d : BitVec 8) (a : BitVec 8) (b : BitVec 8) (u : Bool) : sigOf (.maxu p d a b u) =
    { vr := if u then [a.toNat] else [a.toNat, b.toNat], sr := if u then [b.toNat] else [], vw := [d.toNat], mr := [p.mask.toNat], unit := 1 } := rfl
theorem sigOf_bfx (p : Pfx) (d : BitVec 8) (a : BitVec 8) (b : BitVec 8) (u : Bool) : sigOf (.bfx p d a b u) =
    { vr := if u then [a.toNat] else [a.toNat, b.toNat], sr := if u then [b.toNat] else [], vw := [d.toNat], mr := [p.mask.toNat], unit := 1 } := rfl
theorem sigOf_bfi (p : Pfx) (d : BitVec 8) (a : BitVec 8) (b : BitVec 8) (u : Bool) : sigOf (.bfi p d a b u) =
    { vr := if u then [a.toNat, d.toNat] else [a.toNat, b.toNat, d.toNat], sr := if u then [b.toNat] else [], vw := [d.toNat], mr := [p.mask.toNat], unit := 1 } := rfl
theorem sigOf_cmp (p : Pfx) (c : BitVec 4) (m : BitVec 4) (a : BitVec 8) (b : BitVec 8) (u : Bool) : sigOf (.cmp p c m a b u) =
    { vr := if u then [a.toNat] else [a.toNat, b.toNat], sr := if u then [b.toNat] else [], md := some m.toNat, mr := [p.mask.toNat], unit := 1 } := rfl
theorem sigOf_fcmp (p : Pfx) (c : BitVec 4) (m : BitVec 4) (a : BitVec 8) (b : BitVec 8) (u : Bool) : sigOf (.fcmp p c m a b u) =
    { vr := if u then [a.toNat] else [a.toNat, b.toNat], sr := if u then [b.toNat] else [], md := some m.toNat, mr := [p.mask.toNat], unit := 1 } := rfl
theorem sigOf_fadd (p : Pfx) (d : BitVec 8) (a : BitVec 8) (b : BitVec 8) (u : Bool) : sigOf (.fadd p d a b u) =
    { vr := if u then [a.toNat] else [a.toNat, b.toNat], sr := if u then [b.toNat] else [], vw := [d.toNat], mr := [p.mask.toNat], unit := 1 } := rfl
theorem sigOf_fsub (p : Pfx) (d : BitVec 8) (a : BitVec 8) (b : BitVec 8) (u : Bool) : sigOf (.fsub p d a b u) =
    { vr := if u then [a.toNat] else [a.toNat, b.toNat], sr := if u then [b.toNat] else [], vw := [d.toNat], mr := [p.mask.toNat], unit := 1 } := rfl
theorem sigOf_fmul (p : Pfx) (d : BitVec 8) (a : BitVec 8) (b : BitVec 8) (u : Bool) : sigOf (.fmul p d a b u) =
    { vr := if u then [a.toNat] else [a.toNat, b.toNat], sr := if u then [b.toNat] else [], vw := [d.toNat], mr := [p.mask.toNat], unit := 1 } := rfl
theorem sigOf_ffma (p : Pfx) (d : BitVec 8) (a : BitVec 8) (b : BitVec 8) (u : Bool) : sigOf (.ffma p d a b u) =
    { vr := if u then [a.toNat, d.toNat] else [a.toNat, b.toNat, d.toNat], sr := if u then [b.toNat] else [], vw := [d.toNat], mr := [p.mask.toNat], unit := 1 } := rfl
theorem sigOf_fmin (p : Pfx) (d : BitVec 8) (a : BitVec 8) (b : BitVec 8) (u : Bool) : sigOf (.fmin p d a b u) =
    { vr := if u then [a.toNat] else [a.toNat, b.toNat], sr := if u then [b.toNat] else [], vw := [d.toNat], mr := [p.mask.toNat], unit := 1 } := rfl
theorem sigOf_fmax (p : Pfx) (d : BitVec 8) (a : BitVec 8) (b : BitVec 8) (u : Bool) : sigOf (.fmax p d a b u) =
    { vr := if u then [a.toNat] else [a.toNat, b.toNat], sr := if u then [b.toNat] else [], vw := [d.toNat], mr := [p.mask.toNat], unit := 1 } := rfl
theorem sigOf_addImm (p : Pfx) (d : BitVec 8) (a : BitVec 8) (imm : Imm) : sigOf (.addImm p d a imm) =
    { vr := [a.toNat], vw := [d.toNat], mr := [p.mask.toNat], unit := 1 } := rfl
theorem sigOf_mulImm (p : Pfx) (d : BitVec 8) (a : BitVec 8) (imm : Imm) : sigOf (.mulImm p d a imm) =
    { vr := [a.toNat], vw := [d.toNat], mr := [p.mask.toNat], unit := 1 } := rfl
theorem sigOf_andImm (p : Pfx) (d : BitVec 8) (a : BitVec 8) (imm : Imm) : sigOf (.andImm p d a imm) =
    { vr := [a.toNat], vw := [d.toNat], mr := [p.mask.toNat], unit := 1 } := rfl
theorem sigOf_orImm (p : Pfx) (d : BitVec 8) (a : BitVec 8) (imm : Imm) : sigOf (.orImm p d a imm) =
    { vr := [a.toNat], vw := [d.toNat], mr := [p.mask.toNat], unit := 1 } := rfl
theorem sigOf_xorImm (p : Pfx) (d : BitVec 8) (a : BitVec 8) (imm : Imm) : sigOf (.xorImm p d a imm) =
    { vr := [a.toNat], vw := [d.toNat], mr := [p.mask.toNat], unit := 1 } := rfl
theorem sigOf_shlImm (p : Pfx) (d : BitVec 8) (a : BitVec 8) (imm : Imm) : sigOf (.shlImm p d a imm) =
    { vr := [a.toNat], vw := [d.toNat], mr := [p.mask.toNat], unit := 1 } := rfl
theorem sigOf_shrImm (p : Pfx) (d : BitVec 8) (a : BitVec 8) (imm : Imm) : sigOf (.shrImm p d a imm) =
    { vr := [a.toNat], vw := [d.toNat], mr := [p.mask.toNat], unit := 1 } := rfl
theorem sigOf_sraImm (p : Pfx) (d : BitVec 8) (a : BitVec 8) (imm : Imm) : sigOf (.sraImm p d a imm) =
    { vr := [a.toNat], vw := [d.toNat], mr := [p.mask.toNat], unit := 1 } := rfl
theorem sigOf_cmpImm (p : Pfx) (c : BitVec 4) (m : BitVec 4) (a : BitVec 8) (imm : Imm) : sigOf (.cmpImm p c m a imm) =
    { vr := [a.toNat], md := some m.toNat, mr := [p.mask.toNat], unit := 1 } := rfl
theorem sigOf_rcp (p : Pfx) (d : BitVec 8) (a : BitVec 8) : sigOf (.rcp p d a) =
    { vr := [a.toNat], vw := [d.toNat], mr := [p.mask.toNat], unit := 2 } := rfl
theorem sigOf_rsq (p : Pfx) (d : BitVec 8) (a : BitVec 8) : sigOf (.rsq p d a) =
    { vr := [a.toNat], vw := [d.toNat], mr := [p.mask.toNat], unit := 2 } := rfl
theorem sigOf_sqrt (p : Pfx) (d : BitVec 8) (a : BitVec 8) : sigOf (.sqrt p d a) =
    { vr := [a.toNat], vw := [d.toNat], mr := [p.mask.toNat], unit := 2 } := rfl
theorem sigOf_exp2 (p : Pfx) (d : BitVec 8) (a : BitVec 8) : sigOf (.exp2 p d a) =
    { vr := [a.toNat], vw := [d.toNat], mr := [p.mask.toNat], unit := 2 } := rfl
theorem sigOf_log2 (p : Pfx) (d : BitVec 8) (a : BitVec 8) : sigOf (.log2 p d a) =
    { vr := [a.toNat], vw := [d.toNat], mr := [p.mask.toNat], unit := 2 } := rfl
theorem sigOf_sin (p : Pfx) (d : BitVec 8) (a : BitVec 8) : sigOf (.sin p d a) =
    { vr := [a.toNat], vw := [d.toNat], mr := [p.mask.toNat], unit := 2 } := rfl
theorem sigOf_cos (p : Pfx) (d : BitVec 8) (a : BitVec 8) : sigOf (.cos p d a) =
    { vr := [a.toNat], vw := [d.toNat], mr := [p.mask.toNat], unit := 2 } := rfl
theorem sigOf_tanh (p : Pfx) (d : BitVec 8) (a : BitVec 8) : sigOf (.tanh p d a) =
    { vr := [a.toNat], vw := [d.toNat], mr := [p.mask.toNat], unit := 2 } := rfl
theorem sigOf_fabs (p : Pfx) (d : BitVec 8) (a : BitVec 8) : sigOf (.fabs p d a) =
    { vr := [a.toNat], vw := [d.toNat], mr := [p.mask.toNat], unit := 1 } := rfl
theorem sigOf_fneg (p : Pfx) (d : BitVec 8) (a : BitVec 8) : sigOf (.fneg p d a) =
    { vr := [a.toNat], vw := [d.toNat], mr := [p.mask.toNat], unit := 1 } := rfl
theorem sigOf_fclass (p : Pfx) (d : BitVec 8) (a : BitVec 8) : sigOf (.fclass p d a) =
    { vr := [a.toNat], vw := [d.toNat], mr := [p.mask.toNat], unit := 1 } := rfl
theorem sigOf_frnd (p : Pfx) (d : BitVec 8) (a : BitVec 8) : sigOf (.frnd p d a) =
    { vr := [a.toNat], vw := [d.toNat], mr := [p.mask.toNat], unit := 1 } := rfl
theorem sigOf_fcvt (p : Pfx) (d : BitVec 8) (a : BitVec 8) (x : BitVec 4) : sigOf (.fcvt p d a x) =
    { vr := [a.toNat], vw := [d.toNat], mr := [p.mask.toNat], unit := 1 } := rfl
theorem sigOf_not (p : Pfx) (d : BitVec 8) (a : BitVec 8) : sigOf (.not p d a) =
    { vr := [a.toNat], vw := [d.toNat], mr := [p.mask.toNat], unit := 1 } := rfl
theorem sigOf_abs (p : Pfx) (d : BitVec 8) (a : BitVec 8) : sigOf (.abs p d a) =
    { vr := [a.toNat], vw := [d.toNat], mr := [p.mask.toNat], unit := 1 } := rfl
theorem sigOf_neg (p : Pfx) (d : BitVec 8) (a : BitVec 8) : sigOf (.neg p d a) =
    { vr := [a.toNat], vw := [d.toNat], mr := [p.mask.toNat], unit := 1 } := rfl
theorem sigOf_pop (p : Pfx) (d : BitVec 8) (a : BitVec 8) : sigOf (.pop p d a) =
    { vr := [a.toNat], vw := [d.toNat], mr := [p.mask.toNat], unit := 1 } := rfl
theorem sigOf_clz (p : Pfx) (d : BitVec 8) (a : BitVec 8) : sigOf (.clz p d a) =
    { vr := [a.toNat], vw := [d.toNat], mr := [p.mask.toNat], unit := 1 } := rfl
theorem sigOf_sel (p : Pfx) (d : BitVec 8) (a : BitVec 8) (x : BitVec 4) : sigOf (.sel p d a x) =
    { vr := [a.toNat, d.toNat], vw := [d.toNat], mr := [x.toNat] ++ [p.mask.toNat], unit := 1 } := rfl
theorem sigOf_mand (p : Pfx) (d : BitVec 4) (a : BitVec 4) (k : BitVec 4) : sigOf (.mand p d a k) =
    { md := some d.toNat, mr := [a.toNat, k.toNat] ++ [p.mask.toNat], unit := 1 } := rfl
theorem sigOf_mor (p : Pfx) (d : BitVec 4) (a : BitVec 4) (k : BitVec 4) : sigOf (.mor p d a k) =
    { md := some d.toNat, mr := [a.toNat, k.toNat] ++ [p.mask.toNat], unit := 1 } := rfl
theorem sigOf_mxor (p : Pfx) (d : BitVec 4) (a : BitVec 4) (k : BitVec 4) : sigOf (.mxor p d a k) =
    { md := some d.toNat, mr := [a.toNat, k.toNat] ++ [p.mask.toNat], unit := 1 } := rfl
theorem sigOf_mnot (p : Pfx) (d : BitVec 4) (a : BitVec 4) : sigOf (.mnot p d a) =
    { md := some d.toNat, mr := [a.toNat] ++ [p.mask.toNat], unit := 1 } := rfl
theorem sigOf_mmov (p : Pfx) (d : BitVec 4) (a : BitVec 4) : sigOf (.mmov p d a) =
    { md := some d.toNat, mr := [a.toNat] ++ [p.mask.toNat], unit := 1 } := rfl
theorem sigOf_mpop (p : Pfx) (d : BitVec 8) (a : BitVec 4) : sigOf (.mpop p d a) =
    { vw := [d.toNat], mr := [a.toNat] ++ [p.mask.toNat], unit := 1 } := rfl
theorem sigOf_mfirst (p : Pfx) (d : BitVec 4) (a : BitVec 4) : sigOf (.mfirst p d a) =
    { md := some d.toNat, mr := [a.toNat] ++ [p.mask.toNat], unit := 1 } := rfl
theorem sigOf_mset (p : Pfx) (d : BitVec 4) (a : BitVec 8) : sigOf (.mset p d a) =
    { md := some d.toNat, vr := [a.toNat], mr := [p.mask.toNat], unit := 1 } := rfl
theorem sigOf_shfUp (p : Pfx) (d : BitVec 8) (a : BitVec 8) (x : BitVec 4) : sigOf (.shfUp p d a x) =
    { vr := [a.toNat], vw := [d.toNat], mr := [p.mask.toNat], unit := 1 } := rfl
theorem sigOf_shfDn (p : Pfx) (d : BitVec 8) (a : BitVec 8) (x : BitVec 4) : sigOf (.shfDn p d a x) =
    { vr := [a.toNat], vw := [d.toNat], mr := [p.mask.toNat], unit := 1 } := rfl
theorem sigOf_shfXor (p : Pfx) (d : BitVec 8) (a : BitVec 8) (x : BitVec 4) : sigOf (.shfXor p d a x) =
    { vr := [a.toNat], vw := [d.toNat], mr := [p.mask.toNat], unit := 1 } := rfl
theorem sigOf_shfRot (p : Pfx) (d : BitVec 8) (a : BitVec 8) (x : BitVec 4) : sigOf (.shfRot p d a x) =
    { vr := [a.toNat], vw := [d.toNat], mr := [p.mask.toNat], unit := 1 } := rfl
theorem sigOf_shfIdx (p : Pfx) (d : BitVec 8) (a : BitVec 8) : sigOf (.shfIdx p d a) =
    { vr := [a.toNat, d.toNat], vw := [d.toNat], mr := [p.mask.toNat], unit := 1 } := rfl
theorem sigOf_sct (p : Pfx) (d : BitVec 8) (a : BitVec 8) : sigOf (.sct p d a) =
    { vr := [a.toNat, d.toNat], vw := [d.toNat], mr := [p.mask.toNat], unit := 1 } := rfl
theorem sigOf_bcst (p : Pfx) (d : BitVec 8) (a : BitVec 8) : sigOf (.bcst p d a) =
    { vr := [a.toNat], vw := [d.toNat], mr := [p.mask.toNat], unit := 1 } := rfl
theorem sigOf_lred (p : Pfx) (d : BitVec 8) (a : BitVec 8) (x : BitVec 4) : sigOf (.lred p d a x) =
    { vr := [a.toNat], vw := [d.toNat], mr := [p.mask.toNat], unit := 1 } := rfl
theorem sigOf_scan (p : Pfx) (d : BitVec 8) (a : BitVec 8) (x : BitVec 4) : sigOf (.scan p d a x) =
    { vr := [a.toNat], vw := [d.toNat], mr := [p.mask.toNat], unit := 1 } := rfl
theorem sigOf_scanEx (p : Pfx) (d : BitVec 8) (a : BitVec 8) (x : BitVec 4) : sigOf (.scanEx p d a x) =
    { vr := [a.toNat], vw := [d.toNat], mr := [p.mask.toNat], unit := 1 } := rfl
theorem sigOf_tbl (p : Pfx) (d : BitVec 8) (a : BitVec 8) (n : BitVec 3) (fill : BitVec 4) : sigOf (.tbl p d a n fill) =
    { vw := [d.toNat], vr := d.toNat :: upto a.toNat (n.toNat + 1), mr := [p.mask.toNat], unit := 1 } := rfl
theorem sigOf_vote (p : Pfx) (d : BitVec 8) (a : BitVec 8) (x : BitVec 4) : sigOf (.vote p d a x) =
    { vr := [a.toNat], vw := [d.toNat], mr := [p.mask.toNat], unit := 1 } := rfl
theorem sigOf_lid (p : Pfx) (d : BitVec 8) : sigOf (.lid p d) =
    { vw := [d.toNat], mr := [p.mask.toNat], unit := 1 } := rfl
theorem sigOf_ld (p : Pfx) (m : MemArg) : sigOf (.ld p m) =
    { sr := [m.base.toNat], vw := (if m.size = 3 then [m.d.toNat, m.d.toNat + 1] else [m.d.toNat]), vr := [m.a.toNat], cls := [.load], mr := [p.mask.toNat], unit := 3 } := rfl
theorem sigOf_ldc (p : Pfx) (m : MemArg) : sigOf (.ldc p m) =
    { sr := [m.base.toNat], vw := (if m.size = 3 then [m.d.toNat, m.d.toNat + 1] else [m.d.toNat]), vr := [m.a.toNat], cls := [.load], mr := [p.mask.toNat], unit := 3 } := rfl
theorem sigOf_st (p : Pfx) (m : MemArg) : sigOf (.st p m) =
    { sr := [m.base.toNat], vr := m.a.toNat :: (if m.size = 3 then [m.d.toNat, m.d.toNat + 1] else [m.d.toNat]), cls := [.store], mr := [p.mask.toNat], unit := 3 } := rfl
theorem sigOf_stc (p : Pfx) (m : MemArg) : sigOf (.stc p m) =
    { sr := [m.base.toNat], vr := m.a.toNat :: (if m.size = 3 then [m.d.toNat, m.d.toNat + 1] else [m.d.toNat]), cls := [.store], mr := [p.mask.toNat], unit := 3 } := rfl
theorem sigOf_lds (p : Pfx) (m : MemArg) : sigOf (.lds p m) =
    { sr := [m.base.toNat], vw := (if m.size = 3 then [m.d.toNat, m.d.toNat + 1] else [m.d.toNat]), vr := [m.a.toNat], cls := [.load], mr := [p.mask.toNat], unit := 3 } := rfl
theorem sigOf_prf (p : Pfx) (m : MemArg) : sigOf (.prf p m) =
    { sr := [m.base.toNat], vr := [m.a.toNat], mr := [p.mask.toNat], unit := 3 } := rfl
theorem sigOf_sts (p : Pfx) (m : MemArg) : sigOf (.sts p m) =
    { sr := [m.base.toNat], vr := m.a.toNat :: (if m.size = 3 then [m.d.toNat, m.d.toNat + 1] else [m.d.toNat]), cls := [.store], mr := [p.mask.toNat], unit := 3 } := rfl
theorem sigOf_inv (p : Pfx) (m : MemArg) : sigOf (.inv p m) =
    { sr := [m.base.toNat], vr := [m.a.toNat], mr := [p.mask.toNat], unit := 3 } := rfl
theorem sigOf_sadd (p : Pfx) (d : BitVec 8) (a : BitVec 8) (b : BitVec 8) : sigOf (.sadd p d a b) =
    { sw := [d.toNat], sr := [a.toNat, b.toNat], pilotOk := true } := rfl
theorem sigOf_ssub (p : Pfx) (d : BitVec 8) (a : BitVec 8) (b : BitVec 8) : sigOf (.ssub p d a b) =
    { sw := [d.toNat], sr := [a.toNat, b.toNat], pilotOk := true } := rfl
theorem sigOf_smul (p : Pfx) (d : BitVec 8) (a : BitVec 8) (b : BitVec 8) : sigOf (.smul p d a b) =
    { sw := [d.toNat], sr := [a.toNat, b.toNat], pilotOk := true } := rfl
theorem sigOf_smulh (p : Pfx) (d : BitVec 8) (a : BitVec 8) (b : BitVec 8) : sigOf (.smulh p d a b) =
    { sw := [d.toNat], sr := [a.toNat, b.toNat], pilotOk := true } := rfl
theorem sigOf_sand (p : Pfx) (d : BitVec 8) (a : BitVec 8) (b : BitVec 8) : sigOf (.sand p d a b) =
    { sw := [d.toNat], sr := [a.toNat, b.toNat], pilotOk := true } := rfl
theorem sigOf_sor (p : Pfx) (d : BitVec 8) (a : BitVec 8) (b : BitVec 8) : sigOf (.sor p d a b) =
    { sw := [d.toNat], sr := [a.toNat, b.toNat], pilotOk := true } := rfl
theorem sigOf_sxor (p : Pfx) (d : BitVec 8) (a : BitVec 8) (b : BitVec 8) : sigOf (.sxor p d a b) =
    { sw := [d.toNat], sr := [a.toNat, b.toNat], pilotOk := true } := rfl
theorem sigOf_sshl (p : Pfx) (d : BitVec 8) (a : BitVec 8) (b : BitVec 8) : sigOf (.sshl p d a b) =
    { sw := [d.toNat], sr := [a.toNat, b.toNat], pilotOk := true } := rfl
theorem sigOf_sld (p : Pfx) (d : BitVec 8) (a : BitVec 8) (imm : Imm) : sigOf (.sld p d a imm) =
    { sr := [a.toNat], sw := [d.toNat], cls := [.load], pilotOk := true, unit := 3 } := rfl
theorem sigOf_sst (p : Pfx) (d : BitVec 8) (a : BitVec 8) (imm : Imm) : sigOf (.sst p d a imm) =
    { sr := [a.toNat, d.toNat], cls := [.store], pilotOk := true, unit := 3 } := rfl
theorem sigOf_sli (p : Pfx) (d : BitVec 8) (imm : Imm) : sigOf (.sli p d imm) =
    { sw := [d.toNat], sr := [], pilotOk := true } := rfl
theorem sigOf_slui (p : Pfx) (d : BitVec 8) (imm : Imm) : sigOf (.slui p d imm) =
    { sw := [d.toNat], sr := [d.toNat], pilotOk := true } := rfl
theorem sigOf_saddImm (p : Pfx) (d : BitVec 8) (a : BitVec 8) (imm : Imm) : sigOf (.saddImm p d a imm) =
    { sw := [d.toNat], sr := [a.toNat], pilotOk := true } := rfl
theorem sigOf_sandImm (p : Pfx) (d : BitVec 8) (a : BitVec 8) (imm : Imm) : sigOf (.sandImm p d a imm) =
    { sw := [d.toNat], sr := [a.toNat], pilotOk := true } := rfl
theorem sigOf_sshlImm (p : Pfx) (d : BitVec 8) (a : BitVec 8) (imm : Imm) : sigOf (.sshlImm p d a imm) =
    { sw := [d.toNat], sr := [a.toNat], pilotOk := true } := rfl
theorem sigOf_sshrImm (p : Pfx) (d : BitVec 8) (a : BitVec 8) (imm : Imm) : sigOf (.sshrImm p d a imm) =
    { sw := [d.toNat], sr := [a.toNat], pilotOk := true } := rfl
theorem sigOf_smov (d : BitVec 8) (a : BitVec 8) : sigOf (.smov d a) =
    { sw := [d.toNat], sr := [a.toNat], pilotOk := true } := rfl
theorem sigOf_sshr (d : BitVec 8) (a : BitVec 8) : sigOf (.sshr d a) =
    { sw := [d.toNat], sr := [a.toNat, d.toNat], pilotOk := true } := rfl
theorem sigOf_ssra (d : BitVec 8) (a : BitVec 8) : sigOf (.ssra d a) =
    { sw := [d.toNat], sr := [a.toNat, d.toNat], pilotOk := true } := rfl
theorem sigOf_smin (d : BitVec 8) (a : BitVec 8) : sigOf (.smin d a) =
    { sw := [d.toNat], sr := [a.toNat, d.toNat], pilotOk := true } := rfl
theorem sigOf_smax (d : BitVec 8) (a : BitVec 8) : sigOf (.smax d a) =
    { sw := [d.toNat], sr := [a.toNat, d.toNat], pilotOk := true } := rfl
theorem sigOf_sminu (d : BitVec 8) (a : BitVec 8) : sigOf (.sminu d a) =
    { sw := [d.toNat], sr := [a.toNat, d.toNat], pilotOk := true } := rfl
theorem sigOf_smaxu (d : BitVec 8) (a : BitVec 8) : sigOf (.smaxu d a) =
    { sw := [d.toNat], sr := [a.toNat, d.toNat], pilotOk := true } := rfl
theorem sigOf_scmp (d : BitVec 8) (a : BitVec 8) (x : BitVec 4) : sigOf (.scmp d a x) =
    { sw := [d.toNat], sr := [a.toNat, d.toNat], pilotOk := true } := rfl
theorem sigOf_ssel (d : BitVec 8) (a : BitVec 8) (x : BitVec 4) : sigOf (.ssel d a x) =
    { sw := [d.toNat], sr := [a.toNat, d.toNat, x.toNat], pilotOk := true } := rfl
theorem sigOf_br (p : Pfx) (off : Off) : sigOf (.br p off) =
    { runOk := false, pilotOk := true } := rfl
theorem sigOf_call (p : Pfx) (l : BitVec 8) (off : Off) : sigOf (.call p l off) =
    { sw := [l.toNat], runOk := false, pilotOk := true } := rfl
theorem sigOf_rcv (p : Pfx) (off : Off) : sigOf (.rcv p off) =
    { runOk := false } := rfl
theorem sigOf_bl (p : Pfx) (m : BitVec 4) (sense : Bool) (off : Off) : sigOf (.bl p m sense off) =
    { mr := [m.toNat], runOk := false } := rfl
theorem sigOf_bc (p : Pfx) (c : BitVec 8) (off : Off) : sigOf (.bc p c off) =
    { sr := [c.toNat], runOk := false, pilotOk := true } := rfl
theorem sigOf_nop : sigOf (.nop) =
    { pilotOk := true } := rfl
theorem sigOf_exit : sigOf (.exit) =
    { runOk := false, pilotOk := true } := rfl
theorem sigOf_yield : sigOf (.yield) =
    { runOk := false } := rfl
theorem sigOf_rgn : sigOf (.rgn) =
    { runOk := false } := rfl
theorem sigOf_run : sigOf (.run) =
    { runOk := false } := rfl
theorem sigOf_rend (n : BitVec 4) (t0 : BitVec 32) (t1 : BitVec 32) : sigOf (.rend n t0 t1) =
    {  } := rfl
theorem sigOf_take (x : BitVec 4) : sigOf (.take x) =
    { runOk := false, hnd := false } := rfl
theorem sigOf_jmp (a : BitVec 8) : sigOf (.jmp a) =
    { sr := [a.toNat], runOk := false, pilotOk := true } := rfl
theorem sigOf_ret (a : BitVec 8) : sigOf (.ret a) =
    { sr := [a.toNat], runOk := false, pilotOk := true } := rfl
theorem sigOf_brk (a : BitVec 8) (x : BitVec 4) : sigOf (.brk a x) =
    { runOk := false, pilotOk := true } := rfl
theorem sigOf_acq (p : Pfx) (a : BitVec 8) : sigOf (.acq p a) =
    { sr := [a.toNat], mr := [p.mask.toNat], runOk := false } := rfl
theorem sigOf_rel (p : Pfx) (a : BitVec 8) : sigOf (.rel p a) =
    { sr := [a.toNat], mr := [p.mask.toNat], runOk := false } := rfl
theorem sigOf_fence (x : BitVec 4) : sigOf (.fence x) =
    {  } := rfl
theorem sigOf_bar : sigOf (.bar) =
    { runOk := false, hnd := false } := rfl
theorem sigOf_cbar : sigOf (.cbar) =
    { runOk := false, hnd := false } := rfl
theorem sigOf_tlw (a : BitVec 8) (x : BitVec 4) : sigOf (.tlw a x) =
    { sr := [a.toNat], runOk := false } := rfl
theorem sigOf_tlr (d : BitVec 8) (x : BitVec 4) : sigOf (.tlr d x) =
    { sw := [d.toNat] } := rfl
theorem sigOf_wait (l : BitVec 4) (st : BitVec 4) (c : BitVec 4) (t : BitVec 4) (r : BitVec 4) : sigOf (.wait l st c t r) =
    { runOk := false } := rfl
theorem sigOf_rop (p : Pfx) (d : BitVec 8) (a : BitVec 8) (id : BitVec 6) (ng : BitVec 3) : sigOf (.rop p d a id ng) =
    { vr := [d.toNat, a.toNat, a.toNat + 1], cls := [.rop], mr := [p.mask.toNat], unit := 3 } := rfl
theorem sigOf_ropr (p : Pfx) (d : BitVec 8) (a : BitVec 8) (id : BitVec 6) (ng : BitVec 3) : sigOf (.ropr p d a id ng) =
    { vr := [d.toNat, a.toNat, a.toNat + 1], vw := [d.toNat], cls := [.rop, .load], mr := [p.mask.toNat], unit := 3 } := rfl
theorem sigOf_ropw (p : Pfx) (d : BitVec 8) (a : BitVec 8) (id : BitVec 6) (ng : BitVec 3) : sigOf (.ropw p d a id ng) =
    { vr := [d.toNat, a.toNat, a.toNat + 1], cls := [.rop], mr := [p.mask.toNat], unit := 3 } := rfl
theorem sigOf_rdef (d : BitVec 8) (a : BitVec 8) : sigOf (.rdef d a) =
    { sr := [a.toNat, d.toNat], sw := [d.toNat] } := rfl
theorem sigOf_rdel (d : BitVec 8) : sigOf (.rdel d) =
    { sr := [d.toNat], sw := [d.toNat] } := rfl
theorem sigOf_rstat (d : BitVec 8) (a : BitVec 8) : sigOf (.rstat d a) =
    { sr := [a.toNat], sw := [d.toNat] } := rfl
theorem sigOf_rstatStat (d : BitVec 8) : sigOf (.rstatStat d) =
    { sw := [d.toNat] } := rfl
theorem sigOf_board (d : BitVec 8) (a : BitVec 8) : sigOf (.board d a) =
    { uf := [d.toNat, a.toNat], rng := [d.toNat + 7], sr := a.toNat :: upto d.toNat 8, sw := [a.toNat], runOk := false } := rfl
theorem sigOf_alight (d : BitVec 8) (a : BitVec 8) : sigOf (.alight d a) =
    { uf := [d.toNat, a.toNat], rng := [d.toNat + 7], sr := [a.toNat], sw := a.toNat :: upto d.toNat 8, runOk := false } := rfl
theorem sigOf_catch (d : BitVec 8) (a : BitVec 8) : sigOf (.catch d a) =
    { uf := [d.toNat, a.toNat], rng := [d.toNat + 7], sr := [a.toNat], sw := a.toNat :: upto d.toNat 8, runOk := false } := rfl
theorem sigOf_rwr (d : BitVec 8) (a : BitVec 8) (x : BitVec 4) : sigOf (.rwr d a x) =
    { uf := [d.toNat, a.toNat], rng := rwrRange d.toNat x.toNat, sr := a.toNat :: upto d.toNat (if x = 8 then 8 else if x = 7 then 2 else 1), runOk := false } := rfl
theorem sigOf_rwrR (d : BitVec 8) (a : BitVec 8) (x : BitVec 4) : sigOf (.rwrR d a x) =
    { uf := [d.toNat, a.toNat], rng := rwrRange d.toNat x.toNat, sr := a.toNat :: upto d.toNat (if x = 8 then 8 else if x = 7 then 2 else 1), sw := a.toNat :: upto d.toNat (if x = 8 then 8 else 1), runOk := false } := rfl
theorem sigOf_mstone (d : BitVec 8) : sigOf (.mstone d) =
    { sw := [d.toNat] } := rfl
theorem sigOf_mld (p : Pfx) (front : Bool) (r : BitVec 4) (f : BitVec 3) (o : BitVec 5) : sigOf (.mld p front r f o) =
    { dr := [r.toNat], sr := [o.toNat], fr := [f.toNat], cls := [.tile], mr := [p.mask.toNat], hnd := false, unit := 4 } := rfl
theorem sigOf_mswp (p : Pfx) : sigOf (.mswp p) =
    { mr := [p.mask.toNat], hnd := false, unit := 4 } := rfl
theorem sigOf_mmul (p : Pfx) (t : BitVec 6) (z : Bool) (r : BitVec 4) (f : BitVec 3) (o : BitVec 5) : sigOf (.mmul p t z r f o) =
    { tiles := [t.toNat], dr := [r.toNat], sr := [o.toNat], fr := [f.toNat], cls := [.tile], mr := [p.mask.toNat], hnd := false, unit := 4 } := rfl
theorem sigOf_mzero (p : Pfx) (t : BitVec 6) : sigOf (.mzero p t) =
    { tiles := [t.toNat], mr := [p.mask.toNat], hnd := false, unit := 4 } := rfl
theorem sigOf_mdrain (p : Pfx) (t : BitVec 6) (clr : Bool) (code : BitVec 3) (r : BitVec 4) (o : BitVec 5) : sigOf (.mdrain p t clr code r o) =
    { uf := [o.toNat], tiles := [t.toNat], dr := [r.toNat], sr := if code = 3 || code = 4 then [o.toNat, o.toNat + 1] else [o.toNat], cls := [.tile], mr := [p.mask.toNat], hnd := false, unit := 4 } := rfl
theorem sigOf_mrsum (p : Pfx) (t : BitVec 6) (r : BitVec 4) (f : BitVec 3) (o : BitVec 5) : sigOf (.mrsum p t r f o) =
    { uf := [o.toNat], tiles := [t.toNat], dr := [r.toNat], sr := [o.toNat, o.toNat + 1], fr := [f.toNat], cls := [.tile], mr := [p.mask.toNat], hnd := false, unit := 4 } := rfl
theorem sigOf_msave (p : Pfx) (obj : BitVec 2) (t : BitVec 6) (a : BitVec 8) : sigOf (.msave p obj t a) =
    { tiles := if obj = 0 then [t.toNat] else [], sr := [a.toNat], cls := [.tile], mr := [p.mask.toNat], unit := 4 } := rfl
theorem sigOf_mrest (p : Pfx) (obj : BitVec 2) (t : BitVec 6) (a : BitVec 8) : sigOf (.mrest p obj t a) =
    { tiles := if obj = 0 then [t.toNat] else [], sr := [a.toNat], cls := [.tile], mr := [p.mask.toNat], unit := 4 } := rfl
theorem sigOf_mstat (p : Pfx) (d : BitVec 8) : sigOf (.mstat p d) =
    { sw := [d.toNat], mr := [p.mask.toNat], unit := 4 } := rfl
theorem sigOf_skd (p : Pfx) (d : BitVec 8) (a : BitVec 8) (w : Bool) (sp : Bool) : sigOf (.skd p d a w sp) =
    { vr := if w then [d.toNat, d.toNat + 1] else [d.toNat], sr := [a.toNat], cls := [.store], mr := [p.mask.toNat], unit := 3 } := rfl
theorem sigOf_skh (p : Pfx) (d : BitVec 8) (a : BitVec 8) (w : Bool) (sp : Bool) : sigOf (.skh p d a w sp) =
    { vr := if w then [d.toNat, d.toNat + 1] else [d.toNat], sr := [a.toNat], cls := [.store], mr := [p.mask.toNat], unit := 3 } := rfl
theorem sigOf_skq (p : Pfx) (d : BitVec 8) (a : BitVec 8) (sp : Bool) : sigOf (.skq p d a sp) =
    { vr := [d.toNat], sr := [a.toNat], cls := [.store], mr := [p.mask.toNat], unit := 3 } := rfl
theorem sigOf_skm (p : Pfx) (d : BitVec 8) (a : BitVec 8) (kind : BitVec 2) (sp : Bool) : sigOf (.skm p d a kind sp) =
    { sr := [d.toNat, a.toNat], cls := [.store], mr := [p.mask.toNat], unit := 3 } := rfl
theorem sigOf_skqv (p : Pfx) (d : BitVec 8) (a : BitVec 8) (sp : Bool) : sigOf (.skqv p d a sp) =
    { vr := [d.toNat], vw := [d.toNat], sr := [a.toNat], mr := [p.mask.toNat], unit := 3 } := rfl
theorem sigOf_skest (p : Pfx) (d : BitVec 8) (a : BitVec 8) (sp : Bool) : sigOf (.skest p d a sp) =
    { sw := [d.toNat], sr := [a.toNat], mr := [p.mask.toNat], unit := 3 } := rfl
theorem sigOf_sktop (p : Pfx) (d : BitVec 8) (a : BitVec 8) (sp : Bool) : sigOf (.sktop p d a sp) =
    { vw := upto d.toNat 3, sr := [a.toNat], mr := [p.mask.toNat], unit := 3 } := rfl
theorem sigOf_sksd (p : Pfx) (d : BitVec 8) (a : BitVec 8) (kind : BitVec 2) (sp : Bool) : sigOf (.sksd p d a kind sp) =
    { sr := [d.toNat, a.toNat], cls := [.store], mr := [p.mask.toNat], unit := 3 } := rfl
theorem sigOf_xadd (p : Pfx) (d : BitVec 8) (a : BitVec 8) (w : Bool) (sp : Bool) : sigOf (.xadd p d a w sp) =
    { vr := [d.toNat], sr := [a.toNat], cls := [.store], mr := [p.mask.toNat], unit := 3 } := rfl
theorem sigOf_xrnd (p : Pfx) (d : BitVec 8) (a : BitVec 8) (w : Bool) (sp : Bool) : sigOf (.xrnd p d a w sp) =
    { vw := [d.toNat], sr := [a.toNat], cls := [.load], mr := [p.mask.toNat], unit := 3 } := rfl
theorem sigOf_xclr (p : Pfx) (a : BitVec 8) (v : Bool) (sp : Bool) : sigOf (.xclr p a v sp) =
    { sr := [a.toNat], cls := [.store], mr := [p.mask.toNat], unit := 3 } := rfl
theorem sigOf_xcp (p : Pfx) (d : BitVec 4) (a : BitVec 4) : sigOf (.xcp p d a) =
    { dr := [d.toNat, a.toNat], cls := [.copy], mr := [p.mask.toNat] } := rfl
theorem sigOf_xcpFill (p : Pfx) (d : BitVec 4) (a : BitVec 8) : sigOf (.xcpFill p d a) =
    { dr := [d.toNat], sr := [a.toNat], cls := [.copy], mr := [p.mask.toNat] } := rfl
theorem sigOf_bat (p : Pfx) (d : BitVec 8) : sigOf (.bat p d) =
    { sw := [d.toNat], mr := [p.mask.toNat] } := rfl
theorem sigOf_wbat (a : BitVec 8) : sigOf (.wbat a) =
    { sr := [a.toNat], runOk := false } := rfl
theorem sigOf_push (d : BitVec 8) (a : BitVec 8) (x : BitVec 4) : sigOf (.push d a x) =
    { uf := [d.toNat, a.toNat], rng := [a.toNat + 15], sw := [d.toNat], sr := upto a.toNat 16, pilotOk := true, hnd := false } := rfl
theorem sigOf_dld (p : Pfx) (d : BitVec 4) (a : BitVec 8) (k : BitVec 4) : sigOf (.dld p d a k) =
    { dr := [d.toNat], sr := [a.toNat], cls := [.copy], mr := [p.mask.toNat], unit := 3 } := rfl
theorem sigOf_fmt (p : Pfx) (d : BitVec 3) (a : BitVec 8) (k : BitVec 4) : sigOf (.fmt p d a k) =
    { fr := [d.toNat], sr := [a.toNat], mr := [p.mask.toNat], unit := 3 } := rfl
theorem sigOf_emit (a : BitVec 8) : sigOf (.emit a) =
    { sr := [a.toNat], runOk := false, pilotOk := true, pilotOnly := true, hnd := false } := rfl
theorem sigOf_emitx (d : BitVec 8) (a : BitVec 8) (x : BitVec 4) : sigOf (.emitx d a x) =
    { sr := [d.toNat, a.toNat], runOk := false, pilotOk := true, pilotOnly := true, hnd := false } := rfl
theorem sigOf_ecl (a : BitVec 8) (q : BitVec 2) : sigOf (.ecl a q) =
    { sr := [a.toNat], runOk := false, pilotOk := true, pilotOnly := true, hnd := false } := rfl
theorem sigOf_ecln (d : BitVec 8) (a : BitVec 8) (q : BitVec 2) : sigOf (.ecln d a q) =
    { sr := [a.toNat], sw := [d.toNat], runOk := false, pilotOk := true, pilotOnly := true, hnd := false } := rfl
theorem sigOf_eqfree (d : BitVec 8) (q : BitVec 2) : sigOf (.eqfree d q) =
    { sw := [d.toNat], runOk := false, pilotOk := true, pilotOnly := true, hnd := false } := rfl
theorem sigOf_csrr (d : BitVec 8) (a : BitVec 8) (x : BitVec 4) : sigOf (.csrr d a x) =
    { sw := [d.toNat], pilotOk := true } := rfl
theorem sigOf_csrw (d : BitVec 8) (a : BitVec 8) (x : BitVec 4) : sigOf (.csrw d a x) =
    { sr := [d.toNat], runOk := false, pilotOk := true } := rfl
theorem sigOf_tret : sigOf (.tret) =
    { runOk := false, pilotOk := true, handlerOnly := true } := rfl
theorem sigOf_prio (x : BitVec 4) : sigOf (.prio x) =
    {  } := rfl
theorem sigOf_hint (x : BitVec 4) : sigOf (.hint x) =
    { pilotOk := true } := rfl

end Sys2Proof.Machine
end

