-- ==== Sys2Proof/Laws/State.lean ====
section
/-!
SUPPORT. What the updates of `State` leave as it is: one lemma per field per update.
-/

namespace Sys2Proof.Machine

section
variable (s : State) (u : Nat) (f : Team → Team)
@[simp] theorem State.updTeam_dev : (s.updTeam u f).dev = s.dev := rfl
@[simp] theorem State.updTeam_fns : (s.updTeam u f).fns = s.fns := rfl
@[simp] theorem State.updTeam_ctxs : (s.updTeam u f).ctxs = s.ctxs := rfl
@[simp] theorem State.updTeam_xl : (s.updTeam u f).xl = s.xl := rfl
@[simp] theorem State.updTeam_trs : (s.updTeam u f).trs = s.trs := rfl
@[simp] theorem State.updTeam_pcs : (s.updTeam u f).pcs = s.pcs := rfl
@[simp] theorem State.updTeam_launches : (s.updTeam u f).launches = s.launches := rfl
@[simp] theorem State.updTeam_seals : (s.updTeam u f).seals = s.seals := rfl
@[simp] theorem State.updTeam_cores : (s.updTeam u f).cores = s.cores := rfl
@[simp] theorem State.updTeam_mem : (s.updTeam u f).mem = s.mem := rfl
@[simp] theorem State.updTeam_reqs : (s.updTeam u f).reqs = s.reqs := rfl
@[simp] theorem State.updTeam_pends : (s.updTeam u f).pends = s.pends := rfl
@[simp] theorem State.updTeam_rops : (s.updTeam u f).rops = s.rops := rfl
@[simp] theorem State.updTeam_peerRops : (s.updTeam u f).peerRops = s.peerRops := rfl
@[simp] theorem State.updTeam_halves : (s.updTeam u f).halves = s.halves := rfl
@[simp] theorem State.updTeam_inbox : (s.updTeam u f).inbox = s.inbox := rfl
@[simp] theorem State.updTeam_combs : (s.updTeam u f).combs = s.combs := rfl
@[simp] theorem State.updTeam_chans : (s.updTeam u f).chans = s.chans := rfl
@[simp] theorem State.updTeam_ring : (s.updTeam u f).ring = s.ring := rfl
@[simp] theorem State.updTeam_out : (s.updTeam u f).out = s.out := rfl
@[simp] theorem State.updTeam_ev : (s.updTeam u f).ev = s.ev := rfl
@[simp] theorem State.updTeam_cur : (s.updTeam u f).cur = s.cur := rfl
@[simp] theorem State.updTeam_clk : (s.updTeam u f).clk = s.clk := rfl
@[simp] theorem State.updTeam_time : (s.updTeam u f).time = s.time := rfl
@[simp] theorem State.updTeam_tick : (s.updTeam u f).tick = s.tick := rfl
@[simp] theorem State.updTeam_nextId : (s.updTeam u f).nextId = s.nextId := rfl
@[simp] theorem State.updTeam_free : (s.updTeam u f).free = s.free := rfl
end

section
variable (s : State) (u : Nat) (unit : Nat) (f : Grp → Grp)
@[simp] theorem State.updGrp_dev : (s.updGrp u unit f).dev = s.dev := rfl
@[simp] theorem State.updGrp_fns : (s.updGrp u unit f).fns = s.fns := rfl
@[simp] theorem State.updGrp_ctxs : (s.updGrp u unit f).ctxs = s.ctxs := rfl
@[simp] theorem State.updGrp_xl : (s.updGrp u unit f).xl = s.xl := rfl
@[simp] theorem State.updGrp_trs : (s.updGrp u unit f).trs = s.trs := rfl
@[simp] theorem State.updGrp_pcs : (s.updGrp u unit f).pcs = s.pcs := rfl
@[simp] theorem State.updGrp_launches : (s.updGrp u unit f).launches = s.launches := rfl
@[simp] theorem State.updGrp_seals : (s.updGrp u unit f).seals = s.seals := rfl
@[simp] theorem State.updGrp_cores : (s.updGrp u unit f).cores = s.cores := rfl
@[simp] theorem State.updGrp_mem : (s.updGrp u unit f).mem = s.mem := rfl
@[simp] theorem State.updGrp_reqs : (s.updGrp u unit f).reqs = s.reqs := rfl
@[simp] theorem State.updGrp_pends : (s.updGrp u unit f).pends = s.pends := rfl
@[simp] theorem State.updGrp_rops : (s.updGrp u unit f).rops = s.rops := rfl
@[simp] theorem State.updGrp_peerRops : (s.updGrp u unit f).peerRops = s.peerRops := rfl
@[simp] theorem State.updGrp_halves : (s.updGrp u unit f).halves = s.halves := rfl
@[simp] theorem State.updGrp_inbox : (s.updGrp u unit f).inbox = s.inbox := rfl
@[simp] theorem State.updGrp_combs : (s.updGrp u unit f).combs = s.combs := rfl
@[simp] theorem State.updGrp_chans : (s.updGrp u unit f).chans = s.chans := rfl
@[simp] theorem State.updGrp_ring : (s.updGrp u unit f).ring = s.ring := rfl
@[simp] theorem State.updGrp_out : (s.updGrp u unit f).out = s.out := rfl
@[simp] theorem State.updGrp_ev : (s.updGrp u unit f).ev = s.ev := rfl
@[simp] theorem State.updGrp_cur : (s.updGrp u unit f).cur = s.cur := rfl
@[simp] theorem State.updGrp_clk : (s.updGrp u unit f).clk = s.clk := rfl
@[simp] theorem State.updGrp_time : (s.updGrp u unit f).time = s.time := rfl
@[simp] theorem State.updGrp_tick : (s.updGrp u unit f).tick = s.tick := rfl
@[simp] theorem State.updGrp_nextId : (s.updGrp u unit f).nextId = s.nextId := rfl
@[simp] theorem State.updGrp_free : (s.updGrp u unit f).free = s.free := rfl
end

section
variable (s : State) (p : Party) (f : Entry → Entry)
@[simp] theorem State.updEntry_dev : (s.updEntry p f).dev = s.dev := rfl
@[simp] theorem State.updEntry_fns : (s.updEntry p f).fns = s.fns := rfl
@[simp] theorem State.updEntry_ctxs : (s.updEntry p f).ctxs = s.ctxs := rfl
@[simp] theorem State.updEntry_xl : (s.updEntry p f).xl = s.xl := rfl
@[simp] theorem State.updEntry_trs : (s.updEntry p f).trs = s.trs := rfl
@[simp] theorem State.updEntry_pcs : (s.updEntry p f).pcs = s.pcs := rfl
@[simp] theorem State.updEntry_launches : (s.updEntry p f).launches = s.launches := rfl
@[simp] theorem State.updEntry_seals : (s.updEntry p f).seals = s.seals := rfl
@[simp] theorem State.updEntry_cores : (s.updEntry p f).cores = s.cores := rfl
@[simp] theorem State.updEntry_mem : (s.updEntry p f).mem = s.mem := rfl
@[simp] theorem State.updEntry_reqs : (s.updEntry p f).reqs = s.reqs := rfl
@[simp] theorem State.updEntry_pends : (s.updEntry p f).pends = s.pends := rfl
@[simp] theorem State.updEntry_rops : (s.updEntry p f).rops = s.rops := rfl
@[simp] theorem State.updEntry_peerRops : (s.updEntry p f).peerRops = s.peerRops := rfl
@[simp] theorem State.updEntry_halves : (s.updEntry p f).halves = s.halves := rfl
@[simp] theorem State.updEntry_inbox : (s.updEntry p f).inbox = s.inbox := rfl
@[simp] theorem State.updEntry_combs : (s.updEntry p f).combs = s.combs := rfl
@[simp] theorem State.updEntry_chans : (s.updEntry p f).chans = s.chans := rfl
@[simp] theorem State.updEntry_ring : (s.updEntry p f).ring = s.ring := rfl
@[simp] theorem State.updEntry_out : (s.updEntry p f).out = s.out := rfl
@[simp] theorem State.updEntry_ev : (s.updEntry p f).ev = s.ev := rfl
@[simp] theorem State.updEntry_cur : (s.updEntry p f).cur = s.cur := rfl
@[simp] theorem State.updEntry_clk : (s.updEntry p f).clk = s.clk := rfl
@[simp] theorem State.updEntry_time : (s.updEntry p f).time = s.time := rfl
@[simp] theorem State.updEntry_tick : (s.updEntry p f).tick = s.tick := rfl
@[simp] theorem State.updEntry_nextId : (s.updEntry p f).nextId = s.nextId := rfl
@[simp] theorem State.updEntry_free : (s.updEntry p f).free = s.free := rfl
end

section
variable (s : State) (p : Party) (pc : U64)
@[simp] theorem State.setPc_dev : (s.setPc p pc).dev = s.dev := rfl
@[simp] theorem State.setPc_fns : (s.setPc p pc).fns = s.fns := rfl
@[simp] theorem State.setPc_ctxs : (s.setPc p pc).ctxs = s.ctxs := rfl
@[simp] theorem State.setPc_xl : (s.setPc p pc).xl = s.xl := rfl
@[simp] theorem State.setPc_trs : (s.setPc p pc).trs = s.trs := rfl
@[simp] theorem State.setPc_pcs : (s.setPc p pc).pcs = s.pcs := rfl
@[simp] theorem State.setPc_launches : (s.setPc p pc).launches = s.launches := rfl
@[simp] theorem State.setPc_seals : (s.setPc p pc).seals = s.seals := rfl
@[simp] theorem State.setPc_cores : (s.setPc p pc).cores = s.cores := rfl
@[simp] theorem State.setPc_mem : (s.setPc p pc).mem = s.mem := rfl
@[simp] theorem State.setPc_reqs : (s.setPc p pc).reqs = s.reqs := rfl
@[simp] theorem State.setPc_pends : (s.setPc p pc).pends = s.pends := rfl
@[simp] theorem State.setPc_rops : (s.setPc p pc).rops = s.rops := rfl
@[simp] theorem State.setPc_peerRops : (s.setPc p pc).peerRops = s.peerRops := rfl
@[simp] theorem State.setPc_halves : (s.setPc p pc).halves = s.halves := rfl
@[simp] theorem State.setPc_inbox : (s.setPc p pc).inbox = s.inbox := rfl
@[simp] theorem State.setPc_combs : (s.setPc p pc).combs = s.combs := rfl
@[simp] theorem State.setPc_chans : (s.setPc p pc).chans = s.chans := rfl
@[simp] theorem State.setPc_ring : (s.setPc p pc).ring = s.ring := rfl
@[simp] theorem State.setPc_out : (s.setPc p pc).out = s.out := rfl
@[simp] theorem State.setPc_ev : (s.setPc p pc).ev = s.ev := rfl
@[simp] theorem State.setPc_cur : (s.setPc p pc).cur = s.cur := rfl
@[simp] theorem State.setPc_clk : (s.setPc p pc).clk = s.clk := rfl
@[simp] theorem State.setPc_time : (s.setPc p pc).time = s.time := rfl
@[simp] theorem State.setPc_tick : (s.setPc p pc).tick = s.tick := rfl
@[simp] theorem State.setPc_nextId : (s.setPc p pc).nextId = s.nextId := rfl
@[simp] theorem State.setPc_free : (s.setPc p pc).free = s.free := rfl
end

section
variable (s : State) (p : Party) (k : Option Park)
@[simp] theorem State.setPark_dev : (s.setPark p k).dev = s.dev := rfl
@[simp] theorem State.setPark_fns : (s.setPark p k).fns = s.fns := rfl
@[simp] theorem State.setPark_ctxs : (s.setPark p k).ctxs = s.ctxs := rfl
@[simp] theorem State.setPark_xl : (s.setPark p k).xl = s.xl := rfl
@[simp] theorem State.setPark_trs : (s.setPark p k).trs = s.trs := rfl
@[simp] theorem State.setPark_pcs : (s.setPark p k).pcs = s.pcs := rfl
@[simp] theorem State.setPark_launches : (s.setPark p k).launches = s.launches := rfl
@[simp] theorem State.setPark_seals : (s.setPark p k).seals = s.seals := rfl
@[simp] theorem State.setPark_cores : (s.setPark p k).cores = s.cores := rfl
@[simp] theorem State.setPark_mem : (s.setPark p k).mem = s.mem := rfl
@[simp] theorem State.setPark_reqs : (s.setPark p k).reqs = s.reqs := rfl
@[simp] theorem State.setPark_pends : (s.setPark p k).pends = s.pends := rfl
@[simp] theorem State.setPark_rops : (s.setPark p k).rops = s.rops := rfl
@[simp] theorem State.setPark_peerRops : (s.setPark p k).peerRops = s.peerRops := rfl
@[simp] theorem State.setPark_halves : (s.setPark p k).halves = s.halves := rfl
@[simp] theorem State.setPark_inbox : (s.setPark p k).inbox = s.inbox := rfl
@[simp] theorem State.setPark_combs : (s.setPark p k).combs = s.combs := rfl
@[simp] theorem State.setPark_chans : (s.setPark p k).chans = s.chans := rfl
@[simp] theorem State.setPark_ring : (s.setPark p k).ring = s.ring := rfl
@[simp] theorem State.setPark_out : (s.setPark p k).out = s.out := rfl
@[simp] theorem State.setPark_ev : (s.setPark p k).ev = s.ev := rfl
@[simp] theorem State.setPark_cur : (s.setPark p k).cur = s.cur := rfl
@[simp] theorem State.setPark_clk : (s.setPark p k).clk = s.clk := rfl
@[simp] theorem State.setPark_time : (s.setPark p k).time = s.time := rfl
@[simp] theorem State.setPark_tick : (s.setPark p k).tick = s.tick := rfl
@[simp] theorem State.setPark_nextId : (s.setPark p k).nextId = s.nextId := rfl
@[simp] theorem State.setPark_free : (s.setPark p k).free = s.free := rfl
end

section
variable (s : State) (c : Nat) (f : Core → Core)
@[simp] theorem State.updCore_dev : (s.updCore c f).dev = s.dev := rfl
@[simp] theorem State.updCore_fns : (s.updCore c f).fns = s.fns := rfl
@[simp] theorem State.updCore_ctxs : (s.updCore c f).ctxs = s.ctxs := rfl
@[simp] theorem State.updCore_xl : (s.updCore c f).xl = s.xl := rfl
@[simp] theorem State.updCore_trs : (s.updCore c f).trs = s.trs := rfl
@[simp] theorem State.updCore_pcs : (s.updCore c f).pcs = s.pcs := rfl
@[simp] theorem State.updCore_launches : (s.updCore c f).launches = s.launches := rfl
@[simp] theorem State.updCore_seals : (s.updCore c f).seals = s.seals := rfl
@[simp] theorem State.updCore_teams : (s.updCore c f).teams = s.teams := rfl
@[simp] theorem State.updCore_mem : (s.updCore c f).mem = s.mem := rfl
@[simp] theorem State.updCore_reqs : (s.updCore c f).reqs = s.reqs := rfl
@[simp] theorem State.updCore_pends : (s.updCore c f).pends = s.pends := rfl
@[simp] theorem State.updCore_rops : (s.updCore c f).rops = s.rops := rfl
@[simp] theorem State.updCore_peerRops : (s.updCore c f).peerRops = s.peerRops := rfl
@[simp] theorem State.updCore_halves : (s.updCore c f).halves = s.halves := rfl
@[simp] theorem State.updCore_inbox : (s.updCore c f).inbox = s.inbox := rfl
@[simp] theorem State.updCore_combs : (s.updCore c f).combs = s.combs := rfl
@[simp] theorem State.updCore_chans : (s.updCore c f).chans = s.chans := rfl
@[simp] theorem State.updCore_ring : (s.updCore c f).ring = s.ring := rfl
@[simp] theorem State.updCore_out : (s.updCore c f).out = s.out := rfl
@[simp] theorem State.updCore_ev : (s.updCore c f).ev = s.ev := rfl
@[simp] theorem State.updCore_cur : (s.updCore c f).cur = s.cur := rfl
@[simp] theorem State.updCore_clk : (s.updCore c f).clk = s.clk := rfl
@[simp] theorem State.updCore_time : (s.updCore c f).time = s.time := rfl
@[simp] theorem State.updCore_tick : (s.updCore c f).tick = s.tick := rfl
@[simp] theorem State.updCore_nextId : (s.updCore c f).nextId = s.nextId := rfl
@[simp] theorem State.updCore_free : (s.updCore c f).free = s.free := rfl
end

section
variable (s : State) (c : Nat) (f : Ctx → Ctx)
@[simp] theorem State.updCtx_dev : (s.updCtx c f).dev = s.dev := rfl
@[simp] theorem State.updCtx_fns : (s.updCtx c f).fns = s.fns := rfl
@[simp] theorem State.updCtx_xl : (s.updCtx c f).xl = s.xl := rfl
@[simp] theorem State.updCtx_trs : (s.updCtx c f).trs = s.trs := rfl
@[simp] theorem State.updCtx_pcs : (s.updCtx c f).pcs = s.pcs := rfl
@[simp] theorem State.updCtx_launches : (s.updCtx c f).launches = s.launches := rfl
@[simp] theorem State.updCtx_seals : (s.updCtx c f).seals = s.seals := rfl
@[simp] theorem State.updCtx_teams : (s.updCtx c f).teams = s.teams := rfl
@[simp] theorem State.updCtx_cores : (s.updCtx c f).cores = s.cores := rfl
@[simp] theorem State.updCtx_mem : (s.updCtx c f).mem = s.mem := rfl
@[simp] theorem State.updCtx_reqs : (s.updCtx c f).reqs = s.reqs := rfl
@[simp] theorem State.updCtx_pends : (s.updCtx c f).pends = s.pends := rfl
@[simp] theorem State.updCtx_rops : (s.updCtx c f).rops = s.rops := rfl
@[simp] theorem State.updCtx_peerRops : (s.updCtx c f).peerRops = s.peerRops := rfl
@[simp] theorem State.updCtx_halves : (s.updCtx c f).halves = s.halves := rfl
@[simp] theorem State.updCtx_inbox : (s.updCtx c f).inbox = s.inbox := rfl
@[simp] theorem State.updCtx_combs : (s.updCtx c f).combs = s.combs := rfl
@[simp] theorem State.updCtx_chans : (s.updCtx c f).chans = s.chans := rfl
@[simp] theorem State.updCtx_ring : (s.updCtx c f).ring = s.ring := rfl
@[simp] theorem State.updCtx_out : (s.updCtx c f).out = s.out := rfl
@[simp] theorem State.updCtx_ev : (s.updCtx c f).ev = s.ev := rfl
@[simp] theorem State.updCtx_cur : (s.updCtx c f).cur = s.cur := rfl
@[simp] theorem State.updCtx_clk : (s.updCtx c f).clk = s.clk := rfl
@[simp] theorem State.updCtx_time : (s.updCtx c f).time = s.time := rfl
@[simp] theorem State.updCtx_tick : (s.updCtx c f).tick = s.tick := rfl
@[simp] theorem State.updCtx_nextId : (s.updCtx c f).nextId = s.nextId := rfl
@[simp] theorem State.updCtx_free : (s.updCtx c f).free = s.free := rfl
end

section
variable (s : State) (l : Nat) (f : Launch → Launch)
@[simp] theorem State.updLaunch_dev : (s.updLaunch l f).dev = s.dev := rfl
@[simp] theorem State.updLaunch_fns : (s.updLaunch l f).fns = s.fns := rfl
@[simp] theorem State.updLaunch_ctxs : (s.updLaunch l f).ctxs = s.ctxs := rfl
@[simp] theorem State.updLaunch_xl : (s.updLaunch l f).xl = s.xl := rfl
@[simp] theorem State.updLaunch_trs : (s.updLaunch l f).trs = s.trs := rfl
@[simp] theorem State.updLaunch_pcs : (s.updLaunch l f).pcs = s.pcs := rfl
@[simp] theorem State.updLaunch_seals : (s.updLaunch l f).seals = s.seals := rfl
@[simp] theorem State.updLaunch_teams : (s.updLaunch l f).teams = s.teams := rfl
@[simp] theorem State.updLaunch_cores : (s.updLaunch l f).cores = s.cores := rfl
@[simp] theorem State.updLaunch_mem : (s.updLaunch l f).mem = s.mem := rfl
@[simp] theorem State.updLaunch_reqs : (s.updLaunch l f).reqs = s.reqs := rfl
@[simp] theorem State.updLaunch_pends : (s.updLaunch l f).pends = s.pends := rfl
@[simp] theorem State.updLaunch_rops : (s.updLaunch l f).rops = s.rops := rfl
@[simp] theorem State.updLaunch_peerRops : (s.updLaunch l f).peerRops = s.peerRops := rfl
@[simp] theorem State.updLaunch_halves : (s.updLaunch l f).halves = s.halves := rfl
@[simp] theorem State.updLaunch_inbox : (s.updLaunch l f).inbox = s.inbox := rfl
@[simp] theorem State.updLaunch_combs : (s.updLaunch l f).combs = s.combs := rfl
@[simp] theorem State.updLaunch_chans : (s.updLaunch l f).chans = s.chans := rfl
@[simp] theorem State.updLaunch_ring : (s.updLaunch l f).ring = s.ring := rfl
@[simp] theorem State.updLaunch_out : (s.updLaunch l f).out = s.out := rfl
@[simp] theorem State.updLaunch_ev : (s.updLaunch l f).ev = s.ev := rfl
@[simp] theorem State.updLaunch_cur : (s.updLaunch l f).cur = s.cur := rfl
@[simp] theorem State.updLaunch_clk : (s.updLaunch l f).clk = s.clk := rfl
@[simp] theorem State.updLaunch_time : (s.updLaunch l f).time = s.time := rfl
@[simp] theorem State.updLaunch_tick : (s.updLaunch l f).tick = s.tick := rfl
@[simp] theorem State.updLaunch_nextId : (s.updLaunch l f).nextId = s.nextId := rfl
@[simp] theorem State.updLaunch_free : (s.updLaunch l f).free = s.free := rfl
end

section
variable (s : State) (f : Nat) (g : Fn → Fn)
@[simp] theorem State.updFn_dev : (s.updFn f g).dev = s.dev := rfl
@[simp] theorem State.updFn_ctxs : (s.updFn f g).ctxs = s.ctxs := rfl
@[simp] theorem State.updFn_xl : (s.updFn f g).xl = s.xl := rfl
@[simp] theorem State.updFn_trs : (s.updFn f g).trs = s.trs := rfl
@[simp] theorem State.updFn_pcs : (s.updFn f g).pcs = s.pcs := rfl
@[simp] theorem State.updFn_launches : (s.updFn f g).launches = s.launches := rfl
@[simp] theorem State.updFn_seals : (s.updFn f g).seals = s.seals := rfl
@[simp] theorem State.updFn_teams : (s.updFn f g).teams = s.teams := rfl
@[simp] theorem State.updFn_cores : (s.updFn f g).cores = s.cores := rfl
@[simp] theorem State.updFn_mem : (s.updFn f g).mem = s.mem := rfl
@[simp] theorem State.updFn_reqs : (s.updFn f g).reqs = s.reqs := rfl
@[simp] theorem State.updFn_pends : (s.updFn f g).pends = s.pends := rfl
@[simp] theorem State.updFn_rops : (s.updFn f g).rops = s.rops := rfl
@[simp] theorem State.updFn_peerRops : (s.updFn f g).peerRops = s.peerRops := rfl
@[simp] theorem State.updFn_halves : (s.updFn f g).halves = s.halves := rfl
@[simp] theorem State.updFn_inbox : (s.updFn f g).inbox = s.inbox := rfl
@[simp] theorem State.updFn_combs : (s.updFn f g).combs = s.combs := rfl
@[simp] theorem State.updFn_chans : (s.updFn f g).chans = s.chans := rfl
@[simp] theorem State.updFn_ring : (s.updFn f g).ring = s.ring := rfl
@[simp] theorem State.updFn_out : (s.updFn f g).out = s.out := rfl
@[simp] theorem State.updFn_ev : (s.updFn f g).ev = s.ev := rfl
@[simp] theorem State.updFn_cur : (s.updFn f g).cur = s.cur := rfl
@[simp] theorem State.updFn_clk : (s.updFn f g).clk = s.clk := rfl
@[simp] theorem State.updFn_time : (s.updFn f g).time = s.time := rfl
@[simp] theorem State.updFn_tick : (s.updFn f g).tick = s.tick := rfl
@[simp] theorem State.updFn_nextId : (s.updFn f g).nextId = s.nextId := rfl
@[simp] theorem State.updFn_free : (s.updFn f g).free = s.free := rfl
end

section
variable (s : State) (f : Nat) (q : Nat) (g : Queue → Queue)
@[simp] theorem State.updQueue_dev : (s.updQueue f q g).dev = s.dev := rfl
@[simp] theorem State.updQueue_ctxs : (s.updQueue f q g).ctxs = s.ctxs := rfl
@[simp] theorem State.updQueue_xl : (s.updQueue f q g).xl = s.xl := rfl
@[simp] theorem State.updQueue_trs : (s.updQueue f q g).trs = s.trs := rfl
@[simp] theorem State.updQueue_pcs : (s.updQueue f q g).pcs = s.pcs := rfl
@[simp] theorem State.updQueue_launches : (s.updQueue f q g).launches = s.launches := rfl
@[simp] theorem State.updQueue_seals : (s.updQueue f q g).seals = s.seals := rfl
@[simp] theorem State.updQueue_teams : (s.updQueue f q g).teams = s.teams := rfl
@[simp] theorem State.updQueue_cores : (s.updQueue f q g).cores = s.cores := rfl
@[simp] theorem State.updQueue_mem : (s.updQueue f q g).mem = s.mem := rfl
@[simp] theorem State.updQueue_reqs : (s.updQueue f q g).reqs = s.reqs := rfl
@[simp] theorem State.updQueue_pends : (s.updQueue f q g).pends = s.pends := rfl
@[simp] theorem State.updQueue_rops : (s.updQueue f q g).rops = s.rops := rfl
@[simp] theorem State.updQueue_peerRops : (s.updQueue f q g).peerRops = s.peerRops := rfl
@[simp] theorem State.updQueue_halves : (s.updQueue f q g).halves = s.halves := rfl
@[simp] theorem State.updQueue_inbox : (s.updQueue f q g).inbox = s.inbox := rfl
@[simp] theorem State.updQueue_combs : (s.updQueue f q g).combs = s.combs := rfl
@[simp] theorem State.updQueue_chans : (s.updQueue f q g).chans = s.chans := rfl
@[simp] theorem State.updQueue_ring : (s.updQueue f q g).ring = s.ring := rfl
@[simp] theorem State.updQueue_out : (s.updQueue f q g).out = s.out := rfl
@[simp] theorem State.updQueue_ev : (s.updQueue f q g).ev = s.ev := rfl
@[simp] theorem State.updQueue_cur : (s.updQueue f q g).cur = s.cur := rfl
@[simp] theorem State.updQueue_clk : (s.updQueue f q g).clk = s.clk := rfl
@[simp] theorem State.updQueue_time : (s.updQueue f q g).time = s.time := rfl
@[simp] theorem State.updQueue_tick : (s.updQueue f q g).tick = s.tick := rfl
@[simp] theorem State.updQueue_nextId : (s.updQueue f q g).nextId = s.nextId := rfl
@[simp] theorem State.updQueue_free : (s.updQueue f q g).free = s.free := rfl
end

section
variable (s : State) (p : Nat) (f : Chan → Chan)
@[simp] theorem State.updChan_dev : (s.updChan p f).dev = s.dev := rfl
@[simp] theorem State.updChan_fns : (s.updChan p f).fns = s.fns := rfl
@[simp] theorem State.updChan_ctxs : (s.updChan p f).ctxs = s.ctxs := rfl
@[simp] theorem State.updChan_xl : (s.updChan p f).xl = s.xl := rfl
@[simp] theorem State.updChan_trs : (s.updChan p f).trs = s.trs := rfl
@[simp] theorem State.updChan_pcs : (s.updChan p f).pcs = s.pcs := rfl
@[simp] theorem State.updChan_launches : (s.updChan p f).launches = s.launches := rfl
@[simp] theorem State.updChan_seals : (s.updChan p f).seals = s.seals := rfl
@[simp] theorem State.updChan_teams : (s.updChan p f).teams = s.teams := rfl
@[simp] theorem State.updChan_cores : (s.updChan p f).cores = s.cores := rfl
@[simp] theorem State.updChan_mem : (s.updChan p f).mem = s.mem := rfl
@[simp] theorem State.updChan_reqs : (s.updChan p f).reqs = s.reqs := rfl
@[simp] theorem State.updChan_pends : (s.updChan p f).pends = s.pends := rfl
@[simp] theorem State.updChan_rops : (s.updChan p f).rops = s.rops := rfl
@[simp] theorem State.updChan_peerRops : (s.updChan p f).peerRops = s.peerRops := rfl
@[simp] theorem State.updChan_halves : (s.updChan p f).halves = s.halves := rfl
@[simp] theorem State.updChan_inbox : (s.updChan p f).inbox = s.inbox := rfl
@[simp] theorem State.updChan_combs : (s.updChan p f).combs = s.combs := rfl
@[simp] theorem State.updChan_ring : (s.updChan p f).ring = s.ring := rfl
@[simp] theorem State.updChan_out : (s.updChan p f).out = s.out := rfl
@[simp] theorem State.updChan_ev : (s.updChan p f).ev = s.ev := rfl
@[simp] theorem State.updChan_cur : (s.updChan p f).cur = s.cur := rfl
@[simp] theorem State.updChan_clk : (s.updChan p f).clk = s.clk := rfl
@[simp] theorem State.updChan_time : (s.updChan p f).time = s.time := rfl
@[simp] theorem State.updChan_tick : (s.updChan p f).tick = s.tick := rfl
@[simp] theorem State.updChan_nextId : (s.updChan p f).nextId = s.nextId := rfl
@[simp] theorem State.updChan_free : (s.updChan p f).free = s.free := rfl
end

section
variable (s : State)
@[simp] theorem State.bump_dev : (s.bump).dev = s.dev := rfl
@[simp] theorem State.bump_fns : (s.bump).fns = s.fns := rfl
@[simp] theorem State.bump_ctxs : (s.bump).ctxs = s.ctxs := rfl
@[simp] theorem State.bump_xl : (s.bump).xl = s.xl := rfl
@[simp] theorem State.bump_trs : (s.bump).trs = s.trs := rfl
@[simp] theorem State.bump_pcs : (s.bump).pcs = s.pcs := rfl
@[simp] theorem State.bump_launches : (s.bump).launches = s.launches := rfl
@[simp] theorem State.bump_seals : (s.bump).seals = s.seals := rfl
@[simp] theorem State.bump_teams : (s.bump).teams = s.teams := rfl
@[simp] theorem State.bump_cores : (s.bump).cores = s.cores := rfl
@[simp] theorem State.bump_mem : (s.bump).mem = s.mem := rfl
@[simp] theorem State.bump_reqs : (s.bump).reqs = s.reqs := rfl
@[simp] theorem State.bump_pends : (s.bump).pends = s.pends := rfl
@[simp] theorem State.bump_rops : (s.bump).rops = s.rops := rfl
@[simp] theorem State.bump_peerRops : (s.bump).peerRops = s.peerRops := rfl
@[simp] theorem State.bump_halves : (s.bump).halves = s.halves := rfl
@[simp] theorem State.bump_inbox : (s.bump).inbox = s.inbox := rfl
@[simp] theorem State.bump_combs : (s.bump).combs = s.combs := rfl
@[simp] theorem State.bump_chans : (s.bump).chans = s.chans := rfl
@[simp] theorem State.bump_ring : (s.bump).ring = s.ring := rfl
@[simp] theorem State.bump_out : (s.bump).out = s.out := rfl
@[simp] theorem State.bump_ev : (s.bump).ev = s.ev := rfl
@[simp] theorem State.bump_cur : (s.bump).cur = s.cur := rfl
@[simp] theorem State.bump_clk : (s.bump).clk = s.clk := rfl
@[simp] theorem State.bump_time : (s.bump).time = s.time := rfl
@[simp] theorem State.bump_tick : (s.bump).tick = s.tick := rfl
@[simp] theorem State.bump_free : (s.bump).free = s.free := rfl
end

section
variable (s : State) (n : Nat)
@[simp] theorem State.draw_dev : (s.draw n).dev = s.dev := rfl
@[simp] theorem State.draw_fns : (s.draw n).fns = s.fns := rfl
@[simp] theorem State.draw_ctxs : (s.draw n).ctxs = s.ctxs := rfl
@[simp] theorem State.draw_xl : (s.draw n).xl = s.xl := rfl
@[simp] theorem State.draw_trs : (s.draw n).trs = s.trs := rfl
@[simp] theorem State.draw_pcs : (s.draw n).pcs = s.pcs := rfl
@[simp] theorem State.draw_launches : (s.draw n).launches = s.launches := rfl
@[simp] theorem State.draw_seals : (s.draw n).seals = s.seals := rfl
@[simp] theorem State.draw_teams : (s.draw n).teams = s.teams := rfl
@[simp] theorem State.draw_cores : (s.draw n).cores = s.cores := rfl
@[simp] theorem State.draw_mem : (s.draw n).mem = s.mem := rfl
@[simp] theorem State.draw_reqs : (s.draw n).reqs = s.reqs := rfl
@[simp] theorem State.draw_pends : (s.draw n).pends = s.pends := rfl
@[simp] theorem State.draw_rops : (s.draw n).rops = s.rops := rfl
@[simp] theorem State.draw_peerRops : (s.draw n).peerRops = s.peerRops := rfl
@[simp] theorem State.draw_halves : (s.draw n).halves = s.halves := rfl
@[simp] theorem State.draw_inbox : (s.draw n).inbox = s.inbox := rfl
@[simp] theorem State.draw_combs : (s.draw n).combs = s.combs := rfl
@[simp] theorem State.draw_chans : (s.draw n).chans = s.chans := rfl
@[simp] theorem State.draw_ring : (s.draw n).ring = s.ring := rfl
@[simp] theorem State.draw_out : (s.draw n).out = s.out := rfl
@[simp] theorem State.draw_ev : (s.draw n).ev = s.ev := rfl
@[simp] theorem State.draw_cur : (s.draw n).cur = s.cur := rfl
@[simp] theorem State.draw_clk : (s.draw n).clk = s.clk := rfl
@[simp] theorem State.draw_time : (s.draw n).time = s.time := rfl
@[simp] theorem State.draw_tick : (s.draw n).tick = s.tick := rfl
@[simp] theorem State.draw_nextId : (s.draw n).nextId = s.nextId := rfl
end

section
variable (s : State) (es : List Ev)
@[simp] theorem State.pending_dev : (s.pending es).dev = s.dev := rfl
@[simp] theorem State.pending_fns : (s.pending es).fns = s.fns := rfl
@[simp] theorem State.pending_ctxs : (s.pending es).ctxs = s.ctxs := rfl
@[simp] theorem State.pending_xl : (s.pending es).xl = s.xl := rfl
@[simp] theorem State.pending_trs : (s.pending es).trs = s.trs := rfl
@[simp] theorem State.pending_pcs : (s.pending es).pcs = s.pcs := rfl
@[simp] theorem State.pending_launches : (s.pending es).launches = s.launches := rfl
@[simp] theorem State.pending_seals : (s.pending es).seals = s.seals := rfl
@[simp] theorem State.pending_teams : (s.pending es).teams = s.teams := rfl
@[simp] theorem State.pending_cores : (s.pending es).cores = s.cores := rfl
@[simp] theorem State.pending_mem : (s.pending es).mem = s.mem := rfl
@[simp] theorem State.pending_reqs : (s.pending es).reqs = s.reqs := rfl
@[simp] theorem State.pending_pends : (s.pending es).pends = s.pends := rfl
@[simp] theorem State.pending_rops : (s.pending es).rops = s.rops := rfl
@[simp] theorem State.pending_peerRops : (s.pending es).peerRops = s.peerRops := rfl
@[simp] theorem State.pending_halves : (s.pending es).halves = s.halves := rfl
@[simp] theorem State.pending_inbox : (s.pending es).inbox = s.inbox := rfl
@[simp] theorem State.pending_combs : (s.pending es).combs = s.combs := rfl
@[simp] theorem State.pending_chans : (s.pending es).chans = s.chans := rfl
@[simp] theorem State.pending_ring : (s.pending es).ring = s.ring := rfl
@[simp] theorem State.pending_out : (s.pending es).out = s.out := rfl
@[simp] theorem State.pending_cur : (s.pending es).cur = s.cur := rfl
@[simp] theorem State.pending_clk : (s.pending es).clk = s.clk := rfl
@[simp] theorem State.pending_time : (s.pending es).time = s.time := rfl
@[simp] theorem State.pending_tick : (s.pending es).tick = s.tick := rfl
@[simp] theorem State.pending_nextId : (s.pending es).nextId = s.nextId := rfl
@[simp] theorem State.pending_free : (s.pending es).free = s.free := rfl
end

section
variable (s : State) (es : List Ev)
@[simp] theorem State.post_dev : (s.post es).dev = s.dev := rfl
@[simp] theorem State.post_fns : (s.post es).fns = s.fns := rfl
@[simp] theorem State.post_ctxs : (s.post es).ctxs = s.ctxs := rfl
@[simp] theorem State.post_xl : (s.post es).xl = s.xl := rfl
@[simp] theorem State.post_trs : (s.post es).trs = s.trs := rfl
@[simp] theorem State.post_pcs : (s.post es).pcs = s.pcs := rfl
@[simp] theorem State.post_launches : (s.post es).launches = s.launches := rfl
@[simp] theorem State.post_seals : (s.post es).seals = s.seals := rfl
@[simp] theorem State.post_teams : (s.post es).teams = s.teams := rfl
@[simp] theorem State.post_cores : (s.post es).cores = s.cores := rfl
@[simp] theorem State.post_mem : (s.post es).mem = s.mem := rfl
@[simp] theorem State.post_reqs : (s.post es).reqs = s.reqs := rfl
@[simp] theorem State.post_pends : (s.post es).pends = s.pends := rfl
@[simp] theorem State.post_rops : (s.post es).rops = s.rops := rfl
@[simp] theorem State.post_peerRops : (s.post es).peerRops = s.peerRops := rfl
@[simp] theorem State.post_halves : (s.post es).halves = s.halves := rfl
@[simp] theorem State.post_inbox : (s.post es).inbox = s.inbox := rfl
@[simp] theorem State.post_combs : (s.post es).combs = s.combs := rfl
@[simp] theorem State.post_chans : (s.post es).chans = s.chans := rfl
@[simp] theorem State.post_ring : (s.post es).ring = s.ring := rfl
@[simp] theorem State.post_out : (s.post es).out = s.out := rfl
@[simp] theorem State.post_cur : (s.post es).cur = s.cur := rfl
@[simp] theorem State.post_clk : (s.post es).clk = s.clk := rfl
@[simp] theorem State.post_time : (s.post es).time = s.time := rfl
@[simp] theorem State.post_tick : (s.post es).tick = s.tick := rfl
@[simp] theorem State.post_nextId : (s.post es).nextId = s.nextId := rfl
@[simp] theorem State.post_free : (s.post es).free = s.free := rfl
end

section
variable (s : State) (e : Emission)
@[simp] theorem State.emit_dev : (s.emit e).dev = s.dev := rfl
@[simp] theorem State.emit_fns : (s.emit e).fns = s.fns := rfl
@[simp] theorem State.emit_ctxs : (s.emit e).ctxs = s.ctxs := rfl
@[simp] theorem State.emit_xl : (s.emit e).xl = s.xl := rfl
@[simp] theorem State.emit_trs : (s.emit e).trs = s.trs := rfl
@[simp] theorem State.emit_pcs : (s.emit e).pcs = s.pcs := rfl
@[simp] theorem State.emit_launches : (s.emit e).launches = s.launches := rfl
@[simp] theorem State.emit_seals : (s.emit e).seals = s.seals := rfl
@[simp] theorem State.emit_teams : (s.emit e).teams = s.teams := rfl
@[simp] theorem State.emit_cores : (s.emit e).cores = s.cores := rfl
@[simp] theorem State.emit_mem : (s.emit e).mem = s.mem := rfl
@[simp] theorem State.emit_reqs : (s.emit e).reqs = s.reqs := rfl
@[simp] theorem State.emit_pends : (s.emit e).pends = s.pends := rfl
@[simp] theorem State.emit_rops : (s.emit e).rops = s.rops := rfl
@[simp] theorem State.emit_peerRops : (s.emit e).peerRops = s.peerRops := rfl
@[simp] theorem State.emit_halves : (s.emit e).halves = s.halves := rfl
@[simp] theorem State.emit_inbox : (s.emit e).inbox = s.inbox := rfl
@[simp] theorem State.emit_combs : (s.emit e).combs = s.combs := rfl
@[simp] theorem State.emit_chans : (s.emit e).chans = s.chans := rfl
@[simp] theorem State.emit_ring : (s.emit e).ring = s.ring := rfl
@[simp] theorem State.emit_ev : (s.emit e).ev = s.ev := rfl
@[simp] theorem State.emit_cur : (s.emit e).cur = s.cur := rfl
@[simp] theorem State.emit_clk : (s.emit e).clk = s.clk := rfl
@[simp] theorem State.emit_time : (s.emit e).time = s.time := rfl
@[simp] theorem State.emit_tick : (s.emit e).tick = s.tick := rfl
@[simp] theorem State.emit_nextId : (s.emit e).nextId = s.nextId := rfl
@[simp] theorem State.emit_free : (s.emit e).free = s.free := rfl
end

section
variable (s : State) (i : Iss) (f : Grp → Grp)
@[simp] theorem State.upd_dev : (s.upd i f).dev = s.dev := rfl
@[simp] theorem State.upd_fns : (s.upd i f).fns = s.fns := rfl
@[simp] theorem State.upd_ctxs : (s.upd i f).ctxs = s.ctxs := rfl
@[simp] theorem State.upd_xl : (s.upd i f).xl = s.xl := rfl
@[simp] theorem State.upd_trs : (s.upd i f).trs = s.trs := rfl
@[simp] theorem State.upd_pcs : (s.upd i f).pcs = s.pcs := rfl
@[simp] theorem State.upd_launches : (s.upd i f).launches = s.launches := rfl
@[simp] theorem State.upd_seals : (s.upd i f).seals = s.seals := rfl
@[simp] theorem State.upd_cores : (s.upd i f).cores = s.cores := rfl
@[simp] theorem State.upd_mem : (s.upd i f).mem = s.mem := rfl
@[simp] theorem State.upd_reqs : (s.upd i f).reqs = s.reqs := rfl
@[simp] theorem State.upd_pends : (s.upd i f).pends = s.pends := rfl
@[simp] theorem State.upd_rops : (s.upd i f).rops = s.rops := rfl
@[simp] theorem State.upd_peerRops : (s.upd i f).peerRops = s.peerRops := rfl
@[simp] theorem State.upd_halves : (s.upd i f).halves = s.halves := rfl
@[simp] theorem State.upd_inbox : (s.upd i f).inbox = s.inbox := rfl
@[simp] theorem State.upd_combs : (s.upd i f).combs = s.combs := rfl
@[simp] theorem State.upd_chans : (s.upd i f).chans = s.chans := rfl
@[simp] theorem State.upd_ring : (s.upd i f).ring = s.ring := rfl
@[simp] theorem State.upd_out : (s.upd i f).out = s.out := rfl
@[simp] theorem State.upd_ev : (s.upd i f).ev = s.ev := rfl
@[simp] theorem State.upd_cur : (s.upd i f).cur = s.cur := rfl
@[simp] theorem State.upd_clk : (s.upd i f).clk = s.clk := rfl
@[simp] theorem State.upd_time : (s.upd i f).time = s.time := rfl
@[simp] theorem State.upd_tick : (s.upd i f).tick = s.tick := rfl
@[simp] theorem State.upd_nextId : (s.upd i f).nextId = s.nextId := rfl
@[simp] theorem State.upd_free : (s.upd i f).free = s.free := rfl
end

section
variable (s : State) (i : Iss)
@[simp] theorem State.advance_dev : (s.advance i).dev = s.dev := rfl
@[simp] theorem State.advance_fns : (s.advance i).fns = s.fns := rfl
@[simp] theorem State.advance_ctxs : (s.advance i).ctxs = s.ctxs := rfl
@[simp] theorem State.advance_xl : (s.advance i).xl = s.xl := rfl
@[simp] theorem State.advance_trs : (s.advance i).trs = s.trs := rfl
@[simp] theorem State.advance_pcs : (s.advance i).pcs = s.pcs := rfl
@[simp] theorem State.advance_launches : (s.advance i).launches = s.launches := rfl
@[simp] theorem State.advance_seals : (s.advance i).seals = s.seals := rfl
@[simp] theorem State.advance_cores : (s.advance i).cores = s.cores := rfl
@[simp] theorem State.advance_mem : (s.advance i).mem = s.mem := rfl
@[simp] theorem State.advance_reqs : (s.advance i).reqs = s.reqs := rfl
@[simp] theorem State.advance_pends : (s.advance i).pends = s.pends := rfl
@[simp] theorem State.advance_rops : (s.advance i).rops = s.rops := rfl
@[simp] theorem State.advance_peerRops : (s.advance i).peerRops = s.peerRops := rfl
@[simp] theorem State.advance_halves : (s.advance i).halves = s.halves := rfl
@[simp] theorem State.advance_inbox : (s.advance i).inbox = s.inbox := rfl
@[simp] theorem State.advance_combs : (s.advance i).combs = s.combs := rfl
@[simp] theorem State.advance_chans : (s.advance i).chans = s.chans := rfl
@[simp] theorem State.advance_ring : (s.advance i).ring = s.ring := rfl
@[simp] theorem State.advance_out : (s.advance i).out = s.out := rfl
@[simp] theorem State.advance_ev : (s.advance i).ev = s.ev := rfl
@[simp] theorem State.advance_cur : (s.advance i).cur = s.cur := rfl
@[simp] theorem State.advance_clk : (s.advance i).clk = s.clk := rfl
@[simp] theorem State.advance_time : (s.advance i).time = s.time := rfl
@[simp] theorem State.advance_tick : (s.advance i).tick = s.tick := rfl
@[simp] theorem State.advance_nextId : (s.advance i).nextId = s.nextId := rfl
@[simp] theorem State.advance_free : (s.advance i).free = s.free := rfl
end

section
variable (s : State) (i : Iss)
@[simp] theorem State.advanceRegion_dev : (s.advanceRegion i).dev = s.dev := rfl
@[simp] theorem State.advanceRegion_fns : (s.advanceRegion i).fns = s.fns := rfl
@[simp] theorem State.advanceRegion_ctxs : (s.advanceRegion i).ctxs = s.ctxs := rfl
@[simp] theorem State.advanceRegion_xl : (s.advanceRegion i).xl = s.xl := rfl
@[simp] theorem State.advanceRegion_trs : (s.advanceRegion i).trs = s.trs := rfl
@[simp] theorem State.advanceRegion_pcs : (s.advanceRegion i).pcs = s.pcs := rfl
@[simp] theorem State.advanceRegion_launches : (s.advanceRegion i).launches = s.launches := rfl
@[simp] theorem State.advanceRegion_seals : (s.advanceRegion i).seals = s.seals := rfl
@[simp] theorem State.advanceRegion_cores : (s.advanceRegion i).cores = s.cores := rfl
@[simp] theorem State.advanceRegion_mem : (s.advanceRegion i).mem = s.mem := rfl
@[simp] theorem State.advanceRegion_reqs : (s.advanceRegion i).reqs = s.reqs := rfl
@[simp] theorem State.advanceRegion_pends : (s.advanceRegion i).pends = s.pends := rfl
@[simp] theorem State.advanceRegion_rops : (s.advanceRegion i).rops = s.rops := rfl
@[simp] theorem State.advanceRegion_peerRops : (s.advanceRegion i).peerRops = s.peerRops := rfl
@[simp] theorem State.advanceRegion_halves : (s.advanceRegion i).halves = s.halves := rfl
@[simp] theorem State.advanceRegion_inbox : (s.advanceRegion i).inbox = s.inbox := rfl
@[simp] theorem State.advanceRegion_combs : (s.advanceRegion i).combs = s.combs := rfl
@[simp] theorem State.advanceRegion_chans : (s.advanceRegion i).chans = s.chans := rfl
@[simp] theorem State.advanceRegion_ring : (s.advanceRegion i).ring = s.ring := rfl
@[simp] theorem State.advanceRegion_out : (s.advanceRegion i).out = s.out := rfl
@[simp] theorem State.advanceRegion_ev : (s.advanceRegion i).ev = s.ev := rfl
@[simp] theorem State.advanceRegion_cur : (s.advanceRegion i).cur = s.cur := rfl
@[simp] theorem State.advanceRegion_clk : (s.advanceRegion i).clk = s.clk := rfl
@[simp] theorem State.advanceRegion_time : (s.advanceRegion i).time = s.time := rfl
@[simp] theorem State.advanceRegion_tick : (s.advanceRegion i).tick = s.tick := rfl
@[simp] theorem State.advanceRegion_nextId : (s.advanceRegion i).nextId = s.nextId := rfl
@[simp] theorem State.advanceRegion_free : (s.advanceRegion i).free = s.free := rfl
end

end Sys2Proof.Machine
end

