-- ==== Sys2Proof/Laws/Effects.lean ====
section
/-!
SUPPORT. What the operations over memory, requests and pending instructions leave as it is, field by field.
-/

namespace Sys2Proof.Machine

section
variable (s : State) (f : Dev → Dev)
@[simp] theorem State.updDev_fns : (s.updDev f).fns = s.fns := rfl
@[simp] theorem State.updDev_ctxs : (s.updDev f).ctxs = s.ctxs := rfl
@[simp] theorem State.updDev_xl : (s.updDev f).xl = s.xl := rfl
@[simp] theorem State.updDev_trs : (s.updDev f).trs = s.trs := rfl
@[simp] theorem State.updDev_pcs : (s.updDev f).pcs = s.pcs := rfl
@[simp] theorem State.updDev_launches : (s.updDev f).launches = s.launches := rfl
@[simp] theorem State.updDev_seals : (s.updDev f).seals = s.seals := rfl
@[simp] theorem State.updDev_teams : (s.updDev f).teams = s.teams := rfl
@[simp] theorem State.updDev_cores : (s.updDev f).cores = s.cores := rfl
@[simp] theorem State.updDev_mem : (s.updDev f).mem = s.mem := rfl
@[simp] theorem State.updDev_reqs : (s.updDev f).reqs = s.reqs := rfl
@[simp] theorem State.updDev_pends : (s.updDev f).pends = s.pends := rfl
@[simp] theorem State.updDev_rops : (s.updDev f).rops = s.rops := rfl
@[simp] theorem State.updDev_peerRops : (s.updDev f).peerRops = s.peerRops := rfl
@[simp] theorem State.updDev_halves : (s.updDev f).halves = s.halves := rfl
@[simp] theorem State.updDev_inbox : (s.updDev f).inbox = s.inbox := rfl
@[simp] theorem State.updDev_combs : (s.updDev f).combs = s.combs := rfl
@[simp] theorem State.updDev_chans : (s.updDev f).chans = s.chans := rfl
@[simp] theorem State.updDev_ring : (s.updDev f).ring = s.ring := rfl
@[simp] theorem State.updDev_out : (s.updDev f).out = s.out := rfl
@[simp] theorem State.updDev_ev : (s.updDev f).ev = s.ev := rfl
@[simp] theorem State.updDev_cur : (s.updDev f).cur = s.cur := rfl
@[simp] theorem State.updDev_clk : (s.updDev f).clk = s.clk := rfl
@[simp] theorem State.updDev_time : (s.updDev f).time = s.time := rfl
@[simp] theorem State.updDev_tick : (s.updDev f).tick = s.tick := rfl
@[simp] theorem State.updDev_nextId : (s.updDev f).nextId = s.nextId := rfl
@[simp] theorem State.updDev_free : (s.updDev f).free = s.free := rfl
end

section
variable (s : State) (n : Nat) (f : Link → Link)
@[simp] theorem State.updLink_fns : (s.updLink n f).fns = s.fns := rfl
@[simp] theorem State.updLink_ctxs : (s.updLink n f).ctxs = s.ctxs := rfl
@[simp] theorem State.updLink_xl : (s.updLink n f).xl = s.xl := rfl
@[simp] theorem State.updLink_trs : (s.updLink n f).trs = s.trs := rfl
@[simp] theorem State.updLink_pcs : (s.updLink n f).pcs = s.pcs := rfl
@[simp] theorem State.updLink_launches : (s.updLink n f).launches = s.launches := rfl
@[simp] theorem State.updLink_seals : (s.updLink n f).seals = s.seals := rfl
@[simp] theorem State.updLink_teams : (s.updLink n f).teams = s.teams := rfl
@[simp] theorem State.updLink_cores : (s.updLink n f).cores = s.cores := rfl
@[simp] theorem State.updLink_mem : (s.updLink n f).mem = s.mem := rfl
@[simp] theorem State.updLink_reqs : (s.updLink n f).reqs = s.reqs := rfl
@[simp] theorem State.updLink_pends : (s.updLink n f).pends = s.pends := rfl
@[simp] theorem State.updLink_rops : (s.updLink n f).rops = s.rops := rfl
@[simp] theorem State.updLink_peerRops : (s.updLink n f).peerRops = s.peerRops := rfl
@[simp] theorem State.updLink_halves : (s.updLink n f).halves = s.halves := rfl
@[simp] theorem State.updLink_inbox : (s.updLink n f).inbox = s.inbox := rfl
@[simp] theorem State.updLink_combs : (s.updLink n f).combs = s.combs := rfl
@[simp] theorem State.updLink_chans : (s.updLink n f).chans = s.chans := rfl
@[simp] theorem State.updLink_ring : (s.updLink n f).ring = s.ring := rfl
@[simp] theorem State.updLink_out : (s.updLink n f).out = s.out := rfl
@[simp] theorem State.updLink_ev : (s.updLink n f).ev = s.ev := rfl
@[simp] theorem State.updLink_cur : (s.updLink n f).cur = s.cur := rfl
@[simp] theorem State.updLink_clk : (s.updLink n f).clk = s.clk := rfl
@[simp] theorem State.updLink_time : (s.updLink n f).time = s.time := rfl
@[simp] theorem State.updLink_tick : (s.updLink n f).tick = s.tick := rfl
@[simp] theorem State.updLink_nextId : (s.updLink n f).nextId = s.nextId := rfl
@[simp] theorem State.updLink_free : (s.updLink n f).free = s.free := rfl
end

section
variable (s : State) (n : Nat) (f : Slot → Slot)
@[simp] theorem State.updSlotN_dev : (s.updSlotN n f).dev = s.dev := rfl
@[simp] theorem State.updSlotN_fns : (s.updSlotN n f).fns = s.fns := rfl
@[simp] theorem State.updSlotN_ctxs : (s.updSlotN n f).ctxs = s.ctxs := rfl
@[simp] theorem State.updSlotN_xl : (s.updSlotN n f).xl = s.xl := rfl
@[simp] theorem State.updSlotN_trs : (s.updSlotN n f).trs = s.trs := rfl
@[simp] theorem State.updSlotN_pcs : (s.updSlotN n f).pcs = s.pcs := rfl
@[simp] theorem State.updSlotN_launches : (s.updSlotN n f).launches = s.launches := rfl
@[simp] theorem State.updSlotN_seals : (s.updSlotN n f).seals = s.seals := rfl
@[simp] theorem State.updSlotN_teams : (s.updSlotN n f).teams = s.teams := rfl
@[simp] theorem State.updSlotN_cores : (s.updSlotN n f).cores = s.cores := rfl
@[simp] theorem State.updSlotN_mem : (s.updSlotN n f).mem = s.mem := rfl
@[simp] theorem State.updSlotN_reqs : (s.updSlotN n f).reqs = s.reqs := rfl
@[simp] theorem State.updSlotN_pends : (s.updSlotN n f).pends = s.pends := rfl
@[simp] theorem State.updSlotN_rops : (s.updSlotN n f).rops = s.rops := rfl
@[simp] theorem State.updSlotN_peerRops : (s.updSlotN n f).peerRops = s.peerRops := rfl
@[simp] theorem State.updSlotN_halves : (s.updSlotN n f).halves = s.halves := rfl
@[simp] theorem State.updSlotN_inbox : (s.updSlotN n f).inbox = s.inbox := rfl
@[simp] theorem State.updSlotN_combs : (s.updSlotN n f).combs = s.combs := rfl
@[simp] theorem State.updSlotN_chans : (s.updSlotN n f).chans = s.chans := rfl
@[simp] theorem State.updSlotN_out : (s.updSlotN n f).out = s.out := rfl
@[simp] theorem State.updSlotN_ev : (s.updSlotN n f).ev = s.ev := rfl
@[simp] theorem State.updSlotN_cur : (s.updSlotN n f).cur = s.cur := rfl
@[simp] theorem State.updSlotN_clk : (s.updSlotN n f).clk = s.clk := rfl
@[simp] theorem State.updSlotN_time : (s.updSlotN n f).time = s.time := rfl
@[simp] theorem State.updSlotN_tick : (s.updSlotN n f).tick = s.tick := rfl
@[simp] theorem State.updSlotN_nextId : (s.updSlotN n f).nextId = s.nextId := rfl
@[simp] theorem State.updSlotN_free : (s.updSlotN n f).free = s.free := rfl
end

section
variable (s : State) (i : Iss) (pc : U64)
@[simp] theorem State.goto_dev : (s.goto i pc).dev = s.dev := rfl
@[simp] theorem State.goto_fns : (s.goto i pc).fns = s.fns := rfl
@[simp] theorem State.goto_ctxs : (s.goto i pc).ctxs = s.ctxs := rfl
@[simp] theorem State.goto_xl : (s.goto i pc).xl = s.xl := rfl
@[simp] theorem State.goto_trs : (s.goto i pc).trs = s.trs := rfl
@[simp] theorem State.goto_pcs : (s.goto i pc).pcs = s.pcs := rfl
@[simp] theorem State.goto_launches : (s.goto i pc).launches = s.launches := rfl
@[simp] theorem State.goto_seals : (s.goto i pc).seals = s.seals := rfl
@[simp] theorem State.goto_cores : (s.goto i pc).cores = s.cores := rfl
@[simp] theorem State.goto_mem : (s.goto i pc).mem = s.mem := rfl
@[simp] theorem State.goto_reqs : (s.goto i pc).reqs = s.reqs := rfl
@[simp] theorem State.goto_pends : (s.goto i pc).pends = s.pends := rfl
@[simp] theorem State.goto_rops : (s.goto i pc).rops = s.rops := rfl
@[simp] theorem State.goto_peerRops : (s.goto i pc).peerRops = s.peerRops := rfl
@[simp] theorem State.goto_halves : (s.goto i pc).halves = s.halves := rfl
@[simp] theorem State.goto_inbox : (s.goto i pc).inbox = s.inbox := rfl
@[simp] theorem State.goto_combs : (s.goto i pc).combs = s.combs := rfl
@[simp] theorem State.goto_chans : (s.goto i pc).chans = s.chans := rfl
@[simp] theorem State.goto_ring : (s.goto i pc).ring = s.ring := rfl
@[simp] theorem State.goto_out : (s.goto i pc).out = s.out := rfl
@[simp] theorem State.goto_ev : (s.goto i pc).ev = s.ev := rfl
@[simp] theorem State.goto_cur : (s.goto i pc).cur = s.cur := rfl
@[simp] theorem State.goto_clk : (s.goto i pc).clk = s.clk := rfl
@[simp] theorem State.goto_time : (s.goto i pc).time = s.time := rfl
@[simp] theorem State.goto_tick : (s.goto i pc).tick = s.tick := rfl
@[simp] theorem State.goto_nextId : (s.goto i pc).nextId = s.nextId := rfl
@[simp] theorem State.goto_free : (s.goto i pc).free = s.free := rfl
end

section
variable (s : State) (l : List Xlat)
@[simp] theorem State.store_dev : (s.store l).dev = s.dev := rfl
@[simp] theorem State.store_fns : (s.store l).fns = s.fns := rfl
@[simp] theorem State.store_ctxs : (s.store l).ctxs = s.ctxs := rfl
@[simp] theorem State.store_trs : (s.store l).trs = s.trs := rfl
@[simp] theorem State.store_pcs : (s.store l).pcs = s.pcs := rfl
@[simp] theorem State.store_launches : (s.store l).launches = s.launches := rfl
@[simp] theorem State.store_seals : (s.store l).seals = s.seals := rfl
@[simp] theorem State.store_teams : (s.store l).teams = s.teams := rfl
@[simp] theorem State.store_cores : (s.store l).cores = s.cores := rfl
@[simp] theorem State.store_mem : (s.store l).mem = s.mem := rfl
@[simp] theorem State.store_reqs : (s.store l).reqs = s.reqs := rfl
@[simp] theorem State.store_pends : (s.store l).pends = s.pends := rfl
@[simp] theorem State.store_rops : (s.store l).rops = s.rops := rfl
@[simp] theorem State.store_peerRops : (s.store l).peerRops = s.peerRops := rfl
@[simp] theorem State.store_halves : (s.store l).halves = s.halves := rfl
@[simp] theorem State.store_inbox : (s.store l).inbox = s.inbox := rfl
@[simp] theorem State.store_combs : (s.store l).combs = s.combs := rfl
@[simp] theorem State.store_chans : (s.store l).chans = s.chans := rfl
@[simp] theorem State.store_ring : (s.store l).ring = s.ring := rfl
@[simp] theorem State.store_out : (s.store l).out = s.out := rfl
@[simp] theorem State.store_ev : (s.store l).ev = s.ev := rfl
@[simp] theorem State.store_cur : (s.store l).cur = s.cur := rfl
@[simp] theorem State.store_clk : (s.store l).clk = s.clk := rfl
@[simp] theorem State.store_time : (s.store l).time = s.time := rfl
@[simp] theorem State.store_tick : (s.store l).tick = s.tick := rfl
@[simp] theorem State.store_nextId : (s.store l).nextId = s.nextId := rfl
@[simp] theorem State.store_free : (s.store l).free = s.free := rfl
end

/-! ### The slices -/

/-- Giving a line a place writes the slices, and draws which way is evicted. -/
theorem State.allocLine_frame (s : State) (ctx line : Nat) :
    ∃ m f, s.allocLine ctx line = { s with mem := m, free := f } := by
  unfold State.allocLine
  split
  · exact ⟨s.mem, s.free, rfl⟩
  · dsimp only
    generalize Option.isSome _ = c
    cases c <;> exact ⟨_, _, rfl⟩

/-- A write at its homes writes memory and the slices, and draws which ways are evicted. -/
theorem State.homeWrite_frame (s : State) (ctx launch dpa : Nat) (bs : List (Nat × Byte)) :
    ∃ m f, s.homeWrite ctx launch dpa bs = { s with mem := m, free := f } := by
  unfold State.homeWrite
  dsimp only
  generalize (bs.map fun e => (dpa + e.1, e.2)).foldl (fun (l : List Nat) (e : Nat × Byte) => if l.contains (e.1 / 128) then l else l ++ [e.1 / 128]) [] = ls
  generalize s.keyOf ctx = k
  suffices h : ∀ (ls : List Nat) (x : State), (∃ m f, x = { s with mem := m, free := f }) →
      ∃ m f, ls.foldl (fun s line =>
        let s := s.allocLine ctx line
        let mine := ((bs.map fun e => (dpa + e.1, e.2)).filter fun e => e.1 / 128 == line).map fun e => (e.1 % 128, e.2)
        { s with mem := s.mem.lineWrite k ctx line launch mine }) x =
        { s with mem := m, free := f } from h ls s ⟨s.mem, s.free, rfl⟩
  intro ls
  induction ls with
  | nil => exact fun x h => h
  | cons l t ih =>
    intro x ⟨m, f, hx⟩
    apply ih
    obtain ⟨m', f', h'⟩ := State.allocLine_frame x ctx l
    dsimp only
    rw [h', hx]
    exact ⟨_, _, rfl⟩

/-- A write at its point of service writes memory and the slices, and draws which ways are evicted. -/
theorem State.pointWrite_frame (s : State) (ctx launch dpa : Nat) (uam : Bool) (bs : List (Nat × Byte)) :
    ∃ m f, s.pointWrite ctx launch dpa uam bs = { s with mem := m, free := f } := by
  unfold State.pointWrite
  split
  · exact ⟨_, _, rfl⟩
  · exact s.homeWrite_frame ctx launch dpa bs

section
variable (s : State) (ctx line : Nat)
@[simp] theorem State.allocLine_dev : (s.allocLine ctx line).dev = s.dev := by
  obtain ⟨m, g, h⟩ := s.allocLine_frame ctx line
  rw [h]
@[simp] theorem State.allocLine_fns : (s.allocLine ctx line).fns = s.fns := by
  obtain ⟨m, g, h⟩ := s.allocLine_frame ctx line
  rw [h]
@[simp] theorem State.allocLine_ctxs : (s.allocLine ctx line).ctxs = s.ctxs := by
  obtain ⟨m, g, h⟩ := s.allocLine_frame ctx line
  rw [h]
@[simp] theorem State.allocLine_xl : (s.allocLine ctx line).xl = s.xl := by
  obtain ⟨m, g, h⟩ := s.allocLine_frame ctx line
  rw [h]
@[simp] theorem State.allocLine_trs : (s.allocLine ctx line).trs = s.trs := by
  obtain ⟨m, g, h⟩ := s.allocLine_frame ctx line
  rw [h]
@[simp] theorem State.allocLine_pcs : (s.allocLine ctx line).pcs = s.pcs := by
  obtain ⟨m, g, h⟩ := s.allocLine_frame ctx line
  rw [h]
@[simp] theorem State.allocLine_launches : (s.allocLine ctx line).launches = s.launches := by
  obtain ⟨m, g, h⟩ := s.allocLine_frame ctx line
  rw [h]
@[simp] theorem State.allocLine_seals : (s.allocLine ctx line).seals = s.seals := by
  obtain ⟨m, g, h⟩ := s.allocLine_frame ctx line
  rw [h]
@[simp] theorem State.allocLine_teams : (s.allocLine ctx line).teams = s.teams := by
  obtain ⟨m, g, h⟩ := s.allocLine_frame ctx line
  rw [h]
@[simp] theorem State.allocLine_cores : (s.allocLine ctx line).cores = s.cores := by
  obtain ⟨m, g, h⟩ := s.allocLine_frame ctx line
  rw [h]
@[simp] theorem State.allocLine_reqs : (s.allocLine ctx line).reqs = s.reqs := by
  obtain ⟨m, g, h⟩ := s.allocLine_frame ctx line
  rw [h]
@[simp] theorem State.allocLine_pends : (s.allocLine ctx line).pends = s.pends := by
  obtain ⟨m, g, h⟩ := s.allocLine_frame ctx line
  rw [h]
@[simp] theorem State.allocLine_rops : (s.allocLine ctx line).rops = s.rops := by
  obtain ⟨m, g, h⟩ := s.allocLine_frame ctx line
  rw [h]
@[simp] theorem State.allocLine_peerRops : (s.allocLine ctx line).peerRops = s.peerRops := by
  obtain ⟨m, g, h⟩ := s.allocLine_frame ctx line
  rw [h]
@[simp] theorem State.allocLine_halves : (s.allocLine ctx line).halves = s.halves := by
  obtain ⟨m, g, h⟩ := s.allocLine_frame ctx line
  rw [h]
@[simp] theorem State.allocLine_inbox : (s.allocLine ctx line).inbox = s.inbox := by
  obtain ⟨m, g, h⟩ := s.allocLine_frame ctx line
  rw [h]
@[simp] theorem State.allocLine_combs : (s.allocLine ctx line).combs = s.combs := by
  obtain ⟨m, g, h⟩ := s.allocLine_frame ctx line
  rw [h]
@[simp] theorem State.allocLine_chans : (s.allocLine ctx line).chans = s.chans := by
  obtain ⟨m, g, h⟩ := s.allocLine_frame ctx line
  rw [h]
@[simp] theorem State.allocLine_ring : (s.allocLine ctx line).ring = s.ring := by
  obtain ⟨m, g, h⟩ := s.allocLine_frame ctx line
  rw [h]
@[simp] theorem State.allocLine_out : (s.allocLine ctx line).out = s.out := by
  obtain ⟨m, g, h⟩ := s.allocLine_frame ctx line
  rw [h]
@[simp] theorem State.allocLine_ev : (s.allocLine ctx line).ev = s.ev := by
  obtain ⟨m, g, h⟩ := s.allocLine_frame ctx line
  rw [h]
@[simp] theorem State.allocLine_cur : (s.allocLine ctx line).cur = s.cur := by
  obtain ⟨m, g, h⟩ := s.allocLine_frame ctx line
  rw [h]
@[simp] theorem State.allocLine_clk : (s.allocLine ctx line).clk = s.clk := by
  obtain ⟨m, g, h⟩ := s.allocLine_frame ctx line
  rw [h]
@[simp] theorem State.allocLine_time : (s.allocLine ctx line).time = s.time := by
  obtain ⟨m, g, h⟩ := s.allocLine_frame ctx line
  rw [h]
@[simp] theorem State.allocLine_tick : (s.allocLine ctx line).tick = s.tick := by
  obtain ⟨m, g, h⟩ := s.allocLine_frame ctx line
  rw [h]
@[simp] theorem State.allocLine_nextId : (s.allocLine ctx line).nextId = s.nextId := by
  obtain ⟨m, g, h⟩ := s.allocLine_frame ctx line
  rw [h]
@[simp] theorem State.allocLine_fetches : (s.allocLine ctx line).fetches = s.fetches := by
  obtain ⟨m, g, h⟩ := s.allocLine_frame ctx line
  rw [h]
@[simp] theorem State.allocLine_bwWait : (s.allocLine ctx line).bwWait = s.bwWait := by
  obtain ⟨m, g, h⟩ := s.allocLine_frame ctx line
  rw [h]
@[simp] theorem State.allocLine_bars : (s.allocLine ctx line).bars = s.bars := by
  obtain ⟨m, g, h⟩ := s.allocLine_frame ctx line
  rw [h]
end

section
variable (s : State) (ctx launch dpa : Nat) (bs : List (Nat × Byte))
@[simp] theorem State.homeWrite_dev : (s.homeWrite ctx launch dpa bs).dev = s.dev := by
  obtain ⟨m, g, h⟩ := s.homeWrite_frame ctx launch dpa bs
  rw [h]
@[simp] theorem State.homeWrite_fns : (s.homeWrite ctx launch dpa bs).fns = s.fns := by
  obtain ⟨m, g, h⟩ := s.homeWrite_frame ctx launch dpa bs
  rw [h]
@[simp] theorem State.homeWrite_ctxs : (s.homeWrite ctx launch dpa bs).ctxs = s.ctxs := by
  obtain ⟨m, g, h⟩ := s.homeWrite_frame ctx launch dpa bs
  rw [h]
@[simp] theorem State.homeWrite_xl : (s.homeWrite ctx launch dpa bs).xl = s.xl := by
  obtain ⟨m, g, h⟩ := s.homeWrite_frame ctx launch dpa bs
  rw [h]
@[simp] theorem State.homeWrite_trs : (s.homeWrite ctx launch dpa bs).trs = s.trs := by
  obtain ⟨m, g, h⟩ := s.homeWrite_frame ctx launch dpa bs
  rw [h]
@[simp] theorem State.homeWrite_pcs : (s.homeWrite ctx launch dpa bs).pcs = s.pcs := by
  obtain ⟨m, g, h⟩ := s.homeWrite_frame ctx launch dpa bs
  rw [h]
@[simp] theorem State.homeWrite_launches : (s.homeWrite ctx launch dpa bs).launches = s.launches := by
  obtain ⟨m, g, h⟩ := s.homeWrite_frame ctx launch dpa bs
  rw [h]
@[simp] theorem State.homeWrite_seals : (s.homeWrite ctx launch dpa bs).seals = s.seals := by
  obtain ⟨m, g, h⟩ := s.homeWrite_frame ctx launch dpa bs
  rw [h]
@[simp] theorem State.homeWrite_teams : (s.homeWrite ctx launch dpa bs).teams = s.teams := by
  obtain ⟨m, g, h⟩ := s.homeWrite_frame ctx launch dpa bs
  rw [h]
@[simp] theorem State.homeWrite_cores : (s.homeWrite ctx launch dpa bs).cores = s.cores := by
  obtain ⟨m, g, h⟩ := s.homeWrite_frame ctx launch dpa bs
  rw [h]
@[simp] theorem State.homeWrite_reqs : (s.homeWrite ctx launch dpa bs).reqs = s.reqs := by
  obtain ⟨m, g, h⟩ := s.homeWrite_frame ctx launch dpa bs
  rw [h]
@[simp] theorem State.homeWrite_pends : (s.homeWrite ctx launch dpa bs).pends = s.pends := by
  obtain ⟨m, g, h⟩ := s.homeWrite_frame ctx launch dpa bs
  rw [h]
@[simp] theorem State.homeWrite_rops : (s.homeWrite ctx launch dpa bs).rops = s.rops := by
  obtain ⟨m, g, h⟩ := s.homeWrite_frame ctx launch dpa bs
  rw [h]
@[simp] theorem State.homeWrite_peerRops : (s.homeWrite ctx launch dpa bs).peerRops = s.peerRops := by
  obtain ⟨m, g, h⟩ := s.homeWrite_frame ctx launch dpa bs
  rw [h]
@[simp] theorem State.homeWrite_halves : (s.homeWrite ctx launch dpa bs).halves = s.halves := by
  obtain ⟨m, g, h⟩ := s.homeWrite_frame ctx launch dpa bs
  rw [h]
@[simp] theorem State.homeWrite_inbox : (s.homeWrite ctx launch dpa bs).inbox = s.inbox := by
  obtain ⟨m, g, h⟩ := s.homeWrite_frame ctx launch dpa bs
  rw [h]
@[simp] theorem State.homeWrite_combs : (s.homeWrite ctx launch dpa bs).combs = s.combs := by
  obtain ⟨m, g, h⟩ := s.homeWrite_frame ctx launch dpa bs
  rw [h]
@[simp] theorem State.homeWrite_chans : (s.homeWrite ctx launch dpa bs).chans = s.chans := by
  obtain ⟨m, g, h⟩ := s.homeWrite_frame ctx launch dpa bs
  rw [h]
@[simp] theorem State.homeWrite_ring : (s.homeWrite ctx launch dpa bs).ring = s.ring := by
  obtain ⟨m, g, h⟩ := s.homeWrite_frame ctx launch dpa bs
  rw [h]
@[simp] theorem State.homeWrite_out : (s.homeWrite ctx launch dpa bs).out = s.out := by
  obtain ⟨m, g, h⟩ := s.homeWrite_frame ctx launch dpa bs
  rw [h]
@[simp] theorem State.homeWrite_ev : (s.homeWrite ctx launch dpa bs).ev = s.ev := by
  obtain ⟨m, g, h⟩ := s.homeWrite_frame ctx launch dpa bs
  rw [h]
@[simp] theorem State.homeWrite_cur : (s.homeWrite ctx launch dpa bs).cur = s.cur := by
  obtain ⟨m, g, h⟩ := s.homeWrite_frame ctx launch dpa bs
  rw [h]
@[simp] theorem State.homeWrite_clk : (s.homeWrite ctx launch dpa bs).clk = s.clk := by
  obtain ⟨m, g, h⟩ := s.homeWrite_frame ctx launch dpa bs
  rw [h]
@[simp] theorem State.homeWrite_time : (s.homeWrite ctx launch dpa bs).time = s.time := by
  obtain ⟨m, g, h⟩ := s.homeWrite_frame ctx launch dpa bs
  rw [h]
@[simp] theorem State.homeWrite_tick : (s.homeWrite ctx launch dpa bs).tick = s.tick := by
  obtain ⟨m, g, h⟩ := s.homeWrite_frame ctx launch dpa bs
  rw [h]
@[simp] theorem State.homeWrite_nextId : (s.homeWrite ctx launch dpa bs).nextId = s.nextId := by
  obtain ⟨m, g, h⟩ := s.homeWrite_frame ctx launch dpa bs
  rw [h]
@[simp] theorem State.homeWrite_fetches : (s.homeWrite ctx launch dpa bs).fetches = s.fetches := by
  obtain ⟨m, g, h⟩ := s.homeWrite_frame ctx launch dpa bs
  rw [h]
@[simp] theorem State.homeWrite_bwWait : (s.homeWrite ctx launch dpa bs).bwWait = s.bwWait := by
  obtain ⟨m, g, h⟩ := s.homeWrite_frame ctx launch dpa bs
  rw [h]
@[simp] theorem State.homeWrite_bars : (s.homeWrite ctx launch dpa bs).bars = s.bars := by
  obtain ⟨m, g, h⟩ := s.homeWrite_frame ctx launch dpa bs
  rw [h]
end

section
variable (s : State) (ctx launch dpa : Nat) (uam : Bool) (bs : List (Nat × Byte))
@[simp] theorem State.pointWrite_dev : (s.pointWrite ctx launch dpa uam bs).dev = s.dev := by
  obtain ⟨m, g, h⟩ := s.pointWrite_frame ctx launch dpa uam bs
  rw [h]
@[simp] theorem State.pointWrite_fns : (s.pointWrite ctx launch dpa uam bs).fns = s.fns := by
  obtain ⟨m, g, h⟩ := s.pointWrite_frame ctx launch dpa uam bs
  rw [h]
@[simp] theorem State.pointWrite_ctxs : (s.pointWrite ctx launch dpa uam bs).ctxs = s.ctxs := by
  obtain ⟨m, g, h⟩ := s.pointWrite_frame ctx launch dpa uam bs
  rw [h]
@[simp] theorem State.pointWrite_xl : (s.pointWrite ctx launch dpa uam bs).xl = s.xl := by
  obtain ⟨m, g, h⟩ := s.pointWrite_frame ctx launch dpa uam bs
  rw [h]
@[simp] theorem State.pointWrite_trs : (s.pointWrite ctx launch dpa uam bs).trs = s.trs := by
  obtain ⟨m, g, h⟩ := s.pointWrite_frame ctx launch dpa uam bs
  rw [h]
@[simp] theorem State.pointWrite_pcs : (s.pointWrite ctx launch dpa uam bs).pcs = s.pcs := by
  obtain ⟨m, g, h⟩ := s.pointWrite_frame ctx launch dpa uam bs
  rw [h]
@[simp] theorem State.pointWrite_launches : (s.pointWrite ctx launch dpa uam bs).launches = s.launches := by
  obtain ⟨m, g, h⟩ := s.pointWrite_frame ctx launch dpa uam bs
  rw [h]
@[simp] theorem State.pointWrite_seals : (s.pointWrite ctx launch dpa uam bs).seals = s.seals := by
  obtain ⟨m, g, h⟩ := s.pointWrite_frame ctx launch dpa uam bs
  rw [h]
@[simp] theorem State.pointWrite_teams : (s.pointWrite ctx launch dpa uam bs).teams = s.teams := by
  obtain ⟨m, g, h⟩ := s.pointWrite_frame ctx launch dpa uam bs
  rw [h]
@[simp] theorem State.pointWrite_cores : (s.pointWrite ctx launch dpa uam bs).cores = s.cores := by
  obtain ⟨m, g, h⟩ := s.pointWrite_frame ctx launch dpa uam bs
  rw [h]
@[simp] theorem State.pointWrite_reqs : (s.pointWrite ctx launch dpa uam bs).reqs = s.reqs := by
  obtain ⟨m, g, h⟩ := s.pointWrite_frame ctx launch dpa uam bs
  rw [h]
@[simp] theorem State.pointWrite_pends : (s.pointWrite ctx launch dpa uam bs).pends = s.pends := by
  obtain ⟨m, g, h⟩ := s.pointWrite_frame ctx launch dpa uam bs
  rw [h]
@[simp] theorem State.pointWrite_rops : (s.pointWrite ctx launch dpa uam bs).rops = s.rops := by
  obtain ⟨m, g, h⟩ := s.pointWrite_frame ctx launch dpa uam bs
  rw [h]
@[simp] theorem State.pointWrite_peerRops : (s.pointWrite ctx launch dpa uam bs).peerRops = s.peerRops := by
  obtain ⟨m, g, h⟩ := s.pointWrite_frame ctx launch dpa uam bs
  rw [h]
@[simp] theorem State.pointWrite_halves : (s.pointWrite ctx launch dpa uam bs).halves = s.halves := by
  obtain ⟨m, g, h⟩ := s.pointWrite_frame ctx launch dpa uam bs
  rw [h]
@[simp] theorem State.pointWrite_inbox : (s.pointWrite ctx launch dpa uam bs).inbox = s.inbox := by
  obtain ⟨m, g, h⟩ := s.pointWrite_frame ctx launch dpa uam bs
  rw [h]
@[simp] theorem State.pointWrite_combs : (s.pointWrite ctx launch dpa uam bs).combs = s.combs := by
  obtain ⟨m, g, h⟩ := s.pointWrite_frame ctx launch dpa uam bs
  rw [h]
@[simp] theorem State.pointWrite_chans : (s.pointWrite ctx launch dpa uam bs).chans = s.chans := by
  obtain ⟨m, g, h⟩ := s.pointWrite_frame ctx launch dpa uam bs
  rw [h]
@[simp] theorem State.pointWrite_ring : (s.pointWrite ctx launch dpa uam bs).ring = s.ring := by
  obtain ⟨m, g, h⟩ := s.pointWrite_frame ctx launch dpa uam bs
  rw [h]
@[simp] theorem State.pointWrite_out : (s.pointWrite ctx launch dpa uam bs).out = s.out := by
  obtain ⟨m, g, h⟩ := s.pointWrite_frame ctx launch dpa uam bs
  rw [h]
@[simp] theorem State.pointWrite_ev : (s.pointWrite ctx launch dpa uam bs).ev = s.ev := by
  obtain ⟨m, g, h⟩ := s.pointWrite_frame ctx launch dpa uam bs
  rw [h]
@[simp] theorem State.pointWrite_cur : (s.pointWrite ctx launch dpa uam bs).cur = s.cur := by
  obtain ⟨m, g, h⟩ := s.pointWrite_frame ctx launch dpa uam bs
  rw [h]
@[simp] theorem State.pointWrite_clk : (s.pointWrite ctx launch dpa uam bs).clk = s.clk := by
  obtain ⟨m, g, h⟩ := s.pointWrite_frame ctx launch dpa uam bs
  rw [h]
@[simp] theorem State.pointWrite_time : (s.pointWrite ctx launch dpa uam bs).time = s.time := by
  obtain ⟨m, g, h⟩ := s.pointWrite_frame ctx launch dpa uam bs
  rw [h]
@[simp] theorem State.pointWrite_tick : (s.pointWrite ctx launch dpa uam bs).tick = s.tick := by
  obtain ⟨m, g, h⟩ := s.pointWrite_frame ctx launch dpa uam bs
  rw [h]
@[simp] theorem State.pointWrite_nextId : (s.pointWrite ctx launch dpa uam bs).nextId = s.nextId := by
  obtain ⟨m, g, h⟩ := s.pointWrite_frame ctx launch dpa uam bs
  rw [h]
@[simp] theorem State.pointWrite_fetches : (s.pointWrite ctx launch dpa uam bs).fetches = s.fetches := by
  obtain ⟨m, g, h⟩ := s.pointWrite_frame ctx launch dpa uam bs
  rw [h]
@[simp] theorem State.pointWrite_bwWait : (s.pointWrite ctx launch dpa uam bs).bwWait = s.bwWait := by
  obtain ⟨m, g, h⟩ := s.pointWrite_frame ctx launch dpa uam bs
  rw [h]
@[simp] theorem State.pointWrite_bars : (s.pointWrite ctx launch dpa uam bs).bars = s.bars := by
  obtain ⟨m, g, h⟩ := s.pointWrite_frame ctx launch dpa uam bs
  rw [h]
end

section
variable (s : State) (a : Nat) (bs : List Byte)
@[simp] theorem State.hostWrite_dev : (s.hostWrite a bs).dev = s.dev := rfl
@[simp] theorem State.hostWrite_fns : (s.hostWrite a bs).fns = s.fns := rfl
@[simp] theorem State.hostWrite_ctxs : (s.hostWrite a bs).ctxs = s.ctxs := rfl
@[simp] theorem State.hostWrite_xl : (s.hostWrite a bs).xl = s.xl := rfl
@[simp] theorem State.hostWrite_trs : (s.hostWrite a bs).trs = s.trs := rfl
@[simp] theorem State.hostWrite_pcs : (s.hostWrite a bs).pcs = s.pcs := rfl
@[simp] theorem State.hostWrite_launches : (s.hostWrite a bs).launches = s.launches := rfl
@[simp] theorem State.hostWrite_seals : (s.hostWrite a bs).seals = s.seals := rfl
@[simp] theorem State.hostWrite_teams : (s.hostWrite a bs).teams = s.teams := rfl
@[simp] theorem State.hostWrite_cores : (s.hostWrite a bs).cores = s.cores := rfl
@[simp] theorem State.hostWrite_reqs : (s.hostWrite a bs).reqs = s.reqs := rfl
@[simp] theorem State.hostWrite_pends : (s.hostWrite a bs).pends = s.pends := rfl
@[simp] theorem State.hostWrite_rops : (s.hostWrite a bs).rops = s.rops := rfl
@[simp] theorem State.hostWrite_peerRops : (s.hostWrite a bs).peerRops = s.peerRops := rfl
@[simp] theorem State.hostWrite_halves : (s.hostWrite a bs).halves = s.halves := rfl
@[simp] theorem State.hostWrite_inbox : (s.hostWrite a bs).inbox = s.inbox := rfl
@[simp] theorem State.hostWrite_combs : (s.hostWrite a bs).combs = s.combs := rfl
@[simp] theorem State.hostWrite_chans : (s.hostWrite a bs).chans = s.chans := rfl
@[simp] theorem State.hostWrite_ring : (s.hostWrite a bs).ring = s.ring := rfl
@[simp] theorem State.hostWrite_out : (s.hostWrite a bs).out = s.out := rfl
@[simp] theorem State.hostWrite_ev : (s.hostWrite a bs).ev = s.ev := rfl
@[simp] theorem State.hostWrite_cur : (s.hostWrite a bs).cur = s.cur := rfl
@[simp] theorem State.hostWrite_clk : (s.hostWrite a bs).clk = s.clk := rfl
@[simp] theorem State.hostWrite_time : (s.hostWrite a bs).time = s.time := rfl
@[simp] theorem State.hostWrite_tick : (s.hostWrite a bs).tick = s.tick := rfl
@[simp] theorem State.hostWrite_nextId : (s.hostWrite a bs).nextId = s.nextId := rfl
@[simp] theorem State.hostWrite_free : (s.hostWrite a bs).free = s.free := rfl
end

section
variable (s : State) (core : Nat) (p : Nat → Bool)
@[simp] theorem State.clearL1_dev : (s.clearL1 core p).dev = s.dev := rfl
@[simp] theorem State.clearL1_fns : (s.clearL1 core p).fns = s.fns := rfl
@[simp] theorem State.clearL1_ctxs : (s.clearL1 core p).ctxs = s.ctxs := rfl
@[simp] theorem State.clearL1_xl : (s.clearL1 core p).xl = s.xl := rfl
@[simp] theorem State.clearL1_trs : (s.clearL1 core p).trs = s.trs := rfl
@[simp] theorem State.clearL1_pcs : (s.clearL1 core p).pcs = s.pcs := rfl
@[simp] theorem State.clearL1_launches : (s.clearL1 core p).launches = s.launches := rfl
@[simp] theorem State.clearL1_seals : (s.clearL1 core p).seals = s.seals := rfl
@[simp] theorem State.clearL1_teams : (s.clearL1 core p).teams = s.teams := rfl
@[simp] theorem State.clearL1_mem : (s.clearL1 core p).mem = s.mem := rfl
@[simp] theorem State.clearL1_pends : (s.clearL1 core p).pends = s.pends := rfl
@[simp] theorem State.clearL1_rops : (s.clearL1 core p).rops = s.rops := rfl
@[simp] theorem State.clearL1_peerRops : (s.clearL1 core p).peerRops = s.peerRops := rfl
@[simp] theorem State.clearL1_halves : (s.clearL1 core p).halves = s.halves := rfl
@[simp] theorem State.clearL1_inbox : (s.clearL1 core p).inbox = s.inbox := rfl
@[simp] theorem State.clearL1_combs : (s.clearL1 core p).combs = s.combs := rfl
@[simp] theorem State.clearL1_chans : (s.clearL1 core p).chans = s.chans := rfl
@[simp] theorem State.clearL1_ring : (s.clearL1 core p).ring = s.ring := rfl
@[simp] theorem State.clearL1_out : (s.clearL1 core p).out = s.out := rfl
@[simp] theorem State.clearL1_ev : (s.clearL1 core p).ev = s.ev := rfl
@[simp] theorem State.clearL1_cur : (s.clearL1 core p).cur = s.cur := rfl
@[simp] theorem State.clearL1_clk : (s.clearL1 core p).clk = s.clk := rfl
@[simp] theorem State.clearL1_time : (s.clearL1 core p).time = s.time := rfl
@[simp] theorem State.clearL1_tick : (s.clearL1 core p).tick = s.tick := rfl
@[simp] theorem State.clearL1_nextId : (s.clearL1 core p).nextId = s.nextId := rfl
@[simp] theorem State.clearL1_free : (s.clearL1 core p).free = s.free := rfl
end

section
variable (s : State) (core : Nat) (ctx : Nat)
@[simp] theorem State.clearL1Ctx_dev : (s.clearL1Ctx core ctx).dev = s.dev := rfl
@[simp] theorem State.clearL1Ctx_fns : (s.clearL1Ctx core ctx).fns = s.fns := rfl
@[simp] theorem State.clearL1Ctx_ctxs : (s.clearL1Ctx core ctx).ctxs = s.ctxs := rfl
@[simp] theorem State.clearL1Ctx_xl : (s.clearL1Ctx core ctx).xl = s.xl := rfl
@[simp] theorem State.clearL1Ctx_trs : (s.clearL1Ctx core ctx).trs = s.trs := rfl
@[simp] theorem State.clearL1Ctx_pcs : (s.clearL1Ctx core ctx).pcs = s.pcs := rfl
@[simp] theorem State.clearL1Ctx_launches : (s.clearL1Ctx core ctx).launches = s.launches := rfl
@[simp] theorem State.clearL1Ctx_seals : (s.clearL1Ctx core ctx).seals = s.seals := rfl
@[simp] theorem State.clearL1Ctx_teams : (s.clearL1Ctx core ctx).teams = s.teams := rfl
@[simp] theorem State.clearL1Ctx_mem : (s.clearL1Ctx core ctx).mem = s.mem := rfl
@[simp] theorem State.clearL1Ctx_pends : (s.clearL1Ctx core ctx).pends = s.pends := rfl
@[simp] theorem State.clearL1Ctx_rops : (s.clearL1Ctx core ctx).rops = s.rops := rfl
@[simp] theorem State.clearL1Ctx_peerRops : (s.clearL1Ctx core ctx).peerRops = s.peerRops := rfl
@[simp] theorem State.clearL1Ctx_halves : (s.clearL1Ctx core ctx).halves = s.halves := rfl
@[simp] theorem State.clearL1Ctx_inbox : (s.clearL1Ctx core ctx).inbox = s.inbox := rfl
@[simp] theorem State.clearL1Ctx_combs : (s.clearL1Ctx core ctx).combs = s.combs := rfl
@[simp] theorem State.clearL1Ctx_chans : (s.clearL1Ctx core ctx).chans = s.chans := rfl
@[simp] theorem State.clearL1Ctx_ring : (s.clearL1Ctx core ctx).ring = s.ring := rfl
@[simp] theorem State.clearL1Ctx_out : (s.clearL1Ctx core ctx).out = s.out := rfl
@[simp] theorem State.clearL1Ctx_ev : (s.clearL1Ctx core ctx).ev = s.ev := rfl
@[simp] theorem State.clearL1Ctx_cur : (s.clearL1Ctx core ctx).cur = s.cur := rfl
@[simp] theorem State.clearL1Ctx_clk : (s.clearL1Ctx core ctx).clk = s.clk := rfl
@[simp] theorem State.clearL1Ctx_time : (s.clearL1Ctx core ctx).time = s.time := rfl
@[simp] theorem State.clearL1Ctx_tick : (s.clearL1Ctx core ctx).tick = s.tick := rfl
@[simp] theorem State.clearL1Ctx_nextId : (s.clearL1Ctx core ctx).nextId = s.nextId := rfl
@[simp] theorem State.clearL1Ctx_free : (s.clearL1Ctx core ctx).free = s.free := rfl
end

section
variable (s : State) (core : Nat) (ctx : Nat) (va : Nat) (n : Nat)
@[simp] theorem State.l1Drop_dev : (s.l1Drop core ctx va n).dev = s.dev := rfl
@[simp] theorem State.l1Drop_fns : (s.l1Drop core ctx va n).fns = s.fns := rfl
@[simp] theorem State.l1Drop_ctxs : (s.l1Drop core ctx va n).ctxs = s.ctxs := rfl
@[simp] theorem State.l1Drop_xl : (s.l1Drop core ctx va n).xl = s.xl := rfl
@[simp] theorem State.l1Drop_trs : (s.l1Drop core ctx va n).trs = s.trs := rfl
@[simp] theorem State.l1Drop_pcs : (s.l1Drop core ctx va n).pcs = s.pcs := rfl
@[simp] theorem State.l1Drop_launches : (s.l1Drop core ctx va n).launches = s.launches := rfl
@[simp] theorem State.l1Drop_seals : (s.l1Drop core ctx va n).seals = s.seals := rfl
@[simp] theorem State.l1Drop_teams : (s.l1Drop core ctx va n).teams = s.teams := rfl
@[simp] theorem State.l1Drop_mem : (s.l1Drop core ctx va n).mem = s.mem := rfl
@[simp] theorem State.l1Drop_pends : (s.l1Drop core ctx va n).pends = s.pends := rfl
@[simp] theorem State.l1Drop_rops : (s.l1Drop core ctx va n).rops = s.rops := rfl
@[simp] theorem State.l1Drop_peerRops : (s.l1Drop core ctx va n).peerRops = s.peerRops := rfl
@[simp] theorem State.l1Drop_halves : (s.l1Drop core ctx va n).halves = s.halves := rfl
@[simp] theorem State.l1Drop_inbox : (s.l1Drop core ctx va n).inbox = s.inbox := rfl
@[simp] theorem State.l1Drop_combs : (s.l1Drop core ctx va n).combs = s.combs := rfl
@[simp] theorem State.l1Drop_chans : (s.l1Drop core ctx va n).chans = s.chans := rfl
@[simp] theorem State.l1Drop_ring : (s.l1Drop core ctx va n).ring = s.ring := rfl
@[simp] theorem State.l1Drop_out : (s.l1Drop core ctx va n).out = s.out := rfl
@[simp] theorem State.l1Drop_ev : (s.l1Drop core ctx va n).ev = s.ev := rfl
@[simp] theorem State.l1Drop_cur : (s.l1Drop core ctx va n).cur = s.cur := rfl
@[simp] theorem State.l1Drop_clk : (s.l1Drop core ctx va n).clk = s.clk := rfl
@[simp] theorem State.l1Drop_time : (s.l1Drop core ctx va n).time = s.time := rfl
@[simp] theorem State.l1Drop_tick : (s.l1Drop core ctx va n).tick = s.tick := rfl
@[simp] theorem State.l1Drop_nextId : (s.l1Drop core ctx va n).nextId = s.nextId := rfl
@[simp] theorem State.l1Drop_free : (s.l1Drop core ctx va n).free = s.free := rfl
end

section
variable (s : State) (tag : Nat) (team : Nat) (unit : Nat) (core : Nat) (ctx : Nat) (va : Nat) (n : Nat) (tgt : Tgt) (kind : ReqKind)
@[simp] theorem State.addReq_dev : (s.addReq tag team unit core ctx va n tgt kind).dev = s.dev := rfl
@[simp] theorem State.addReq_fns : (s.addReq tag team unit core ctx va n tgt kind).fns = s.fns := rfl
@[simp] theorem State.addReq_ctxs : (s.addReq tag team unit core ctx va n tgt kind).ctxs = s.ctxs := rfl
@[simp] theorem State.addReq_xl : (s.addReq tag team unit core ctx va n tgt kind).xl = s.xl := rfl
@[simp] theorem State.addReq_trs : (s.addReq tag team unit core ctx va n tgt kind).trs = s.trs := rfl
@[simp] theorem State.addReq_pcs : (s.addReq tag team unit core ctx va n tgt kind).pcs = s.pcs := rfl
@[simp] theorem State.addReq_launches : (s.addReq tag team unit core ctx va n tgt kind).launches = s.launches := rfl
@[simp] theorem State.addReq_seals : (s.addReq tag team unit core ctx va n tgt kind).seals = s.seals := rfl
@[simp] theorem State.addReq_teams : (s.addReq tag team unit core ctx va n tgt kind).teams = s.teams := rfl
@[simp] theorem State.addReq_cores : (s.addReq tag team unit core ctx va n tgt kind).cores = s.cores := rfl
@[simp] theorem State.addReq_mem : (s.addReq tag team unit core ctx va n tgt kind).mem = s.mem := rfl
@[simp] theorem State.addReq_pends : (s.addReq tag team unit core ctx va n tgt kind).pends = s.pends := rfl
@[simp] theorem State.addReq_rops : (s.addReq tag team unit core ctx va n tgt kind).rops = s.rops := rfl
@[simp] theorem State.addReq_peerRops : (s.addReq tag team unit core ctx va n tgt kind).peerRops = s.peerRops := rfl
@[simp] theorem State.addReq_halves : (s.addReq tag team unit core ctx va n tgt kind).halves = s.halves := rfl
@[simp] theorem State.addReq_inbox : (s.addReq tag team unit core ctx va n tgt kind).inbox = s.inbox := rfl
@[simp] theorem State.addReq_combs : (s.addReq tag team unit core ctx va n tgt kind).combs = s.combs := rfl
@[simp] theorem State.addReq_chans : (s.addReq tag team unit core ctx va n tgt kind).chans = s.chans := rfl
@[simp] theorem State.addReq_ring : (s.addReq tag team unit core ctx va n tgt kind).ring = s.ring := rfl
@[simp] theorem State.addReq_out : (s.addReq tag team unit core ctx va n tgt kind).out = s.out := rfl
@[simp] theorem State.addReq_cur : (s.addReq tag team unit core ctx va n tgt kind).cur = s.cur := rfl
@[simp] theorem State.addReq_clk : (s.addReq tag team unit core ctx va n tgt kind).clk = s.clk := rfl
@[simp] theorem State.addReq_time : (s.addReq tag team unit core ctx va n tgt kind).time = s.time := rfl
@[simp] theorem State.addReq_tick : (s.addReq tag team unit core ctx va n tgt kind).tick = s.tick := rfl
@[simp] theorem State.addReq_free : (s.addReq tag team unit core ctx va n tgt kind).free = s.free := rfl
end

section
variable (s : State) (i : Iss) (cls : Cls) (act : PendAct) (lanes : List (Nat × Nat)) (batch : Option (BitVec 32))
@[simp] theorem State.addPend_dev : (s.addPend i cls act lanes batch).dev = s.dev := rfl
@[simp] theorem State.addPend_fns : (s.addPend i cls act lanes batch).fns = s.fns := rfl
@[simp] theorem State.addPend_ctxs : (s.addPend i cls act lanes batch).ctxs = s.ctxs := rfl
@[simp] theorem State.addPend_xl : (s.addPend i cls act lanes batch).xl = s.xl := rfl
@[simp] theorem State.addPend_trs : (s.addPend i cls act lanes batch).trs = s.trs := rfl
@[simp] theorem State.addPend_pcs : (s.addPend i cls act lanes batch).pcs = s.pcs := rfl
@[simp] theorem State.addPend_launches : (s.addPend i cls act lanes batch).launches = s.launches := rfl
@[simp] theorem State.addPend_seals : (s.addPend i cls act lanes batch).seals = s.seals := rfl
@[simp] theorem State.addPend_teams : (s.addPend i cls act lanes batch).teams = s.teams := rfl
@[simp] theorem State.addPend_cores : (s.addPend i cls act lanes batch).cores = s.cores := rfl
@[simp] theorem State.addPend_mem : (s.addPend i cls act lanes batch).mem = s.mem := rfl
@[simp] theorem State.addPend_reqs : (s.addPend i cls act lanes batch).reqs = s.reqs := rfl
@[simp] theorem State.addPend_rops : (s.addPend i cls act lanes batch).rops = s.rops := rfl
@[simp] theorem State.addPend_peerRops : (s.addPend i cls act lanes batch).peerRops = s.peerRops := rfl
@[simp] theorem State.addPend_halves : (s.addPend i cls act lanes batch).halves = s.halves := rfl
@[simp] theorem State.addPend_inbox : (s.addPend i cls act lanes batch).inbox = s.inbox := rfl
@[simp] theorem State.addPend_combs : (s.addPend i cls act lanes batch).combs = s.combs := rfl
@[simp] theorem State.addPend_chans : (s.addPend i cls act lanes batch).chans = s.chans := rfl
@[simp] theorem State.addPend_ring : (s.addPend i cls act lanes batch).ring = s.ring := rfl
@[simp] theorem State.addPend_out : (s.addPend i cls act lanes batch).out = s.out := rfl
@[simp] theorem State.addPend_ev : (s.addPend i cls act lanes batch).ev = s.ev := rfl
@[simp] theorem State.addPend_cur : (s.addPend i cls act lanes batch).cur = s.cur := rfl
@[simp] theorem State.addPend_clk : (s.addPend i cls act lanes batch).clk = s.clk := rfl
@[simp] theorem State.addPend_time : (s.addPend i cls act lanes batch).time = s.time := rfl
@[simp] theorem State.addPend_tick : (s.addPend i cls act lanes batch).tick = s.tick := rfl
@[simp] theorem State.addPend_free : (s.addPend i cls act lanes batch).free = s.free := rfl
end

section
variable (s : State) (tag : Nat) (f : Pend → Pend)
@[simp] theorem State.updPend_dev : (s.updPend tag f).dev = s.dev := rfl
@[simp] theorem State.updPend_fns : (s.updPend tag f).fns = s.fns := rfl
@[simp] theorem State.updPend_ctxs : (s.updPend tag f).ctxs = s.ctxs := rfl
@[simp] theorem State.updPend_xl : (s.updPend tag f).xl = s.xl := rfl
@[simp] theorem State.updPend_trs : (s.updPend tag f).trs = s.trs := rfl
@[simp] theorem State.updPend_pcs : (s.updPend tag f).pcs = s.pcs := rfl
@[simp] theorem State.updPend_launches : (s.updPend tag f).launches = s.launches := rfl
@[simp] theorem State.updPend_seals : (s.updPend tag f).seals = s.seals := rfl
@[simp] theorem State.updPend_teams : (s.updPend tag f).teams = s.teams := rfl
@[simp] theorem State.updPend_cores : (s.updPend tag f).cores = s.cores := rfl
@[simp] theorem State.updPend_mem : (s.updPend tag f).mem = s.mem := rfl
@[simp] theorem State.updPend_reqs : (s.updPend tag f).reqs = s.reqs := rfl
@[simp] theorem State.updPend_rops : (s.updPend tag f).rops = s.rops := rfl
@[simp] theorem State.updPend_peerRops : (s.updPend tag f).peerRops = s.peerRops := rfl
@[simp] theorem State.updPend_halves : (s.updPend tag f).halves = s.halves := rfl
@[simp] theorem State.updPend_inbox : (s.updPend tag f).inbox = s.inbox := rfl
@[simp] theorem State.updPend_combs : (s.updPend tag f).combs = s.combs := rfl
@[simp] theorem State.updPend_chans : (s.updPend tag f).chans = s.chans := rfl
@[simp] theorem State.updPend_ring : (s.updPend tag f).ring = s.ring := rfl
@[simp] theorem State.updPend_out : (s.updPend tag f).out = s.out := rfl
@[simp] theorem State.updPend_ev : (s.updPend tag f).ev = s.ev := rfl
@[simp] theorem State.updPend_cur : (s.updPend tag f).cur = s.cur := rfl
@[simp] theorem State.updPend_clk : (s.updPend tag f).clk = s.clk := rfl
@[simp] theorem State.updPend_time : (s.updPend tag f).time = s.time := rfl
@[simp] theorem State.updPend_tick : (s.updPend tag f).tick = s.tick := rfl
@[simp] theorem State.updPend_nextId : (s.updPend tag f).nextId = s.nextId := rfl
@[simp] theorem State.updPend_free : (s.updPend tag f).free = s.free := rfl
end

section
variable (s : State) (p : Pend)
@[simp] theorem State.dropPend_dev : (s.dropPend p).dev = s.dev := rfl
@[simp] theorem State.dropPend_fns : (s.dropPend p).fns = s.fns := rfl
@[simp] theorem State.dropPend_ctxs : (s.dropPend p).ctxs = s.ctxs := rfl
@[simp] theorem State.dropPend_xl : (s.dropPend p).xl = s.xl := rfl
@[simp] theorem State.dropPend_trs : (s.dropPend p).trs = s.trs := rfl
@[simp] theorem State.dropPend_pcs : (s.dropPend p).pcs = s.pcs := rfl
@[simp] theorem State.dropPend_launches : (s.dropPend p).launches = s.launches := rfl
@[simp] theorem State.dropPend_seals : (s.dropPend p).seals = s.seals := rfl
@[simp] theorem State.dropPend_cores : (s.dropPend p).cores = s.cores := rfl
@[simp] theorem State.dropPend_mem : (s.dropPend p).mem = s.mem := rfl
@[simp] theorem State.dropPend_reqs : (s.dropPend p).reqs = s.reqs := rfl
@[simp] theorem State.dropPend_rops : (s.dropPend p).rops = s.rops := rfl
@[simp] theorem State.dropPend_peerRops : (s.dropPend p).peerRops = s.peerRops := rfl
@[simp] theorem State.dropPend_halves : (s.dropPend p).halves = s.halves := rfl
@[simp] theorem State.dropPend_inbox : (s.dropPend p).inbox = s.inbox := rfl
@[simp] theorem State.dropPend_combs : (s.dropPend p).combs = s.combs := rfl
@[simp] theorem State.dropPend_chans : (s.dropPend p).chans = s.chans := rfl
@[simp] theorem State.dropPend_ring : (s.dropPend p).ring = s.ring := rfl
@[simp] theorem State.dropPend_out : (s.dropPend p).out = s.out := rfl
@[simp] theorem State.dropPend_ev : (s.dropPend p).ev = s.ev := rfl
@[simp] theorem State.dropPend_cur : (s.dropPend p).cur = s.cur := rfl
@[simp] theorem State.dropPend_clk : (s.dropPend p).clk = s.clk := rfl
@[simp] theorem State.dropPend_time : (s.dropPend p).time = s.time := rfl
@[simp] theorem State.dropPend_tick : (s.dropPend p).tick = s.tick := rfl
@[simp] theorem State.dropPend_nextId : (s.dropPend p).nextId = s.nextId := rfl
@[simp] theorem State.dropPend_free : (s.dropPend p).free = s.free := rfl
end

section
variable (s : State) (id : Nat) (f : Req → Req)
@[simp] theorem State.updReq_dev : (s.updReq id f).dev = s.dev := rfl
@[simp] theorem State.updReq_fns : (s.updReq id f).fns = s.fns := rfl
@[simp] theorem State.updReq_ctxs : (s.updReq id f).ctxs = s.ctxs := rfl
@[simp] theorem State.updReq_xl : (s.updReq id f).xl = s.xl := rfl
@[simp] theorem State.updReq_trs : (s.updReq id f).trs = s.trs := rfl
@[simp] theorem State.updReq_pcs : (s.updReq id f).pcs = s.pcs := rfl
@[simp] theorem State.updReq_launches : (s.updReq id f).launches = s.launches := rfl
@[simp] theorem State.updReq_seals : (s.updReq id f).seals = s.seals := rfl
@[simp] theorem State.updReq_teams : (s.updReq id f).teams = s.teams := rfl
@[simp] theorem State.updReq_cores : (s.updReq id f).cores = s.cores := rfl
@[simp] theorem State.updReq_mem : (s.updReq id f).mem = s.mem := rfl
@[simp] theorem State.updReq_pends : (s.updReq id f).pends = s.pends := rfl
@[simp] theorem State.updReq_rops : (s.updReq id f).rops = s.rops := rfl
@[simp] theorem State.updReq_peerRops : (s.updReq id f).peerRops = s.peerRops := rfl
@[simp] theorem State.updReq_halves : (s.updReq id f).halves = s.halves := rfl
@[simp] theorem State.updReq_inbox : (s.updReq id f).inbox = s.inbox := rfl
@[simp] theorem State.updReq_combs : (s.updReq id f).combs = s.combs := rfl
@[simp] theorem State.updReq_chans : (s.updReq id f).chans = s.chans := rfl
@[simp] theorem State.updReq_ring : (s.updReq id f).ring = s.ring := rfl
@[simp] theorem State.updReq_out : (s.updReq id f).out = s.out := rfl
@[simp] theorem State.updReq_ev : (s.updReq id f).ev = s.ev := rfl
@[simp] theorem State.updReq_cur : (s.updReq id f).cur = s.cur := rfl
@[simp] theorem State.updReq_clk : (s.updReq id f).clk = s.clk := rfl
@[simp] theorem State.updReq_time : (s.updReq id f).time = s.time := rfl
@[simp] theorem State.updReq_tick : (s.updReq id f).tick = s.tick := rfl
@[simp] theorem State.updReq_nextId : (s.updReq id f).nextId = s.nextId := rfl
@[simp] theorem State.updReq_free : (s.updReq id f).free = s.free := rfl
end

section
variable (s : State) (id : Nat)
@[simp] theorem State.dropReq_dev : (s.dropReq id).dev = s.dev := rfl
@[simp] theorem State.dropReq_fns : (s.dropReq id).fns = s.fns := rfl
@[simp] theorem State.dropReq_ctxs : (s.dropReq id).ctxs = s.ctxs := rfl
@[simp] theorem State.dropReq_xl : (s.dropReq id).xl = s.xl := rfl
@[simp] theorem State.dropReq_trs : (s.dropReq id).trs = s.trs := rfl
@[simp] theorem State.dropReq_pcs : (s.dropReq id).pcs = s.pcs := rfl
@[simp] theorem State.dropReq_launches : (s.dropReq id).launches = s.launches := rfl
@[simp] theorem State.dropReq_seals : (s.dropReq id).seals = s.seals := rfl
@[simp] theorem State.dropReq_teams : (s.dropReq id).teams = s.teams := rfl
@[simp] theorem State.dropReq_cores : (s.dropReq id).cores = s.cores := rfl
@[simp] theorem State.dropReq_mem : (s.dropReq id).mem = s.mem := rfl
@[simp] theorem State.dropReq_pends : (s.dropReq id).pends = s.pends := rfl
@[simp] theorem State.dropReq_rops : (s.dropReq id).rops = s.rops := rfl
@[simp] theorem State.dropReq_peerRops : (s.dropReq id).peerRops = s.peerRops := rfl
@[simp] theorem State.dropReq_halves : (s.dropReq id).halves = s.halves := rfl
@[simp] theorem State.dropReq_inbox : (s.dropReq id).inbox = s.inbox := rfl
@[simp] theorem State.dropReq_combs : (s.dropReq id).combs = s.combs := rfl
@[simp] theorem State.dropReq_chans : (s.dropReq id).chans = s.chans := rfl
@[simp] theorem State.dropReq_ring : (s.dropReq id).ring = s.ring := rfl
@[simp] theorem State.dropReq_out : (s.dropReq id).out = s.out := rfl
@[simp] theorem State.dropReq_ev : (s.dropReq id).ev = s.ev := rfl
@[simp] theorem State.dropReq_cur : (s.dropReq id).cur = s.cur := rfl
@[simp] theorem State.dropReq_clk : (s.dropReq id).clk = s.clk := rfl
@[simp] theorem State.dropReq_time : (s.dropReq id).time = s.time := rfl
@[simp] theorem State.dropReq_tick : (s.dropReq id).tick = s.tick := rfl
@[simp] theorem State.dropReq_nextId : (s.dropReq id).nextId = s.nextId := rfl
@[simp] theorem State.dropReq_free : (s.dropReq id).free = s.free := rfl
end

section
variable (s : State) (id : Nat) (f : Rop → Rop)
@[simp] theorem State.updRop_dev : (s.updRop id f).dev = s.dev := rfl
@[simp] theorem State.updRop_fns : (s.updRop id f).fns = s.fns := rfl
@[simp] theorem State.updRop_ctxs : (s.updRop id f).ctxs = s.ctxs := rfl
@[simp] theorem State.updRop_xl : (s.updRop id f).xl = s.xl := rfl
@[simp] theorem State.updRop_trs : (s.updRop id f).trs = s.trs := rfl
@[simp] theorem State.updRop_pcs : (s.updRop id f).pcs = s.pcs := rfl
@[simp] theorem State.updRop_launches : (s.updRop id f).launches = s.launches := rfl
@[simp] theorem State.updRop_seals : (s.updRop id f).seals = s.seals := rfl
@[simp] theorem State.updRop_teams : (s.updRop id f).teams = s.teams := rfl
@[simp] theorem State.updRop_cores : (s.updRop id f).cores = s.cores := rfl
@[simp] theorem State.updRop_mem : (s.updRop id f).mem = s.mem := rfl
@[simp] theorem State.updRop_reqs : (s.updRop id f).reqs = s.reqs := rfl
@[simp] theorem State.updRop_pends : (s.updRop id f).pends = s.pends := rfl
@[simp] theorem State.updRop_peerRops : (s.updRop id f).peerRops = s.peerRops := rfl
@[simp] theorem State.updRop_halves : (s.updRop id f).halves = s.halves := rfl
@[simp] theorem State.updRop_inbox : (s.updRop id f).inbox = s.inbox := rfl
@[simp] theorem State.updRop_combs : (s.updRop id f).combs = s.combs := rfl
@[simp] theorem State.updRop_chans : (s.updRop id f).chans = s.chans := rfl
@[simp] theorem State.updRop_ring : (s.updRop id f).ring = s.ring := rfl
@[simp] theorem State.updRop_out : (s.updRop id f).out = s.out := rfl
@[simp] theorem State.updRop_ev : (s.updRop id f).ev = s.ev := rfl
@[simp] theorem State.updRop_cur : (s.updRop id f).cur = s.cur := rfl
@[simp] theorem State.updRop_clk : (s.updRop id f).clk = s.clk := rfl
@[simp] theorem State.updRop_time : (s.updRop id f).time = s.time := rfl
@[simp] theorem State.updRop_tick : (s.updRop id f).tick = s.tick := rfl
@[simp] theorem State.updRop_nextId : (s.updRop id f).nextId = s.nextId := rfl
@[simp] theorem State.updRop_free : (s.updRop id f).free = s.free := rfl
end

section
variable (s : State) (id : Nat) (f : TrReq → TrReq)
@[simp] theorem State.updTr_dev : (s.updTr id f).dev = s.dev := rfl
@[simp] theorem State.updTr_fns : (s.updTr id f).fns = s.fns := rfl
@[simp] theorem State.updTr_ctxs : (s.updTr id f).ctxs = s.ctxs := rfl
@[simp] theorem State.updTr_xl : (s.updTr id f).xl = s.xl := rfl
@[simp] theorem State.updTr_pcs : (s.updTr id f).pcs = s.pcs := rfl
@[simp] theorem State.updTr_launches : (s.updTr id f).launches = s.launches := rfl
@[simp] theorem State.updTr_seals : (s.updTr id f).seals = s.seals := rfl
@[simp] theorem State.updTr_teams : (s.updTr id f).teams = s.teams := rfl
@[simp] theorem State.updTr_cores : (s.updTr id f).cores = s.cores := rfl
@[simp] theorem State.updTr_mem : (s.updTr id f).mem = s.mem := rfl
@[simp] theorem State.updTr_reqs : (s.updTr id f).reqs = s.reqs := rfl
@[simp] theorem State.updTr_pends : (s.updTr id f).pends = s.pends := rfl
@[simp] theorem State.updTr_rops : (s.updTr id f).rops = s.rops := rfl
@[simp] theorem State.updTr_peerRops : (s.updTr id f).peerRops = s.peerRops := rfl
@[simp] theorem State.updTr_halves : (s.updTr id f).halves = s.halves := rfl
@[simp] theorem State.updTr_inbox : (s.updTr id f).inbox = s.inbox := rfl
@[simp] theorem State.updTr_combs : (s.updTr id f).combs = s.combs := rfl
@[simp] theorem State.updTr_chans : (s.updTr id f).chans = s.chans := rfl
@[simp] theorem State.updTr_ring : (s.updTr id f).ring = s.ring := rfl
@[simp] theorem State.updTr_out : (s.updTr id f).out = s.out := rfl
@[simp] theorem State.updTr_ev : (s.updTr id f).ev = s.ev := rfl
@[simp] theorem State.updTr_cur : (s.updTr id f).cur = s.cur := rfl
@[simp] theorem State.updTr_clk : (s.updTr id f).clk = s.clk := rfl
@[simp] theorem State.updTr_time : (s.updTr id f).time = s.time := rfl
@[simp] theorem State.updTr_tick : (s.updTr id f).tick = s.tick := rfl
@[simp] theorem State.updTr_nextId : (s.updTr id f).nextId = s.nextId := rfl
@[simp] theorem State.updTr_free : (s.updTr id f).free = s.free := rfl
end

section
variable (s : State) (ctx : Nat) (id : Nat) (defn : Option (List Byte))
@[simp] theorem State.setOp_dev : (s.setOp ctx id defn).dev = s.dev := rfl
@[simp] theorem State.setOp_fns : (s.setOp ctx id defn).fns = s.fns := rfl
@[simp] theorem State.setOp_xl : (s.setOp ctx id defn).xl = s.xl := rfl
@[simp] theorem State.setOp_trs : (s.setOp ctx id defn).trs = s.trs := rfl
@[simp] theorem State.setOp_pcs : (s.setOp ctx id defn).pcs = s.pcs := rfl
@[simp] theorem State.setOp_launches : (s.setOp ctx id defn).launches = s.launches := rfl
@[simp] theorem State.setOp_seals : (s.setOp ctx id defn).seals = s.seals := rfl
@[simp] theorem State.setOp_teams : (s.setOp ctx id defn).teams = s.teams := rfl
@[simp] theorem State.setOp_cores : (s.setOp ctx id defn).cores = s.cores := rfl
@[simp] theorem State.setOp_mem : (s.setOp ctx id defn).mem = s.mem := rfl
@[simp] theorem State.setOp_reqs : (s.setOp ctx id defn).reqs = s.reqs := rfl
@[simp] theorem State.setOp_pends : (s.setOp ctx id defn).pends = s.pends := rfl
@[simp] theorem State.setOp_rops : (s.setOp ctx id defn).rops = s.rops := rfl
@[simp] theorem State.setOp_peerRops : (s.setOp ctx id defn).peerRops = s.peerRops := rfl
@[simp] theorem State.setOp_halves : (s.setOp ctx id defn).halves = s.halves := rfl
@[simp] theorem State.setOp_inbox : (s.setOp ctx id defn).inbox = s.inbox := rfl
@[simp] theorem State.setOp_combs : (s.setOp ctx id defn).combs = s.combs := rfl
@[simp] theorem State.setOp_chans : (s.setOp ctx id defn).chans = s.chans := rfl
@[simp] theorem State.setOp_ring : (s.setOp ctx id defn).ring = s.ring := rfl
@[simp] theorem State.setOp_out : (s.setOp ctx id defn).out = s.out := rfl
@[simp] theorem State.setOp_ev : (s.setOp ctx id defn).ev = s.ev := rfl
@[simp] theorem State.setOp_cur : (s.setOp ctx id defn).cur = s.cur := rfl
@[simp] theorem State.setOp_clk : (s.setOp ctx id defn).clk = s.clk := rfl
@[simp] theorem State.setOp_time : (s.setOp ctx id defn).time = s.time := rfl
@[simp] theorem State.setOp_tick : (s.setOp ctx id defn).tick = s.tick := rfl
@[simp] theorem State.setOp_nextId : (s.setOp ctx id defn).nextId = s.nextId := rfl
@[simp] theorem State.setOp_free : (s.setOp ctx id defn).free = s.free := rfl
end

section
variable (s : State) (o : TileOp)
@[simp] theorem State.tileEnq_dev : (s.tileEnq o).dev = s.dev := rfl
@[simp] theorem State.tileEnq_fns : (s.tileEnq o).fns = s.fns := rfl
@[simp] theorem State.tileEnq_ctxs : (s.tileEnq o).ctxs = s.ctxs := rfl
@[simp] theorem State.tileEnq_xl : (s.tileEnq o).xl = s.xl := rfl
@[simp] theorem State.tileEnq_trs : (s.tileEnq o).trs = s.trs := rfl
@[simp] theorem State.tileEnq_pcs : (s.tileEnq o).pcs = s.pcs := rfl
@[simp] theorem State.tileEnq_launches : (s.tileEnq o).launches = s.launches := rfl
@[simp] theorem State.tileEnq_seals : (s.tileEnq o).seals = s.seals := rfl
@[simp] theorem State.tileEnq_teams : (s.tileEnq o).teams = s.teams := rfl
@[simp] theorem State.tileEnq_mem : (s.tileEnq o).mem = s.mem := rfl
@[simp] theorem State.tileEnq_reqs : (s.tileEnq o).reqs = s.reqs := rfl
@[simp] theorem State.tileEnq_pends : (s.tileEnq o).pends = s.pends := rfl
@[simp] theorem State.tileEnq_rops : (s.tileEnq o).rops = s.rops := rfl
@[simp] theorem State.tileEnq_peerRops : (s.tileEnq o).peerRops = s.peerRops := rfl
@[simp] theorem State.tileEnq_halves : (s.tileEnq o).halves = s.halves := rfl
@[simp] theorem State.tileEnq_inbox : (s.tileEnq o).inbox = s.inbox := rfl
@[simp] theorem State.tileEnq_combs : (s.tileEnq o).combs = s.combs := rfl
@[simp] theorem State.tileEnq_chans : (s.tileEnq o).chans = s.chans := rfl
@[simp] theorem State.tileEnq_ring : (s.tileEnq o).ring = s.ring := rfl
@[simp] theorem State.tileEnq_out : (s.tileEnq o).out = s.out := rfl
@[simp] theorem State.tileEnq_cur : (s.tileEnq o).cur = s.cur := rfl
@[simp] theorem State.tileEnq_clk : (s.tileEnq o).clk = s.clk := rfl
@[simp] theorem State.tileEnq_time : (s.tileEnq o).time = s.time := rfl
@[simp] theorem State.tileEnq_tick : (s.tileEnq o).tick = s.tick := rfl
@[simp] theorem State.tileEnq_nextId : (s.tileEnq o).nextId = s.nextId := rfl
@[simp] theorem State.tileEnq_free : (s.tileEnq o).free = s.free := rfl
end

section
variable (s : State) (i : Iss) (addr : Nat) (t : Tgt) (kind : ReqKind)
@[simp] theorem State.sendSync_dev : (s.sendSync i addr t kind).dev = s.dev := rfl
@[simp] theorem State.sendSync_fns : (s.sendSync i addr t kind).fns = s.fns := rfl
@[simp] theorem State.sendSync_ctxs : (s.sendSync i addr t kind).ctxs = s.ctxs := rfl
@[simp] theorem State.sendSync_xl : (s.sendSync i addr t kind).xl = s.xl := rfl
@[simp] theorem State.sendSync_trs : (s.sendSync i addr t kind).trs = s.trs := rfl
@[simp] theorem State.sendSync_pcs : (s.sendSync i addr t kind).pcs = s.pcs := rfl
@[simp] theorem State.sendSync_launches : (s.sendSync i addr t kind).launches = s.launches := rfl
@[simp] theorem State.sendSync_seals : (s.sendSync i addr t kind).seals = s.seals := rfl
@[simp] theorem State.sendSync_cores : (s.sendSync i addr t kind).cores = s.cores := rfl
@[simp] theorem State.sendSync_mem : (s.sendSync i addr t kind).mem = s.mem := rfl
@[simp] theorem State.sendSync_pends : (s.sendSync i addr t kind).pends = s.pends := rfl
@[simp] theorem State.sendSync_rops : (s.sendSync i addr t kind).rops = s.rops := rfl
@[simp] theorem State.sendSync_peerRops : (s.sendSync i addr t kind).peerRops = s.peerRops := rfl
@[simp] theorem State.sendSync_halves : (s.sendSync i addr t kind).halves = s.halves := rfl
@[simp] theorem State.sendSync_inbox : (s.sendSync i addr t kind).inbox = s.inbox := rfl
@[simp] theorem State.sendSync_combs : (s.sendSync i addr t kind).combs = s.combs := rfl
@[simp] theorem State.sendSync_chans : (s.sendSync i addr t kind).chans = s.chans := rfl
@[simp] theorem State.sendSync_ring : (s.sendSync i addr t kind).ring = s.ring := rfl
@[simp] theorem State.sendSync_out : (s.sendSync i addr t kind).out = s.out := rfl
@[simp] theorem State.sendSync_cur : (s.sendSync i addr t kind).cur = s.cur := rfl
@[simp] theorem State.sendSync_clk : (s.sendSync i addr t kind).clk = s.clk := rfl
@[simp] theorem State.sendSync_time : (s.sendSync i addr t kind).time = s.time := rfl
@[simp] theorem State.sendSync_tick : (s.sendSync i addr t kind).tick = s.tick := rfl
@[simp] theorem State.sendSync_free : (s.sendSync i addr t kind).free = s.free := rfl
end

section
variable (s : State) (i : Iss) (tag : Nat) (o : Opcode) (gen : BitVec 8) (ret : Bool) (d : Nat) (lane : Nat) (ng : Nat) (addr : Nat) (xs : List Byte) (tgt : Nat → Tgt) (src : Nat → Option Tgt)
@[simp] theorem State.sendRop_dev : (s.sendRop i tag o gen ret d lane ng addr xs tgt src).dev = s.dev := rfl
@[simp] theorem State.sendRop_fns : (s.sendRop i tag o gen ret d lane ng addr xs tgt src).fns = s.fns := rfl
@[simp] theorem State.sendRop_ctxs : (s.sendRop i tag o gen ret d lane ng addr xs tgt src).ctxs = s.ctxs := rfl
@[simp] theorem State.sendRop_xl : (s.sendRop i tag o gen ret d lane ng addr xs tgt src).xl = s.xl := rfl
@[simp] theorem State.sendRop_trs : (s.sendRop i tag o gen ret d lane ng addr xs tgt src).trs = s.trs := rfl
@[simp] theorem State.sendRop_pcs : (s.sendRop i tag o gen ret d lane ng addr xs tgt src).pcs = s.pcs := rfl
@[simp] theorem State.sendRop_launches : (s.sendRop i tag o gen ret d lane ng addr xs tgt src).launches = s.launches := rfl
@[simp] theorem State.sendRop_seals : (s.sendRop i tag o gen ret d lane ng addr xs tgt src).seals = s.seals := rfl
@[simp] theorem State.sendRop_teams : (s.sendRop i tag o gen ret d lane ng addr xs tgt src).teams = s.teams := rfl
@[simp] theorem State.sendRop_cores : (s.sendRop i tag o gen ret d lane ng addr xs tgt src).cores = s.cores := rfl
@[simp] theorem State.sendRop_mem : (s.sendRop i tag o gen ret d lane ng addr xs tgt src).mem = s.mem := rfl
@[simp] theorem State.sendRop_reqs : (s.sendRop i tag o gen ret d lane ng addr xs tgt src).reqs = s.reqs := rfl
@[simp] theorem State.sendRop_pends : (s.sendRop i tag o gen ret d lane ng addr xs tgt src).pends = s.pends := rfl
@[simp] theorem State.sendRop_peerRops : (s.sendRop i tag o gen ret d lane ng addr xs tgt src).peerRops = s.peerRops := rfl
@[simp] theorem State.sendRop_halves : (s.sendRop i tag o gen ret d lane ng addr xs tgt src).halves = s.halves := rfl
@[simp] theorem State.sendRop_inbox : (s.sendRop i tag o gen ret d lane ng addr xs tgt src).inbox = s.inbox := rfl
@[simp] theorem State.sendRop_combs : (s.sendRop i tag o gen ret d lane ng addr xs tgt src).combs = s.combs := rfl
@[simp] theorem State.sendRop_chans : (s.sendRop i tag o gen ret d lane ng addr xs tgt src).chans = s.chans := rfl
@[simp] theorem State.sendRop_ring : (s.sendRop i tag o gen ret d lane ng addr xs tgt src).ring = s.ring := rfl
@[simp] theorem State.sendRop_out : (s.sendRop i tag o gen ret d lane ng addr xs tgt src).out = s.out := rfl
@[simp] theorem State.sendRop_cur : (s.sendRop i tag o gen ret d lane ng addr xs tgt src).cur = s.cur := rfl
@[simp] theorem State.sendRop_clk : (s.sendRop i tag o gen ret d lane ng addr xs tgt src).clk = s.clk := rfl
@[simp] theorem State.sendRop_time : (s.sendRop i tag o gen ret d lane ng addr xs tgt src).time = s.time := rfl
@[simp] theorem State.sendRop_tick : (s.sendRop i tag o gen ret d lane ng addr xs tgt src).tick = s.tick := rfl
@[simp] theorem State.sendRop_free : (s.sendRop i tag o gen ret d lane ng addr xs tgt src).free = s.free := rfl
end

section
variable (s : State) (u : Nat)
@[simp] theorem State.pilotExit_dev : (s.pilotExit u).dev = s.dev := rfl
@[simp] theorem State.pilotExit_fns : (s.pilotExit u).fns = s.fns := rfl
@[simp] theorem State.pilotExit_ctxs : (s.pilotExit u).ctxs = s.ctxs := rfl
@[simp] theorem State.pilotExit_xl : (s.pilotExit u).xl = s.xl := rfl
@[simp] theorem State.pilotExit_trs : (s.pilotExit u).trs = s.trs := rfl
@[simp] theorem State.pilotExit_pcs : (s.pilotExit u).pcs = s.pcs := rfl
@[simp] theorem State.pilotExit_launches : (s.pilotExit u).launches = s.launches := rfl
@[simp] theorem State.pilotExit_seals : (s.pilotExit u).seals = s.seals := rfl
@[simp] theorem State.pilotExit_cores : (s.pilotExit u).cores = s.cores := rfl
@[simp] theorem State.pilotExit_mem : (s.pilotExit u).mem = s.mem := rfl
@[simp] theorem State.pilotExit_reqs : (s.pilotExit u).reqs = s.reqs := rfl
@[simp] theorem State.pilotExit_pends : (s.pilotExit u).pends = s.pends := rfl
@[simp] theorem State.pilotExit_rops : (s.pilotExit u).rops = s.rops := rfl
@[simp] theorem State.pilotExit_peerRops : (s.pilotExit u).peerRops = s.peerRops := rfl
@[simp] theorem State.pilotExit_halves : (s.pilotExit u).halves = s.halves := rfl
@[simp] theorem State.pilotExit_inbox : (s.pilotExit u).inbox = s.inbox := rfl
@[simp] theorem State.pilotExit_combs : (s.pilotExit u).combs = s.combs := rfl
@[simp] theorem State.pilotExit_chans : (s.pilotExit u).chans = s.chans := rfl
@[simp] theorem State.pilotExit_ring : (s.pilotExit u).ring = s.ring := rfl
@[simp] theorem State.pilotExit_out : (s.pilotExit u).out = s.out := rfl
@[simp] theorem State.pilotExit_ev : (s.pilotExit u).ev = s.ev := rfl
@[simp] theorem State.pilotExit_cur : (s.pilotExit u).cur = s.cur := rfl
@[simp] theorem State.pilotExit_clk : (s.pilotExit u).clk = s.clk := rfl
@[simp] theorem State.pilotExit_time : (s.pilotExit u).time = s.time := rfl
@[simp] theorem State.pilotExit_tick : (s.pilotExit u).tick = s.tick := rfl
@[simp] theorem State.pilotExit_nextId : (s.pilotExit u).nextId = s.nextId := rfl
@[simp] theorem State.pilotExit_free : (s.pilotExit u).free = s.free := rfl
end

end Sys2Proof.Machine
end

