-- ==== Sys2Proof/Laws/Sparse.lean ====
section
/-!
SUPPORT. What reading, writing and the canonical form of sparse storage have to do with each other.
-/

namespace Sys2Proof.Machine

@[simp] theorem sget_nil {w : Nat} (k : Nat) : sget ([] : Sparse w) k = 0 := rfl

theorem swfFrom_mono {w : Nat} {m : Sparse w} {lo lo' : Nat} (h : swfFrom lo m = true) (hl : lo' ≤ lo) :
    swfFrom lo' m = true := by
  cases m with
  | nil => rfl
  | cons e t =>
    obtain ⟨a, x⟩ := e
    simp only [swfFrom, Bool.and_eq_true, decide_eq_true_eq] at h ⊢
    exact ⟨⟨by omega, h.1.2⟩, h.2⟩

theorem swfFrom_filter {w : Nat} (p : Nat × BitVec w → Bool) {m : Sparse w} {lo : Nat} (h : swfFrom lo m = true) :
    swfFrom lo (m.filter p) = true := by
  induction m generalizing lo with
  | nil => rfl
  | cons e t ih =>
    obtain ⟨a, x⟩ := e
    simp only [swfFrom, Bool.and_eq_true, decide_eq_true_eq] at h
    simp only [List.filter_cons]
    split
    · simp only [swfFrom, Bool.and_eq_true, decide_eq_true_eq]
      exact ⟨h.1, ih h.2⟩
    · exact ih (swfFrom_mono h.2 (by omega))

theorem swfFrom_sinsert {w : Nat} {m : Sparse w} {lo k : Nat} (v : BitVec w) (hv : v ≠ 0#w) (h : swfFrom lo m = true)
    (hk : lo ≤ k) (hm : ∀ e ∈ m, e.1 ≠ k) : swfFrom lo (sinsert m k v) = true := by
  induction m generalizing lo with
  | nil => simp [sinsert, swfFrom, hk, hv]
  | cons e t ih =>
    obtain ⟨a, x⟩ := e
    simp only [swfFrom, Bool.and_eq_true, decide_eq_true_eq, bne_iff_ne, ne_eq] at h
    obtain ⟨⟨ha, hx⟩, ht⟩ := h
    have hne : a ≠ k := hm (a, x) (by simp)
    unfold sinsert
    split
    · simp only [swfFrom, Bool.and_eq_true, decide_eq_true_eq, bne_iff_ne, ne_eq]
      exact ⟨⟨hk, hv⟩, ⟨by omega, hx⟩, ht⟩
    · simp only [swfFrom, Bool.and_eq_true, decide_eq_true_eq, bne_iff_ne, ne_eq]
      exact ⟨⟨ha, hx⟩, ih ht (by omega) fun e he => hm e (by simp [he])⟩

/-- A write keeps the canonical form. -/
theorem swfFrom_sset {w : Nat} {m : Sparse w} {lo k : Nat} (v : BitVec w) (h : swfFrom lo m = true) (hk : lo ≤ k) :
    swfFrom lo (sset m k v) = true := by
  unfold sset
  dsimp only
  split
  · exact swfFrom_filter _ h
  · rename_i hv
    exact swfFrom_sinsert v hv (swfFrom_filter _ h) hk fun e he => by simpa using (List.mem_filter.mp he).2

theorem swf_sset {w : Nat} {m : Sparse w} (k : Nat) (v : BitVec w) (h : swf m = true) : swf (sset m k v) = true :=
  swfFrom_sset v h (Nat.zero_le k)

theorem swf_ssets {w : Nat} (l : List (Nat × BitVec w)) {m : Sparse w} (h : swf m = true) : swf (ssets m l) = true := by
  induction l generalizing m with
  | nil => exact h
  | cons e t ih => exact ih (swf_sset e.1 e.2 h)

theorem swf_skeep {w : Nat} {m : Sparse w} (p : Nat → Bool) (h : swf m = true) : swf (skeep m p) = true :=
  swfFrom_filter _ h

theorem swf_nil {w : Nat} : swf ([] : Sparse w) = true := rfl

theorem sget_filter_ne {w : Nat} (m : Sparse w) {j k : Nat} (hj : j ≠ k) :
    sget (m.filter fun e => e.1 != k) j = sget m j := by
  induction m with
  | nil => rfl
  | cons e t ih =>
    obtain ⟨a, x⟩ := e
    by_cases ha : a = k
    · have : j ≠ a := by omega
      simp [ha, hj, sget, ih]
    · simp [ha, sget, ih]

theorem sget_filter_same {w : Nat} (m : Sparse w) (k : Nat) : sget (m.filter fun e => e.1 != k) k = 0 := by
  induction m with
  | nil => rfl
  | cons e t ih =>
    obtain ⟨a, x⟩ := e
    by_cases ha : a = k
    · simp [ha, ih]
    · have : k ≠ a := by omega
      simp [ha, sget, this, ih]

theorem sget_sinsert {w : Nat} (m : Sparse w) (j k : Nat) (v : BitVec w) (hm : ∀ e ∈ m, e.1 ≠ k) :
    sget (sinsert m k v) j = if j = k then v else sget m j := by
  induction m with
  | nil => simp [sinsert, sget]
  | cons e t ih =>
    obtain ⟨a, x⟩ := e
    have hne : a ≠ k := hm (a, x) (by simp)
    have ih := ih fun e he => hm e (by simp [he])
    unfold sinsert
    split
    · simp [sget]
    · by_cases hj : j = a
      · subst hj; simp [sget, hne]
      · simp [sget, hj, ih]

/-- Reading after a write: the written value under its key, and every other key as before. -/
theorem sget_sset {w : Nat} (m : Sparse w) (j k : Nat) (v : BitVec w) :
    sget (sset m k v) j = if j = k then v else sget m j := by
  unfold sset
  dsimp only
  split
  · rename_i hv
    by_cases hj : j = k
    · subst hj; simp [sget_filter_same, hv]
    · simp [hj, sget_filter_ne m hj]
  · rw [sget_sinsert _ _ _ _ fun e he => by simpa using (List.mem_filter.mp he).2]
    by_cases hj : j = k
    · simp [hj]
    · simp [hj, sget_filter_ne m hj]

/-- What is written is read back. -/
@[simp] theorem sget_sset_same {w : Nat} (m : Sparse w) (k : Nat) (v : BitVec w) : sget (sset m k v) k = v := by
  simp [sget_sset]

/-- A write leaves every other key as it is. -/
theorem sget_sset_other {w : Nat} (m : Sparse w) {j k : Nat} (v : BitVec w) (hj : j ≠ k) : sget (sset m k v) j = sget m j := by
  simp [sget_sset, hj]

end Sys2Proof.Machine
end

