-- ==== Sys2Proof/Safety.lean ====
section
/-!
DEFINITION. What counts as a safe run, and the terms that claims are stated in: when an encoded instruction executes
normally, and what one step leaves as it was.
-/

namespace Sys2Proof.Machine

/-- Line numbers rise strictly, from `lo` on. -/
def risingFrom : Nat → List (Nat × Nat) → Bool
  | _, [] => true
  | lo, (a, _) :: t => lo ≤ a && risingFrom (a + 1) t

/-- Device and host memory keep their canonical form, and so do the lines' key numbers (R45). -/
def Mem.ok (m : Mem) : Bool := Memory.wf m.dev && Memory.wf m.host && risingFrom 0 m.key

/-- A run of `k` steps from `s` stops at no fault and no refusal. -/
def Safe : Nat → State → Prop
  | 0, _ => True
  | k + 1, s => ∃ t, step s = .next t ∧ Safe k t

/-- Numbers that the machine has not given out yet name nothing: every outstanding instruction and request has a lower one. -/
def Fresh (s : State) : Prop :=
  (∀ p ∈ s.pends, p.tag < s.nextId) ∧ ∀ r ∈ s.reqs, r.id < s.nextId ∧ r.tag < s.nextId

/-- The slice of their home holds `n` bytes of a context from `d` on (R155): they lie in one line, all their sectors are valid. -/
def State.inSlice (s : State) (ctx d n : Nat) : Prop :=
  (∀ x, s.mem.line? ctx (d / 128) = some x → x.data.length = 128) ∧ (d + n - 1) / 128 = d / 128 ∧
    ∀ a, d ≤ a → a < d + n → s.mem.hasSec ctx a = true

/-- The fields of a register context fit the group image (R315), for `vregs` vector registers: register files in canonical form whose
keys have a place, PCs of 56 bits, parents, records and loss counts in range, and a split table that can be resumed (R393). -/
structure Grp.Fits (g : Grp) (vregs : Nat) : Prop where
  v : swf g.v = true ∧ (∀ e ∈ g.v, e.1 < 64 * vregs) ∧ vregs ≤ 248
  s : swf g.s = true ∧ ∀ e ∈ g.s, e.1 < 256
  m : swf g.m = true ∧ ∀ e ∈ g.m, 0 < e.1 ∧ e.1 < 16
  f : swf g.f = true ∧ ∀ e ∈ g.f, e.1 < 8
  d : swf g.d = true ∧ ∀ e ∈ g.d, e.1 < 16
  entries : g.split.length = 8 ∧ ∀ e ∈ g.split, e.pc.toNat < 2 ^ 56 ∧ (∀ p, e.join = some p ∨ e.pend = some p → p.toNat < 2 ^ 56) ∧
    (∀ j, e.parent = some j → j < 8) ∧ (∀ j, e.srec = some j → j < 16) ∧ e.loss < 128
  records : g.serial.length = 16 ∧ ∀ r ∈ g.serial, (r.used = false → r = Serial.none) ∧ r.entry < 8 ∧ r.ppc.toNat < 2 ^ 56 ∧
    (∀ p, r.sjoin = some p → p.toNat < 2 ^ 56) ∧ ∀ j, r.link = some j → j < 16
  runs : (∃ e ∈ g.split, e.st = .active) ∧ ∀ k, k < 8 → (g.entry k).st = .free ∨ chainEnds g.split 9 k = true

/-! ### When an encoded instruction executes normally -/

/-- The effective mask (R119): the fragment's MASK, and mask register `k` where `k` is not 0. -/
def effMask (g : Grp) (e : Nat) (k : BitVec 4) : LaneMask :=
  if k = 0 then (g.entry e).mask else (g.entry e).mask &&& sget g.m k.toNat

/-- Instruction `i` executes normally at `s` as issue `x`: a live party whose active fragment is not parked issues it, no
check of R362 fails, and no register it names is owed and no counter it needs is at its limit (R103, R174). `k` is the
mask field of its prefix. -/
def Issues (i : Instr) (k : BitVec 4) (s : State) (x : Iss) : Prop :=
  ∃ c t, s.cur = some c ∧ s.issuing c = true ∧ s.team? c.p.team = some t ∧
    (sigOf i).check c.p.unit (t.grp c.p.unit).run.isSome (t.grp c.p.unit).runIdx c.words
      (if c.p.unit = 16 then 64 else t.vregs) t.acc = none ∧
    s.waits c.p.team c.p.unit (sigOf i) = false ∧
    x = { p := c.p, mask := effMask (t.grp c.p.unit) c.p.entry k, at_ := c.at_, next := c.next, words := c.words,
          inRun := (t.grp c.p.unit).run.isSome }

/-! ### What a step leaves as it was -/

/-- Nothing but the register context of party `p` differs. -/
def OnlyParty (p : Party) (s t : State) : Prop := ∃ f, t = s.updGrp p.team p.unit f

/-- A run context without what its words change: w0-w7 and the body index. -/
def RunCtx.frame (r : RunCtx) : RunCtx := { r with w := [], idx := 0 }

/-- A register context without its vector, uniform and mask registers, its split table and what a run's words change. -/
def Grp.frame (g : Grp) : Grp := { g with v := [], s := [], m := [], split := [], run := g.run.map RunCtx.frame }

/-- Whether a register context executes an emitted run: its PC stays at the `take` (R380). -/
def Grp.emitting (g : Grp) : Bool :=
  match g.run with
  | .some r => r.emitted.isSome
  | .none => false

/-- The register context after the PC moved past an instruction: in a run the body index counts its words, and in an emitted
run the PC stays (R128, R380). -/
def Grp.advanced (g : Grp) (e words : Nat) (pc : U64) : Grp :=
  match g.run with
  | .none => g.updEntry e fun x => { x with pc := pc }
  | .some r =>
    let g := { g with run := .some { r with idx := r.idx + words } }
    if r.emitted.isSome then g else g.updEntry e fun x => { x with pc := pc }

/-- At `s`, `i` leaves party `p` with register context `h`, and changes nothing else. -/
def Turns (i : Instr) (s : State) (p : Party) (h : Grp) : Prop :=
  ∃ t, exec i s = .next t ∧ OnlyParty p s t ∧ t.grp p.team p.unit = h

/-- Instruction `i` changes the issuing party's register context by `f`, goes on at the next instruction, and changes nothing
else. -/
def Does (i : Instr) (s : State) (x : Iss) (f : Grp → Grp) : Prop :=
  Turns i s x.p ((f (s.my x)).advanced x.p.entry x.words x.next)

/-- From `g` to `h` only vector, uniform and mask registers and the PC of entry `e` change; the PC is then `pc`, but in an
emitted run it stays. -/
structure RegsOnly (g h : Grp) (e : Nat) (pc : U64) : Prop where
  rest : h.frame = g.frame
  entries : ∀ k, h.entry k = if k = e ∧ g.emitting = false then { g.entry k with pc := pc } else g.entry k

/-- From `s` to `t` the party of issue `x` goes on at `pc`; its vector, uniform and mask registers then hold `v`, `u` and
`m`, and nothing else changes: no other register context, no special register, no memory, no queue. -/
structure Wrote (s t : State) (x : Iss) (pc : U64) (v : Nat → Nat → Lane) (u : Nat → U64) (m : Nat → LaneMask) : Prop where
  only : OnlyParty x.p s t
  regs : RegsOnly (s.my x) (t.my x) x.p.entry pc
  vec : ∀ r l, r < 256 → l < 64 → (t.my x).vget r l = v r l
  uni : ∀ r, r < 256 → (t.my x).sget r = u r
  msk : ∀ k, k < 16 → sget (t.my x).m k = m k

/-- Instruction `i` writes, in each lane of its effective mask, the value `val` of the registers as they stood into vector
register `d`; every other lane and register stays (R119). -/
def LaneGives (i : Instr) (k : BitVec 4) (d : Nat) (val : Grp → LaneMask → Nat → Lane) : Prop :=
  ∀ s x, Issues i k s x → ∃ t, exec i s = .next t ∧
    Wrote s t x x.next
      (fun r l => if r = d ∧ x.mask.getLsbD l then val (s.my x) x.mask l else (s.my x).vget r l)
      (s.my x).sget (sget (s.my x).m)

/-- Instruction `i` writes the bits of its effective mask in mask register `d`; the other bits and registers stay. -/
def MaskGives (i : Instr) (k : BitVec 4) (d : Nat) (val : Grp → Nat → LaneMask → Nat → Bool) : Prop :=
  ∀ s x, Issues i k s x → ∃ t m, exec i s = .next t ∧
    (∀ l, l < 64 → m.getLsbD l =
      if x.mask.getLsbD l then val (s.my x) x.p.entry x.mask l else (sget (s.my x).m d).getLsbD l) ∧
    Wrote s t x x.next (s.my x).vget (s.my x).sget (fun r => if r = d then m else sget (s.my x).m r)

/-- Instruction `i` writes uniform register `d`. -/
def UniGives (i : Instr) (d : Nat) (val : Grp → U64) : Prop :=
  ∀ s x, Issues i 0 s x → ∃ t, exec i s = .next t ∧
    Wrote s t x x.next (s.my x).vget (fun r => if r = d then val (s.my x) else (s.my x).sget r) (sget (s.my x).m)

/-- Instruction `i` moves the PC of its fragment and changes nothing else. -/
def GoesTo (i : Instr) (target : Grp → Iss → U64) : Prop :=
  ∀ s x, Issues i 0 s x → ∃ t, exec i s = .next t ∧
    Wrote s t x (target (s.my x) x) (s.my x).vget (s.my x).sget (sget (s.my x).m)

end Sys2Proof.Machine
end

