-- ==== Sys2Proof/Laws/Regs.lean ====
section
/-!
SUPPORT. Reading register contexts after they are updated, the frame of issue, and what an instruction that writes registers
and goes on leaves behind.
-/

namespace Sys2Proof.Machine

/-! ### Lists -/

theorem getD_modAt {α : Type} (l : List α) (i j : Nat) (f : α → α) (d : α) :
    (modAt l i f).getD j d = if j = i ∧ i < l.length then f (l.getD i d) else l.getD j d := by
  induction l generalizing i j with
  | nil => simp [modAt]
  | cons x t ih =>
    cases i with
    | zero => cases j <;> simp [modAt]
    | succ i =>
      cases j with
      | zero => simp [modAt]
      | succ j => simpa [modAt] using ih i j

@[simp] theorem length_modAt {α : Type} (l : List α) (i : Nat) (f : α → α) : (modAt l i f).length = l.length := by
  induction l generalizing i with
  | nil => rfl
  | cons x t ih => cases i <;> simp [modAt, ih]

theorem modAt_modAt {α : Type} (l : List α) (i : Nat) (f g : α → α) : modAt (modAt l i f) i g = modAt l i fun x => g (f x) := by
  induction l generalizing i with
  | nil => rfl
  | cons x t ih => cases i <;> simp [modAt, ih]

theorem find_mapIf {α : Type} (p : α → Bool) (f : α → α) (l : List α) (hf : ∀ x, p x = true → p (f x) = true) :
    (mapIf p f l).find? p = (l.find? p).map f := by
  induction l with
  | nil => rfl
  | cons x t ih =>
    unfold mapIf at ih ⊢
    by_cases h : p x = true
    · simp [List.find?, h, hf x h]
    · simpa [h, List.find?] using ih

theorem find_mapIf_other {α : Type} (p q : α → Bool) (f : α → α) (l : List α)
    (hq : ∀ x, q x = true → p x = false) (hf : ∀ x, p x = true → q (f x) = false) : (mapIf p f l).find? q = l.find? q := by
  induction l with
  | nil => rfl
  | cons x t ih =>
    unfold mapIf at ih ⊢
    cases h : p x
    · simp only [List.map_cons, h, List.find?, Bool.false_eq_true, if_false]
      cases q x
      · exact ih
      · rfl
    · have hx : q x = false := by
        cases hq' : q x
        · rfl
        · rw [hq x hq'] at h; cases h
      simp only [List.map_cons, h, List.find?, hx, if_true, hf x h]
      exact ih

theorem mapIf_mapIf {α : Type} (p : α → Bool) (f g : α → α) (l : List α) (hf : ∀ x, p x = true → p (f x) = true) :
    mapIf p g (mapIf p f l) = mapIf p (fun x => g (f x)) l := by
  simp only [mapIf, List.map_map]
  apply List.map_congr_left
  intro x _
  by_cases h : p x = true <;> simp [h, hf]

/-! ### Register contexts -/

@[simp] theorem Team.updGrp_uid (t : Team) (unit : Nat) (f : Grp → Grp) : (t.updGrp unit f).uid = t.uid := by
  unfold Team.updGrp
  split
  · rfl
  · split <;> rfl

/-- Whether a team has the unit. -/
def Team.hasUnit (t : Team) (unit : Nat) : Prop := unit = 16 ∨ unit = 17 ∨ unit < t.groups.length

theorem Team.grp_updGrp (t : Team) (unit : Nat) (f : Grp → Grp) (h : t.hasUnit unit) :
    (t.updGrp unit f).grp unit = f (t.grp unit) := by
  unfold Team.updGrp Team.grp
  split
  · rfl
  · split
    · rfl
    · dsimp only
      rw [getD_modAt]
      have : unit < t.groups.length := by
        rcases h with h | h | h
        · contradiction
        · contradiction
        · exact h
      simp [this]

theorem Team.grp_updGrp_other (t : Team) {j k : Nat} (f : Grp → Grp) (h : j ≠ k) : (t.updGrp k f).grp j = t.grp j := by
  unfold Team.updGrp Team.grp
  by_cases h1 : k = 16
  · subst h1; simp [h]
  · by_cases h2 : k = 17
    · subst h2; simp [h]
    · simp only [h1, h2, if_false]
      split
      · rfl
      · split
        · rfl
        · rw [getD_modAt]; simp [h]

theorem Team.updGrp_updGrp (t : Team) (unit : Nat) (f g : Grp → Grp) :
    (t.updGrp unit f).updGrp unit g = t.updGrp unit fun x => g (f x) := by
  unfold Team.updGrp
  split
  · rfl
  · split
    · rfl
    · simp [modAt_modAt]

theorem State.team?_updTeam (s : State) (u : Nat) (f : Team → Team) (hf : ∀ t, (f t).uid = t.uid) :
    (s.updTeam u f).team? u = (s.team? u).map f := by
  unfold State.team? State.updTeam
  dsimp only
  rw [find_mapIf]
  intro x hx
  simpa [hf] using hx

theorem State.team?_updTeam_other (s : State) {u v : Nat} (f : Team → Team) (hf : ∀ t, (f t).uid = t.uid) (h : v ≠ u) :
    (s.updTeam u f).team? v = s.team? v := by
  unfold State.team? State.updTeam
  dsimp only
  rw [find_mapIf_other]
  · intro x hx; simp only [beq_iff_eq] at hx ⊢; simp [hx, h]
  · intro x hx; simp only [beq_iff_eq] at hx; simp [hf, hx, Ne.symm h]

theorem State.updGrp_updGrp (s : State) (u unit : Nat) (f g : Grp → Grp) :
    (s.updGrp u unit f).updGrp u unit g = s.updGrp u unit fun x => g (f x) := by
  unfold State.updGrp State.updTeam
  dsimp only
  rw [mapIf_mapIf]
  · simp [Team.updGrp_updGrp]
  · intro x hx; simpa using hx

theorem State.team?_updGrp (s : State) (u unit : Nat) (f : Grp → Grp) :
    (s.updGrp u unit f).team? u = (s.team? u).map (·.updGrp unit f) := s.team?_updTeam u _ (by simp)

theorem State.grp_updGrp (s : State) (u unit : Nat) (f : Grp → Grp) {t : Team} (ht : s.team? u = some t) (h : t.hasUnit unit) :
    (s.updGrp u unit f).grp u unit = f (s.grp u unit) := by
  simp [State.grp, State.team?_updGrp, ht, Team.grp_updGrp _ _ _ h]

theorem State.grp_of_team {s : State} {u : Nat} {t : Team} (ht : s.team? u = some t) (unit : Nat) :
    s.grp u unit = t.grp unit := by
  simp [State.grp, ht]

/-! ### Issue -/

/-- A live unit of a team is one of its units, and an active entry stands in its table. -/
theorem State.hasUnit_of_issuing {s : State} {c : Issuer} {t : Team} (h : s.issuing c = true) (ht : s.team? c.p.team = some t) :
    t.hasUnit c.p.unit := by
  unfold State.issuing at h
  rw [State.grp_of_team ht] at h
  simp only [Bool.and_eq_true, beq_iff_eq] at h
  by_cases h1 : c.p.unit = 16
  · exact .inl h1
  · by_cases h2 : c.p.unit = 17
    · exact .inr (.inl h2)
    · refine .inr (.inr ?_)
      apply Decidable.byContradiction
      intro h3
      have h4 : t.groups.getD c.p.unit Grp.none = Grp.none := by
        simp [List.getD, List.getElem?_eq_none (Nat.le_of_not_lt h3)]
      have h5 : t.grp c.p.unit = Grp.none := by
        simp only [Team.grp, h1, h2, if_false, h4]
      rw [h5] at h
      exact UnitState.noConfusion h.1.1

theorem Grp.entry_lt {g : Grp} {e : Nat} (h : (g.entry e).st = .active) : e < g.split.length := by
  apply Decidable.byContradiction
  intro h1
  have : g.entry e = Entry.none := by
    unfold Grp.entry
    simp [List.getD, List.getElem?_eq_none (Nat.le_of_not_lt h1)]
  rw [this] at h
  exact absurd h (by decide)

/-- An instruction that executes normally runs its body (R362, R103). -/
theorem issue_of_issues {i : Instr} {k : BitVec 4} {s : State} {x : Iss} (h : Issues i k s x) (body : Iss → State → Out) :
    issue (sigOf i) k s body = body x s := by
  obtain ⟨c, t, hc, hi, ht, hk, hw, rfl⟩ := h
  unfold issue
  rw [hc]
  dsimp only
  rw [hi, ht]
  simp only [Bool.not_true, Bool.false_eq_true, if_false]
  rw [hk, hw]
  simp only [Bool.false_eq_true, if_false]
  unfold effMask Grp.maskReg
  by_cases hz : k = 0
  · subst hz
    rw [if_pos rfl, if_pos rfl, BitVec.and_allOnes]
  · have : k.toNat ≠ 0 := fun h0 => hz (BitVec.eq_of_toNat_eq (by simpa using h0))
    rw [if_neg hz, if_neg hz, if_neg this]

/-- What an issue knows of its party: the team, the unit and the active entry stand. -/
theorem Issues.party {i : Instr} {k : BitVec 4} {s : State} {x : Iss} (h : Issues i k s x) :
    ∃ t, s.team? x.p.team = some t ∧ t.hasUnit x.p.unit ∧ x.p.entry < (s.my x).split.length ∧
      ((s.my x).entry x.p.entry).st = .active ∧ x.inRun = (s.my x).run.isSome := by
  obtain ⟨c, t, hc, hi, ht, hk, hw, rfl⟩ := h
  have hu := State.hasUnit_of_issuing hi ht
  have hi' := hi
  unfold State.issuing at hi
  simp only [Bool.and_eq_true, beq_iff_eq] at hi
  exact ⟨t, ht, hu, Grp.entry_lt hi.1.2, hi.1.2, by simp [State.my, State.grp_of_team ht]⟩

/-- A check that does not fail is passed, and so is what comes after it. -/
theorem passed {c : Prop} [Decidable c] {x : Cause} {y : Option Cause} (h : (if c then some x else y) = none) : ¬c ∧ y = none := by
  by_cases hc : c
  · rw [if_pos hc] at h; cases h
  · rw [if_neg hc] at h; exact ⟨hc, h⟩

/-- Outside a run an instruction that passes the checks of R362 writes no run register. -/
theorem Sig.vw_of_check {g : Sig} {unit idx words vregs acc r : Nat} (h : g.check unit false idx words vregs acc = none)
    (hr : r ∈ g.vw) : r < 248 := by
  have h7 := (passed (passed (passed (passed (passed (passed (passed (passed (passed h).2).2).2).2).2).2).2).2).1
  simp only [Bool.not_false, Bool.true_and, List.any_eq_true, not_exists, not_and, decide_eq_true_eq] at h7
  exact Nat.lt_of_not_le (h7 r (List.mem_append_right _ hr))

/-- Vector registers that an executing instruction writes are general registers, or the run's own (R8, R322). -/
theorem Issues.writable {i : Instr} {k : BitVec 4} {s : State} {x : Iss} (h : Issues i k s x) {r : Nat}
    (hr : r ∈ (sigOf i).vw) : r < 248 ∨ (s.my x).run.isSome = true := by
  obtain ⟨c, t, hc, hi, ht, hk, hw, rfl⟩ := h
  have hm : s.my ⟨c.p, effMask (t.grp c.p.unit) c.p.entry k, c.at_, c.next, c.words, (t.grp c.p.unit).run.isSome⟩ =
      t.grp c.p.unit := by simp [State.my, State.grp_of_team ht]
  rw [hm]
  by_cases hrun : (t.grp c.p.unit).run.isSome = true
  · exact .inr hrun
  · left
    apply Decidable.byContradiction
    intro h248
    simp only [Bool.not_eq_true] at hrun
    rw [hrun] at hk
    exact h248 (Sig.vw_of_check hk hr)

/-! ### Vector registers -/

theorem Grp.vget_vset (g : Grp) (r i : Nat) (x : Lane) (r' i' : Nat) (hi : i < 64) (hi' : i' < 64)
    (hr : r < 248 ∨ g.run.isSome = true) :
    (g.vset r i x).vget r' i' = if r' = r ∧ i' = i then x else g.vget r' i' := by
  unfold Grp.vset Grp.vget
  by_cases h1 : r < 248
  · simp only [h1, if_true]
    by_cases h2 : r' < 248
    · simp only [h2, if_true, sget_sset]
      have : 64 * r' + i' = 64 * r + i ↔ r' = r ∧ i' = i := by omega
      simp [this]
    · have : ¬(r' = r) := by omega
      simp [h2, this]
  · simp only [h1, if_false]
    have hr : g.run.isSome = true := by simpa [h1] using hr
    obtain ⟨y, hy⟩ := Option.isSome_iff_exists.mp hr
    rw [hy]
    dsimp only
    by_cases h2 : r' < 248
    · have : ¬(r' = r) := by omega
      simp [h2, this]
    · simp only [h2, if_false, sget_sset]
      have : 64 * (r' - 248) + i' = 64 * (r - 248) + i ↔ r' = r ∧ i' = i := by omega
      simp [this]

@[simp] theorem Grp.vset_run (g : Grp) (r i : Nat) (x : Lane) : (g.vset r i x).run.isSome = g.run.isSome := by
  unfold Grp.vset
  split
  · rfl
  · split <;> simp [*]

@[simp] theorem Grp.vset_frame (g : Grp) (r i : Nat) (x : Lane) : (g.vset r i x).frame = g.frame := by
  unfold Grp.vset Grp.frame
  split
  · rfl
  · split
    · rename_i h; simp [h, RunCtx.frame]
    · rfl

@[simp] theorem Grp.vset_split (g : Grp) (r i : Nat) (x : Lane) : (g.vset r i x).split = g.split := by
  unfold Grp.vset
  split
  · rfl
  · split <;> rfl

@[simp] theorem Grp.vset_s (g : Grp) (r i : Nat) (x : Lane) : (g.vset r i x).s = g.s := by
  unfold Grp.vset
  split
  · rfl
  · split <;> rfl

@[simp] theorem Grp.vset_m (g : Grp) (r i : Nat) (x : Lane) : (g.vset r i x).m = g.m := by
  unfold Grp.vset
  split
  · rfl
  · split <;> rfl

theorem mem_lanesOf (m : LaneMask) (l : Nat) : l ∈ lanesOf m ↔ l < 64 ∧ m.getLsbD l = true := by
  unfold lanesOf
  simp only [List.mem_filter]
  refine and_congr_left fun _ => ?_
  have : ∀ n lo k, k ∈ upto lo n ↔ lo ≤ k ∧ k < lo + n := by
    intro n
    induction n with
    | zero => intro lo k; simp only [upto, List.not_mem_nil, false_iff]; omega
    | succ n ih => intro lo k; simp only [upto, List.mem_cons, ih]; omega
  simpa using this 64 0 l

theorem Grp.vget_vfill (g : Grp) (r : Nat) (m : LaneMask) (f : Nat → Lane) (hr : r < 248 ∨ g.run.isSome = true) (r' l : Nat)
    (hl : l < 64) : (g.vfill r m f).vget r' l = if r' = r ∧ m.getLsbD l = true then f l else g.vget r' l := by
  have key : ∀ (ls : List Nat) (g : Grp), (r < 248 ∨ g.run.isSome = true) → (∀ k ∈ ls, k < 64) →
      (g.vsets (ls.map fun i => (r, i, f i))).vget r' l = if r' = r ∧ l ∈ ls then f l else g.vget r' l := by
    intro ls
    induction ls with
    | nil => intro g _ _; simp [Grp.vsets]
    | cons k t ih =>
      intro g hr hk
      have hk0 : k < 64 := hk k (by simp)
      simp only [List.map_cons, Grp.vsets]
      rw [ih _ (by simpa using hr) fun x hx => hk x (by simp [hx]), Grp.vget_vset _ _ _ _ _ _ hk0 hl hr]
      by_cases h1 : r' = r
      · by_cases h2 : l ∈ t
        · simp [h1, h2]
        · by_cases h3 : l = k
          · simp [h1, h3]
          · simp [h1, h2, h3]
      · simp [h1]
  have := key (lanesOf m) g hr fun k hk => ((mem_lanesOf m k).mp hk).1
  simp only [mem_lanesOf, hl, true_and] at this
  exact this

theorem Grp.vsets_frame (ls : List (Nat × Nat × Lane)) (g : Grp) :
    (g.vsets ls).frame = g.frame ∧ (g.vsets ls).split = g.split ∧ (g.vsets ls).s = g.s ∧ (g.vsets ls).m = g.m := by
  induction ls generalizing g with
  | nil => exact ⟨rfl, rfl, rfl, rfl⟩
  | cons e t ih =>
    obtain ⟨h1, h2, h3, h4⟩ := ih (g.vset e.1 e.2.1 e.2.2)
    exact ⟨h1.trans (by simp), h2.trans (by simp), h3.trans (by simp), h4.trans (by simp)⟩

@[simp] theorem Grp.vfill_frame (g : Grp) (r : Nat) (m : LaneMask) (f : Nat → Lane) : (g.vfill r m f).frame = g.frame :=
  (Grp.vsets_frame _ g).1
@[simp] theorem Grp.vfill_split (g : Grp) (r : Nat) (m : LaneMask) (f : Nat → Lane) : (g.vfill r m f).split = g.split :=
  (Grp.vsets_frame _ g).2.1
@[simp] theorem Grp.vfill_s (g : Grp) (r : Nat) (m : LaneMask) (f : Nat → Lane) : (g.vfill r m f).s = g.s :=
  (Grp.vsets_frame _ g).2.2.1
@[simp] theorem Grp.vfill_m (g : Grp) (r : Nat) (m : LaneMask) (f : Nat → Lane) : (g.vfill r m f).m = g.m :=
  (Grp.vsets_frame _ g).2.2.2

/-! ### What an instruction that writes registers and goes on leaves behind -/

theorem Grp.emitting_of_frame {g h : Grp} (e : h.frame = g.frame) : h.emitting = g.emitting := by
  have hr : h.run.map RunCtx.frame = g.run.map RunCtx.frame := congrArg Grp.run e
  unfold Grp.emitting
  cases hg : g.run with
  | none =>
    cases hh : h.run with
    | none => rfl
    | some b => simp [hg, hh] at hr
  | some a =>
    cases hh : h.run with
    | none => simp [hg, hh] at hr
    | some b =>
      rw [hg, hh] at hr
      have : b.emitted = a.emitted := by simpa [RunCtx.frame] using congrArg RunCtx.emitted (Option.some.inj hr)
      simp [this]

theorem State.advance_eq (s : State) (x : Iss) :
    s.advance x = s.updGrp x.p.team x.p.unit fun g => g.advanced x.p.entry x.words x.next := rfl

@[simp] theorem Grp.updEntry_frame (g : Grp) (e : Nat) (f : Entry → Entry) : (g.updEntry e f).frame = g.frame := rfl

@[simp] theorem Grp.advanced_frame (g : Grp) (e words : Nat) (pc : U64) : (g.advanced e words pc).frame = g.frame := by
  unfold Grp.advanced
  split
  · rfl
  · rename_i r h
    dsimp only
    split <;> simp [Grp.frame, h, RunCtx.frame, Grp.updEntry]

@[simp] theorem Grp.advanced_s (g : Grp) (e words : Nat) (pc : U64) : (g.advanced e words pc).s = g.s := by
  unfold Grp.advanced
  split
  · rfl
  · dsimp only; split <;> rfl

@[simp] theorem Grp.advanced_m (g : Grp) (e words : Nat) (pc : U64) : (g.advanced e words pc).m = g.m := by
  unfold Grp.advanced
  split
  · rfl
  · dsimp only; split <;> rfl

@[simp] theorem Grp.updEntry_vget (g : Grp) (e : Nat) (f : Entry → Entry) (r l : Nat) :
    (g.updEntry e f).vget r l = g.vget r l := rfl

theorem Grp.vget_idx (g : Grp) (x : RunCtx) (n r l : Nat) (h : g.run = some x) :
    ({ g with run := some { x with idx := n } } : Grp).vget r l = g.vget r l := by
  simp [Grp.vget, h]

@[simp] theorem Grp.advanced_vget (g : Grp) (e words : Nat) (pc : U64) (r l : Nat) :
    (g.advanced e words pc).vget r l = g.vget r l := by
  unfold Grp.advanced
  split
  · rfl
  · rename_i y h
    dsimp only
    split
    · exact Grp.vget_idx g y _ r l h
    · rw [Grp.updEntry_vget]; exact Grp.vget_idx g y _ r l h

theorem Grp.entry_updEntry (g : Grp) (e k : Nat) (f : Entry → Entry) (he : e < g.split.length) :
    (g.updEntry e f).entry k = if k = e then f (g.entry k) else g.entry k := by
  unfold Grp.updEntry Grp.entry
  dsimp only
  rw [getD_modAt]
  by_cases h : k = e
  · subst h; simp [he]
  · simp [h]

theorem Grp.emitting_none {g : Grp} (h : g.run = .none) : g.emitting = false := by
  unfold Grp.emitting
  rw [h]

theorem Grp.emitting_some {g : Grp} {r : RunCtx} (h : g.run = some r) : g.emitting = r.emitted.isSome := by
  unfold Grp.emitting
  rw [h]

theorem Grp.advanced_entry (g : Grp) (e words : Nat) (pc : U64) (he : e < g.split.length) (k : Nat) :
    (g.advanced e words pc).entry k =
      if k = e ∧ g.emitting = false then { g.entry k with pc := pc } else g.entry k := by
  unfold Grp.advanced
  split
  · rename_i h
    rw [Grp.entry_updEntry _ _ _ _ he, Grp.emitting_none h]
    simp
  · rename_i r h
    rw [Grp.emitting_some h]
    dsimp only
    split
    · rename_i h1
      rw [h1]
      simp [Grp.entry]
    · rename_i h1
      have h2 : r.emitted.isSome = false := by simpa using h1
      rw [h2, Grp.entry_updEntry]
      · simp [Grp.entry]
      · exact he

/-- The state after an instruction that updates registers by `f` and goes on at the next instruction. -/
theorem wrote_of_upd {i : Instr} {k : BitVec 4} {s : State} {x : Iss} (h : Issues i k s x) (f : Grp → Grp)
    (hf : (f (s.my x)).frame = (s.my x).frame) (hs : (f (s.my x)).split = (s.my x).split) :
    Wrote s ((s.upd x f).advance x) x x.next (f (s.my x)).vget (f (s.my x)).sget (sget (f (s.my x)).m) := by
  obtain ⟨t, ht, hu, he, ha, hr⟩ := h.party
  have hm : ((s.upd x f).advance x).my x = (f (s.my x)).advanced x.p.entry x.words x.next := by
    rw [State.advance_eq]
    unfold State.upd State.my
    rw [State.updGrp_updGrp, State.grp_updGrp _ _ _ _ ht hu]
  refine ⟨⟨fun g => (f g).advanced x.p.entry x.words x.next, ?_⟩, ⟨?_, ?_⟩, ?_, ?_, ?_⟩
  · rw [State.advance_eq]; unfold State.upd; rw [State.updGrp_updGrp]
  · rw [hm, Grp.advanced_frame, hf]
  · intro k
    rw [hm, Grp.advanced_entry _ _ _ _ (by rw [hs]; exact he), Grp.emitting_of_frame hf]
    simp [Grp.entry, hs]
  · intro r l _ _; rw [hm, Grp.advanced_vget]
  · intro r _; rw [hm]; simp [Grp.sget]
  · intro k _; rw [hm]; simp

/-- The same, the registers named by what they hold. -/
theorem wrote_of_upd' {i : Instr} {k : BitVec 4} {s : State} {x : Iss} (h : Issues i k s x) (f : Grp → Grp)
    (hf : (f (s.my x)).frame = (s.my x).frame) (hs : (f (s.my x)).split = (s.my x).split)
    {v : Nat → Nat → Lane} {u : Nat → U64} {m : Nat → LaneMask}
    (hv : ∀ r l, r < 256 → l < 64 → (f (s.my x)).vget r l = v r l) (hu : ∀ r, r < 256 → (f (s.my x)).sget r = u r)
    (hm : ∀ k, k < 16 → sget (f (s.my x)).m k = m k) :
    Wrote s ((s.upd x f).advance x) x x.next v u m := by
  obtain ⟨h1, h2, h3, h4, h5⟩ := wrote_of_upd h f hf hs
  exact ⟨h1, h2, fun r l hr hl => (h3 r l hr hl).trans (hv r l hr hl), fun r hr => (h4 r hr).trans (hu r hr),
    fun k hk => (h5 k hk).trans (hm k hk)⟩

end Sys2Proof.Machine
end

