-- ==== Sys2Proof/Laws/Lane.lean ====
section
/-!
SUPPORT. What the shared operations of lane, mask, uniform and branch instructions do: one lemma for each.
-/

namespace Sys2Proof.Machine

/-- A lane instruction whose meaning is `laneOp` writes the active lanes of its register and nothing else. -/
theorem laneGives_of_laneOp {i : Instr} {p : Pfx} {d : Nat} {f : Grp → Nat → Lane} (hd : d ∈ (sigOf i).vw)
    (he : ∀ s, exec i s = laneOp (sigOf i) p d f s) : LaneGives i p.mask d fun g _ l => f g l := by
  intro s x h
  refine ⟨_, (he s).trans (issue_of_issues h _), ?_⟩
  have hw := h.writable hd
  refine wrote_of_upd' h _ (Grp.vfill_frame _ _ _ _) (Grp.vfill_split _ _ _ _) ?_
    (fun _ _ => by rw [Grp.sget, Grp.vfill_s]; rfl) (fun _ _ => by rw [Grp.vfill_m])
  intro r l _ hl
  exact Grp.vget_vfill _ _ _ _ hw _ _ hl

/-- The same for a meaning that computes its values from the effective mask. -/
theorem laneGives_of_issue {i : Instr} {p : Pfx} {d : Nat} {f : Grp → LaneMask → Nat → Lane} (hd : d ∈ (sigOf i).vw)
    (he : ∀ s, exec i s = issue (sigOf i) p.mask s fun x s =>
      .next ((s.upd x fun g => g.vfill d x.mask (f (s.my x) x.mask)).advance x)) : LaneGives i p.mask d f := by
  intro s x h
  refine ⟨_, (he s).trans (issue_of_issues h _), ?_⟩
  have hw := h.writable hd
  refine wrote_of_upd' h _ (Grp.vfill_frame _ _ _ _) (Grp.vfill_split _ _ _ _) ?_
    (fun _ _ => by rw [Grp.sget, Grp.vfill_s]; rfl) (fun _ _ => by rw [Grp.vfill_m])
  intro r l _ hl
  exact Grp.vget_vfill _ _ _ _ hw _ _ hl

/-- The values may be written another way. -/
theorem LaneGives.congr {i : Instr} {k : BitVec 4} {d : Nat} {f f' : Grp → LaneMask → Nat → Lane}
    (h : LaneGives i k d f) (e : ∀ g m l, m.getLsbD l = true → f g m l = f' g m l) : LaneGives i k d f' := by
  intro s x hi
  obtain ⟨t, ht, h1, h2, h3, h4, h5⟩ := h s x hi
  refine ⟨t, ht, h1, h2, fun r l hr hl => (h3 r l hr hl).trans ?_, h4, h5⟩
  by_cases hc : r = d ∧ x.mask.getLsbD l = true
  · rw [if_pos hc, if_pos hc, e _ _ _ hc.2]
  · rw [if_neg hc, if_neg hc]

@[simp] theorem Grp.mput_frame (g : Grp) (r : Nat) (m x : LaneMask) : (g.mput r m x).frame = g.frame := rfl
@[simp] theorem Grp.mput_split (g : Grp) (r : Nat) (m x : LaneMask) : (g.mput r m x).split = g.split := rfl
@[simp] theorem Grp.mput_s (g : Grp) (r : Nat) (m x : LaneMask) : (g.mput r m x).s = g.s := rfl
@[simp] theorem Grp.mput_vget (g : Grp) (r : Nat) (m x : LaneMask) (k l : Nat) : (g.mput r m x).vget k l = g.vget k l := rfl
@[simp] theorem Grp.sput_frame (g : Grp) (r : Nat) (x : U64) : (g.sput r x).frame = g.frame := rfl
@[simp] theorem Grp.sput_split (g : Grp) (r : Nat) (x : U64) : (g.sput r x).split = g.split := rfl
@[simp] theorem Grp.sput_m (g : Grp) (r : Nat) (x : U64) : (g.sput r x).m = g.m := rfl
@[simp] theorem Grp.sput_vget (g : Grp) (r : Nat) (x : U64) (k l : Nat) : (g.sput r x).vget k l = g.vget k l := rfl
@[simp] theorem Grp.sget_sput (g : Grp) (r : Nat) (x : U64) (k : Nat) : (g.sput r x).sget k = if k = r then x else g.sget k := by
  simp [Grp.sput, Grp.sget, sget_sset]
@[simp] theorem mget_mput (g : Grp) (r : Nat) (m x : LaneMask) (k : Nat) :
    sget (g.mput r m x).m k = if k = r then (sget g.m r &&& ~~~m) ||| (x &&& m) else sget g.m k := by
  simp [Grp.mput, sget_sset]

/-- A mask instruction whose meaning is `maskOp` writes the active bits of its mask register and nothing else. -/
theorem maskGives_of_maskOp {i : Instr} {p : Pfx} {d : Nat} {f : Iss → Grp → LaneMask} {val : Grp → Nat → LaneMask → Nat → Bool}
    (he : ∀ s, exec i s = maskOp (sigOf i) p d f s)
    (hv : ∀ x g l, l < 64 → x.mask.getLsbD l = true → (f x g).getLsbD l = val g x.p.entry x.mask l) :
    MaskGives i p.mask d val := by
  intro s x h
  refine ⟨_, (sget (s.my x).m d &&& ~~~x.mask) ||| (f x (s.my x) &&& x.mask), (he s).trans (issue_of_issues h _), ?_,
    wrote_of_upd' h _ rfl rfl (fun _ _ _ _ => rfl) (fun _ _ => rfl) ?_⟩
  · intro l hl
    simp only [BitVec.getLsbD_or, BitVec.getLsbD_and, BitVec.getLsbD_not, hl, decide_true, Bool.true_and]
    cases hm : x.mask.getLsbD l
    · simp
    · simp [hv x (s.my x) l hl hm]
  · intro k _
    rw [mget_mput]

/-- A uniform instruction whose meaning is `uniOp` writes its register and nothing else. -/
theorem uniGives_of_uniOp {i : Instr} {d : BitVec 8} {f : Grp → U64} (he : ∀ s, exec i s = uniOp (sigOf i) d f s) :
    UniGives i d.toNat f := by
  intro s x h
  refine ⟨_, (he s).trans (issue_of_issues h _), ?_⟩
  exact wrote_of_upd' h _ rfl rfl (fun _ _ _ _ => rfl) (fun r _ => by rw [Grp.sget_sput]) (fun _ _ => rfl)

/-- An instruction that passes the checks of R362 in a run may stand in one. -/
theorem Sig.runOk_of_check {g : Sig} {unit idx words vregs acc : Nat} (h : g.check unit true idx words vregs acc = none) :
    g.runOk = true := by
  have h3 := (passed (passed (passed (passed (passed h).2).2).2).2).1
  simpa using h3

/-- An instruction that no run may hold issues outside a run (R362). -/
theorem Issues.noRun {i : Instr} {k : BitVec 4} {s : State} {x : Iss} (h : Issues i k s x) (hr : (sigOf i).runOk = false) :
    (s.my x).run = none := by
  obtain ⟨c, t, hc, hi, ht, hk, hw, rfl⟩ := h
  simp only [State.my, State.grp_of_team ht]
  cases hg : (t.grp c.p.unit).run with
  | none => rfl
  | some r =>
    rw [hg] at hk
    rw [Sig.runOk_of_check hk] at hr
    cases hr

/-- A branch: the PC of the fragment moves, nothing else changes. -/
theorem wrote_of_goto {i : Instr} {k : BitVec 4} {s : State} {x : Iss} (h : Issues i k s x) (hr : (sigOf i).runOk = false)
    (f : Grp → Grp) (hf : (f (s.my x)).frame = (s.my x).frame) (hs : (f (s.my x)).split = (s.my x).split) (pc : U64) :
    Wrote s ((s.upd x f).goto x pc) x pc (f (s.my x)).vget (f (s.my x)).sget (sget (f (s.my x)).m) := by
  obtain ⟨t, ht, hu, he, ha, hr'⟩ := h.party
  have hn : (s.my x).emitting = false := Grp.emitting_none (h.noRun hr)
  have hm : ((s.upd x f).goto x pc).my x = (f (s.my x)).updEntry x.p.entry fun e => { e with pc := pc } := by
    unfold State.goto State.setPc State.updEntry State.upd State.my
    rw [State.updGrp_updGrp, State.grp_updGrp _ _ _ _ ht hu]
  refine ⟨⟨fun g => (f g).updEntry x.p.entry fun e => { e with pc := pc }, ?_⟩, ⟨?_, ?_⟩, ?_, ?_, ?_⟩
  · unfold State.goto State.setPc State.updEntry State.upd; rw [State.updGrp_updGrp]
  · rw [hm, Grp.updEntry_frame, hf]
  · intro k
    rw [hm, Grp.entry_updEntry _ _ _ _ (by rw [hs]; exact he), hn]
    simp [Grp.entry, hs]
  · intro r l _ _; rw [hm]; rfl
  · intro r _; rw [hm]; rfl
  · intro k _; rw [hm]; rfl

end Sys2Proof.Machine
end

