-- ==== Sys2Proof/Certificates/Slice0/Obligations.lean ====
section
/-!
DEFINITION. What the provers are asked: statements about single instructions, events, reset, decoding and the step, from the
rules of spec/. A statement of a rule's own words names the rule; where a clause rests on a choice of the model, its
docstring names the entry of the assumption log.
-/

open Sys2Proof Sys2Proof.Machine

/-! ### Lane instructions -/

/-- R398, R396, R119: the three-operand integer words write, in each active lane, the value of the rule's table, with b a lane
of v[b] or the low word of s[b]; inactive lanes and everything else stay.
R398, R351, R323: the words with an immediate, signed for `add` to `xor` and unsigned for the shifts. -/
def Obligations.LaneIntegerResults : Prop :=
  (
    ∀ (p : Pfx) (d a b : BitVec 8) (u : Bool),
      let gives := fun (i : Instr) (f : Lane → Lane → Lane → Lane) =>
        LaneGives i p.mask d.toNat fun g _ l => f (g.vget a.toNat l) (g.opB b u l) (g.vget d.toNat l)
      gives (.add p d a b u) (fun x y _ => BitVec.ofNat 32 (x.toNat + y.toNat)) ∧
      gives (.sub p d a b u) (fun x y _ => BitVec.ofInt 32 (x.toInt - y.toInt)) ∧
      gives (.and p d a b u) (fun x y _ => x &&& y) ∧
      gives (.or p d a b u) (fun x y _ => x ||| y) ∧
      gives (.xor p d a b u) (fun x y _ => x ^^^ y) ∧
      gives (.shl p d a b u) (fun x y _ => BitVec.ofNat 32 (x.toNat * 2 ^ (y.toNat % 32))) ∧
      gives (.shr p d a b u) (fun x y _ => BitVec.ofNat 32 (x.toNat / 2 ^ (y.toNat % 32))) ∧
      gives (.sra p d a b u) (fun x y _ => BitVec.ofInt 32 (x.toInt / 2 ^ (y.toNat % 32))) ∧
      gives (.mul p d a b u) (fun x y _ => BitVec.ofNat 32 (x.toNat * y.toNat)) ∧
      gives (.mad p d a b u) (fun x y z => BitVec.ofNat 32 (x.toNat * y.toNat + z.toNat)) ∧
      gives (.mulh p d a b u) (fun x y _ => BitVec.ofInt 32 (x.toInt * y.toInt / 2 ^ 32)) ∧
      gives (.mulhu p d a b u) (fun x y _ => BitVec.ofNat 32 (x.toNat * y.toNat / 2 ^ 32)) ∧
      gives (.min p d a b u) (fun x y _ => if x.toInt ≤ y.toInt then x else y) ∧
      gives (.max p d a b u) (fun x y _ => if y.toInt ≤ x.toInt then x else y) ∧
      gives (.minu p d a b u) (fun x y _ => if x.toNat ≤ y.toNat then x else y) ∧
      gives (.maxu p d a b u) (fun x y _ => if y.toNat ≤ x.toNat then x else y)) ∧
  (
    ∀ (p : Pfx) (d a : BitVec 8) (imm : Imm),
      let gives := fun (i : Instr) (f : Lane → Lane) => LaneGives i p.mask d.toNat fun g _ l => f (g.vget a.toNat l)
      let y := Imm.lane imm true
      let n := (Imm.lane imm false).toNat % 32
      gives (.addImm p d a imm) (fun x => BitVec.ofNat 32 (x.toNat + y.toNat)) ∧
      gives (.mulImm p d a imm) (fun x => BitVec.ofNat 32 (x.toNat * y.toNat)) ∧
      gives (.andImm p d a imm) (fun x => x &&& y) ∧
      gives (.orImm p d a imm) (fun x => x ||| y) ∧
      gives (.xorImm p d a imm) (fun x => x ^^^ y) ∧
      gives (.shlImm p d a imm) (fun x => BitVec.ofNat 32 (x.toNat * 2 ^ n)) ∧
      gives (.shrImm p d a imm) (fun x => BitVec.ofNat 32 (x.toNat / 2 ^ n)) ∧
      gives (.sraImm p d a imm) (fun x => BitVec.ofInt 32 (x.toInt / 2 ^ n)))

/-- R347: a 16-bit word has the effect of its 32-bit equivalent on `vd, vd, vb`, or on `vd, vd, imm` with imm5 signed for
`add` and unsigned for the shifts; the two float words add and multiply FP32 under RNE.
R399, R400: bit fields and the one-source integer words. -/
def Obligations.ShortWordAndFieldResults : Prop :=
  (
    ∀ (p : Pfx) (vd : BitVec 6) (vb : BitVec 5),
      let gives := fun (i : Instr) (f : Lane → Lane → Lane) =>
        LaneGives i p.mask vd.toNat fun g _ l => f (g.vget vd.toNat l) (g.vget vb.toNat l)
      let n := vb.toNat
      gives (.add16 p vd vb) (fun x y => BitVec.ofNat 32 (x.toNat + y.toNat)) ∧
      gives (.addImm16 p vd vb) (fun x _ => BitVec.ofInt 32 (x.toInt + vb.toInt)) ∧
      gives (.sub16 p vd vb) (fun x y => BitVec.ofInt 32 (x.toInt - y.toInt)) ∧
      gives (.mul16 p vd vb) (fun x y => BitVec.ofNat 32 (x.toNat * y.toNat)) ∧
      gives (.and16 p vd vb) (fun x y => x &&& y) ∧
      gives (.or16 p vd vb) (fun x y => x ||| y) ∧
      gives (.xor16 p vd vb) (fun x y => x ^^^ y) ∧
      gives (.shl16 p vd vb) (fun x _ => BitVec.ofNat 32 (x.toNat * 2 ^ n)) ∧
      gives (.shr16 p vd vb) (fun x _ => BitVec.ofNat 32 (x.toNat / 2 ^ n)) ∧
      gives (.sra16 p vd vb) (fun x _ => BitVec.ofInt 32 (x.toInt / 2 ^ n)) ∧
      gives (.min16 p vd vb) (fun x y => if x.toInt ≤ y.toInt then x else y) ∧
      gives (.max16 p vd vb) (fun x y => if y.toInt ≤ x.toInt then x else y) ∧
      gives (.minu16 p vd vb) (fun x y => if x.toNat ≤ y.toNat then x else y) ∧
      gives (.maxu16 p vd vb) (fun x y => if y.toNat ≤ x.toNat then x else y) ∧
      gives (.fadd16 p vd vb) (fun x y => BitVec.ofNat 32 (fp32.fadd 0 x.toNat y.toNat)) ∧
      gives (.fmul16 p vd vb) (fun x y => BitVec.ofNat 32 (fp32.fmul 0 x.toNat y.toNat))) ∧
  (
    ∀ (p : Pfx) (d a b : BitVec 8) (u : Bool) (k : BitVec 4),
      let gives3 := fun (i : Instr) (f : Lane → Lane → Lane → Lane) =>
        LaneGives i p.mask d.toNat fun g _ l => f (g.vget a.toNat l) (g.opB b u l) (g.vget d.toNat l)
      let gives1 := fun (i : Instr) (f : Lane → Lane) => LaneGives i p.mask d.toNat fun g _ l => f (g.vget a.toNat l)
      let pos := fun (y : Lane) => y.toNat % 32
      let len := fun (y : Lane) => min (y.toNat / 2 ^ 8 % 2 ^ 6) 32
      let field : Lane → Lane → Nat := fun x y => x.toNat / 2 ^ pos y % 2 ^ len y
      gives3 (.bfx p d a b u) (fun x y _ =>
        if y.getLsbD 15 ∧ 0 < len y ∧ field x y / 2 ^ (len y - 1) % 2 = 1 then BitVec.ofInt 32 ((field x y : Int) - (2 ^ len y : Nat))
        else BitVec.ofNat 32 (field x y)) ∧
      gives3 (.bfi p d a b u) (fun x y z =>
        let m := BitVec.ofNat 32 ((2 ^ len y - 1) * 2 ^ pos y)
        (z &&& ~~~m) ||| (BitVec.ofNat 32 (x.toNat * 2 ^ pos y) &&& m)) ∧
      gives1 (.not p d a) (fun x => BitVec.ofNat 32 (2 ^ 32 - 1 - x.toNat)) ∧
      gives1 (.abs p d a) (fun x => if x.toInt = -2 ^ 31 then 0x7FFFFFFF else if x.toInt < 0 then -x else x) ∧
      gives1 (.neg p d a) (fun x => if x.toInt = -2 ^ 31 then 0x7FFFFFFF else -x) ∧
      gives1 (.pop p d a) (fun x => BitVec.ofNat 32 ((List.range 32).countP fun i => x.getLsbD i)) ∧
      gives1 (.clz p d a) (fun x => BitVec.ofNat 32 (if x = 0 then 32 else 31 - Nat.log2 x.toNat)) ∧
      LaneGives (.sel p d a k) p.mask d.toNat (fun g _ l =>
        if k = 0 ∨ (sget g.m k.toNat).getLsbD l then g.vget a.toNat l else g.vget d.toNat l))

/-- R401, R352, R403: the compares write, for each active lane, the bit that the condition code gives, and keep every other bit
of the mask register; a float pair is compared by its values in the format of the prefix's TYPE.
R410, R9: the mask instructions; mask register 0 reads as the fragment's mask. -/
def Obligations.CompareAndMaskResults : Prop :=
  (
    ∀ (p : Pfx) (c m : BitVec 4) (a b : BitVec 8) (u : Bool) (imm : Imm),
      let holds := fun (x y : Lane) =>
        (c = 0 ∧ x = y) ∨ (c = 1 ∧ x ≠ y) ∨ (c = 2 ∧ x.toInt < y.toInt) ∨ (c = 3 ∧ x.toInt ≤ y.toInt) ∨
        (c = 4 ∧ y.toInt < x.toInt) ∨ (c = 5 ∧ y.toInt ≤ x.toInt) ∨ (c = 6 ∧ x.toNat < y.toNat) ∨
        (c = 7 ∧ x.toNat ≤ y.toNat) ∨ (c = 8 ∧ y.toNat < x.toNat) ∨ (c = 9 ∧ y.toNat ≤ x.toNat)
      let f := fmtOf p.ty
      (c.toNat ≤ 9 →
        MaskGives (.cmp p c m a b u) p.mask m.toNat (fun g _ _ l => decide (holds (g.vget a.toNat l) (g.opB b u l))) ∧
        MaskGives (.cmpImm p c m a imm) p.mask m.toNat (fun g _ _ l => decide (holds (g.vget a.toNat l) (Imm.lane imm true)))) ∧
      (c.toNat ≤ 7 →
        MaskGives (.fcmp p c m a b u) p.mask m.toNat (fun g _ _ l =>
          let x := f.dec (f.of (g.vget a.toNat l))
          let y := f.dec (f.of (g.opB b u l))
          let ord := !x.isNan && !y.isNan
          (c == 0 && ord && x.eq y) || (c == 1 && !(ord && x.eq y)) || (c == 2 && ord && x.lt y) ||
          (c == 3 && ord && (x.lt y || x.eq y)) || (c == 4 && ord && y.lt x) || (c == 5 && ord && (y.lt x || x.eq y)) ||
          (c == 6 && !ord) || (c == 7 && ord)))) ∧
  (
    ∀ (p : Pfx) (d a k : BitVec 4) (v : BitVec 8),
      let r := fun (g : Grp) (e : Nat) (x : BitVec 4) (l : Nat) =>
        if x = 0 then (g.entry e).mask.getLsbD l else (sget g.m x.toNat).getLsbD l
      MaskGives (.mand p d a k) p.mask d.toNat (fun g e _ l => r g e a l && r g e k l) ∧
      MaskGives (.mor p d a k) p.mask d.toNat (fun g e _ l => r g e a l || r g e k l) ∧
      MaskGives (.mxor p d a k) p.mask d.toNat (fun g e _ l => r g e a l != r g e k l) ∧
      MaskGives (.mnot p d a) p.mask d.toNat (fun g e _ l => !r g e a l) ∧
      MaskGives (.mmov p d a) p.mask d.toNat (fun g e _ l => r g e a l) ∧
      MaskGives (.mfirst p d a) p.mask d.toNat
        (fun g e m l => r g e a l && decide (∀ j, j < l → ¬(r g e a j = true ∧ m.getLsbD j = true))) ∧
      MaskGives (.mset p d v) p.mask d.toNat (fun g _ _ l => g.vget v.toNat l != 0) ∧
      (∀ s x, Issues (.mpop p v a) p.mask s x → ∃ t, exec (.mpop p v a) s = .next t ∧
        Wrote s t x x.next
          (fun q l => if q = v.toNat ∧ x.mask.getLsbD l
            then BitVec.ofNat 32 ((List.range 64).countP fun j => r (s.my x) x.p.entry a j && x.mask.getLsbD j)
            else (s.my x).vget q l)
          (s.my x).sget (sget (s.my x).m)))

/-- R402, R404, R397: the float words compute in the format of the prefix's TYPE, from the low bits of their sources, and
clear the bits above the format.
R402, R404, R212: in all three formats a NaN input of the arithmetic words gives the canonical NaN, `fmin` and `fmax` give
the other operand for one NaN and order −0 below +0, `fabs` clears and `fneg` inverts the sign of every encoding that is no
NaN, and `fclass` sets exactly one of ten bits.
R213, R211: rounding a value of a format to that format gives it back, in every mode: no encoding but a NaN's changes. -/
def Obligations.LaneFloatResults : Prop :=
  (
    ∀ (p : Pfx) (d a b : BitVec 8) (u : Bool),
      let f := fmtOf p.ty
      let rm := p.rm.toNat
      let gives3 := fun (i : Instr) (op : Nat → Nat → Nat → Nat) =>
        LaneGives i p.mask d.toNat fun g _ l =>
          BitVec.ofNat 32 (op (f.of (g.vget a.toNat l)) (f.of (g.opB b u l)) (f.of (g.vget d.toNat l)))
      let gives1 := fun (i : Instr) (op : Nat → Nat) =>
        LaneGives i p.mask d.toNat fun g _ l => BitVec.ofNat 32 (op (f.of (g.vget a.toNat l)))
      gives3 (.fadd p d a b u) (fun x y _ => f.enc rm ((f.dec x).add rm (f.dec y))) ∧
      gives3 (.fsub p d a b u) (fun x y _ => f.enc rm ((f.dec x).add rm (f.dec y).neg)) ∧
      gives3 (.fmul p d a b u) (fun x y _ => f.enc rm ((f.dec x).mul (f.dec y))) ∧
      gives3 (.ffma p d a b u) (fun x y z => f.enc rm (((f.dec x).mul (f.dec y)).add rm (f.dec z))) ∧
      gives3 (.fmin p d a b u) (fun x y _ => f.fmin x y) ∧
      gives3 (.fmax p d a b u) (fun x y _ => f.fmax x y) ∧
      gives1 (.fabs p d a) f.fabs ∧ gives1 (.fneg p d a) f.fneg ∧ gives1 (.fclass p d a) f.fclass ∧
      gives1 (.frnd p d a) (f.frnd rm)) ∧
  (
    ∀ (f : Fmt) (rm x y z : Nat), f = fp32 ∨ f = fp16 ∨ f = bf16 →
      x < 2 * f.sign → y < 2 * f.sign → z < 2 * f.sign →
      let nan := fun (v : Nat) => (f.dec v).isNan
      (nan x ∨ nan y → f.fadd rm x y = f.nan ∧ f.fsub rm x y = f.nan ∧ f.fmul rm x y = f.nan) ∧
      (nan x ∨ nan y ∨ nan z → f.ffma rm x y z = f.nan) ∧
      (nan x ∧ nan y → f.fmin x y = f.nan ∧ f.fmax x y = f.nan) ∧
      (nan x ∧ ¬nan y → f.fmin x y = y ∧ f.fmax x y = y ∧ f.fmin y x = y ∧ f.fmax y x = y) ∧
      (f.fmin f.sign 0 = f.sign ∧ f.fmin 0 f.sign = f.sign ∧ f.fmax f.sign 0 = 0 ∧ f.fmax 0 f.sign = 0) ∧
      (nan x → f.fabs x = f.nan ∧ f.fneg x = f.nan) ∧
      (¬nan x → f.fabs x = x % f.sign ∧ f.fneg x = (x + f.sign) % (2 * f.sign)) ∧
      (∃ k, k < 10 ∧ f.fclass x = 2 ^ k ∧ ((k = 8 ∨ k = 9) ↔ nan x))) ∧
  (
    ∀ (f : Fmt) (rm x : Nat), f = fp32 ∨ f = fp16 ∨ f = bf16 → x < 2 * f.sign → ¬(f.dec x).isNan →
      f.enc rm (f.dec x) = x)

/-- R362: `fcvt`, `rcp`, `rsq`, `sqrt`, `exp2`, `log2`, `sin`, `cos` and `tanh` complete at every state and operands that execute
normally. R405, R354, R214: for every register context and operands that execute normally, `fcvt` completes and writes its
conversion: between formats through the exact value; to an integer as the value rounded under RM (0 to the nearest, ties to even;
1 toward zero; 2 up; 3 down) and then saturated, NaN giving 0 and infinities the limits; from an integer as that value; and
between integers by saturation to 8 bits.
R406, R407: each of the eight SFU words completes and writes the function's value in the format of TYPE: the special values of
the table, the canonical NaN for a NaN and for `rsq`, `sqrt` and `log2` of a negative value; `rcp`, `sqrt` and `rsq` of a finite
value within half a unit of the last place, and an overflow of `rcp` only from the middle beyond the largest value on; `exp2` of
an integer, `log2` of a power of two and `sqrt` of a square exactly; and for each function a correctly rounded value at an
ordinary argument, also a negative one. -/
def Obligations.ConversionAndFunctionResults : Prop :=
  (∀ (p : Pfx) (d a : BitVec 8) (c : BitVec 4) (i : Instr) (s : State) (x : Iss), c.toNat < 14 →
    i ∈ [.fcvt p d a c, .rcp p d a, .rsq p d a, .sqrt p d a, .exp2 p d a, .log2 p d a, .sin p d a, .cos p d a, .tanh p d a] →
    Issues i p.mask s x → ∃ t, exec i s = .next t) ∧
  (∀ (p : Pfx) (d a : BitVec 8) (c : BitVec 4),
    let rm := p.rm.toNat
    let gives := fun (k : BitVec 4) (op : Lane → Lane) =>
      c = k → LaneGives (.fcvt p d a c) p.mask d.toNat fun g _ l => op (g.vget a.toNat l)
    let conv := fun (f g : Fmt) (rm : Nat) (x : Lane) => BitVec.ofNat 32 (g.enc rm (f.dec (f.of x)))
    gives 0 (conv fp16 fp32 0) ∧ gives 1 (conv bf16 fp32 0) ∧ gives 2 (conv fp32 fp16 rm) ∧ gives 3 (conv fp32 bf16 rm) ∧
    gives 4 (conv bf16 fp16 rm) ∧ gives 5 (conv fp16 bf16 rm) ∧
    gives 6 (fun x => BitVec.ofInt 32 (fp32.toInt rm true 32 x.toNat)) ∧
    gives 7 (fun x => BitVec.ofInt 32 (fp32.toInt rm false 32 x.toNat)) ∧
    gives 8 (fun x => BitVec.ofNat 32 (fp32.ofInt rm x.toInt)) ∧ gives 9 (fun x => BitVec.ofNat 32 (fp32.ofInt rm x.toNat)) ∧
    gives 10 (fun x => BitVec.ofInt 32 (max (-128) (min 127 x.toInt))) ∧
    gives 11 (fun x => BitVec.ofInt 32 (max 0 (min 255 x.toInt))) ∧
    gives 12 (fun x => BitVec.ofNat 32 (min 127 x.toNat)) ∧ gives 13 (fun x => BitVec.ofNat 32 (min 255 x.toNat))) ∧
  (∀ (p : Pfx) (d a : BitVec 8),
    let f := fmtOf p.ty
    let gives := fun (i : Instr) (op : Nat → Nat) =>
      LaneGives i p.mask d.toNat fun g _ l => BitVec.ofNat 32 (op (f.of (g.vget a.toNat l)))
    gives (.rcp p d a) f.rcp ∧ gives (.rsq p d a) f.rsq ∧ gives (.sqrt p d a) f.sqrt ∧ gives (.exp2 p d a) f.exp2 ∧
    gives (.log2 p d a) f.log2 ∧ gives (.sin p d a) f.sin ∧ gives (.cos p d a) f.cos ∧ gives (.tanh p d a) f.tanh) ∧
  (∀ f : Fmt, f = fp32 ∨ f = fp16 ∨ f = bf16 →
    let neg := fun (x : Nat) => f.sign + x
    let one := f.enc 0 (.fin false 1 0)
    f.rcp (neg f.inf) = neg 0 ∧ f.rcp (neg 0) = neg f.inf ∧ f.rcp 0 = f.inf ∧ f.rcp f.inf = 0 ∧
    f.rsq (neg f.inf) = f.nan ∧ f.rsq (neg 0) = neg f.inf ∧ f.rsq 0 = f.inf ∧ f.rsq f.inf = 0 ∧
    f.sqrt (neg f.inf) = f.nan ∧ f.sqrt (neg 0) = neg 0 ∧ f.sqrt 0 = 0 ∧ f.sqrt f.inf = f.inf ∧
    f.exp2 (neg f.inf) = 0 ∧ f.exp2 (neg 0) = one ∧ f.exp2 0 = one ∧ f.exp2 f.inf = f.inf ∧
    f.log2 (neg f.inf) = f.nan ∧ f.log2 (neg 0) = neg f.inf ∧ f.log2 0 = neg f.inf ∧ f.log2 f.inf = f.inf ∧ f.log2 one = 0 ∧
    f.sin (neg f.inf) = f.nan ∧ f.sin (neg 0) = neg 0 ∧ f.sin 0 = 0 ∧ f.sin f.inf = f.nan ∧
    f.cos (neg f.inf) = f.nan ∧ f.cos (neg 0) = one ∧ f.cos 0 = one ∧ f.cos f.inf = f.nan ∧
    f.tanh (neg f.inf) = neg one ∧ f.tanh (neg 0) = neg 0 ∧ f.tanh 0 = 0 ∧ f.tanh f.inf = one) ∧
  (∀ (rm : Nat) (sgn : Bool) (x : Nat), rm < 4 →
    let lo : Int := if sgn then -2 ^ 31 else 0
    let hi : Int := if sgn then 2 ^ 31 - 1 else 2 ^ 32 - 1
    let out := fp32.toInt rm sgn 32 x
    (fp32.dec x = .nan → out = 0) ∧
    (∀ n, fp32.dec x = .inf n → out = if n then lo else hi) ∧
    (∀ n m e, fp32.dec x = .fin n m e →
      let v : Int := if n then -m else m
      let d : Int := 2 ^ (-e).toNat
      let q := v / d
      let r := v % d
      let k := if 0 ≤ e then v * 2 ^ e.toNat else if r = 0 ∨ rm = 3 then q else if rm = 2 then q + 1
        else if rm = 1 then (if v < 0 then q + 1 else q)
        else if 2 * r < d ∨ (2 * r = d ∧ q % 2 = 0) then q else q + 1
      out = max lo (min hi k))) ∧
  (∀ (rm : Nat) (x : Int), fp32.ofInt rm x = fp32.enc rm (.fin (decide (x < 0)) x.natAbs 0)) ∧
  (∀ (f : Fmt) (x : Nat), f = fp32 ∨ f = fp16 ∨ f = bf16 →
    (f.dec x = .nan → f.rcp x = f.nan ∧ f.rsq x = f.nan ∧ f.sqrt x = f.nan ∧ f.exp2 x = f.nan ∧ f.log2 x = f.nan ∧
      f.sin x = f.nan ∧ f.cos x = f.nan ∧ f.tanh x = f.nan) ∧
    (∀ m e, m ≠ 0 → f.dec x = .fin true m e → f.rsq x = f.nan ∧ f.sqrt x = f.nan ∧ f.log2 x = f.nan) ∧
    -- m × 2^e ≤ k × 2^q
    let le := fun (m : Nat) (e : Int) (k : Nat) (q : Int) => m * 2 ^ (e - min e q).toNat ≤ k * 2 ^ (q - min e q).toNat
    (∀ n m e, m ≠ 0 → f.dec x = .fin n m e →
      (∃ k q, f.dec (f.rcp x) = .fin n k q ∧
        le ((2 * k - 1) * m) (q - 1 + e) 1 0 ∧ le 1 0 ((2 * k + 1) * m) (q - 1 + e)) ∨
      (f.rcp x = (if n then f.sign else 0) + f.inf ∧ le ((2 ^ (f.mw + 2) - 1) * m) (f.qmin + f.emax - 3 + e) 1 0)) ∧
    (∀ m e, m ≠ 0 → f.dec x = .fin false m e →
      (∃ k q, f.dec (f.sqrt x) = .fin false k q ∧
        le ((2 * k - 1) ^ 2) (2 * q - 2) m e ∧ le m e ((2 * k + 1) ^ 2) (2 * q - 2)) ∧
      (∃ k q, f.dec (f.rsq x) = .fin false k q ∧
        le ((2 * k - 1) ^ 2 * m) (2 * q - 2 + e) 1 0 ∧ le 1 0 ((2 * k + 1) ^ 2 * m) (2 * q - 2 + e))) ∧
    (∀ (n : Bool) (m k : Nat) (e : Int), f.dec x = .fin n m e → m * 2 ^ e.toNat = k * 2 ^ (-e).toNat →
      f.exp2 x = f.enc 0 (.fin false 1 (if n then -k else k))) ∧
    (∀ (k : Nat) (e : Int), f.dec x = .fin false (2 ^ k) e → f.log2 x = f.enc 0 (.fin (decide (k + e < 0)) (k + e).natAbs 0)) ∧
    (∀ (m k : Nat) (e q : Int), f.dec x = .fin false m e → le m e (k ^ 2) (2 * q) → le (k ^ 2) (2 * q) m e →
      f.sqrt x = f.enc 0 (.fin false k q))) ∧
  (fp32.rcp 0x40400000 = 0x3EAAAAAB ∧ fp32.rcp 0xC0400000 = 0xBEAAAAAB ∧ fp32.sqrt 0x40000000 = 0x3FB504F3 ∧
   fp32.rsq 0x40000000 = 0x3F3504F3 ∧ fp32.exp2 0x3F000000 = 0x3FB504F3 ∧ fp32.exp2 0xBF000000 = 0x3F3504F3 ∧
   fp32.log2 0x40400000 = 0x3FCAE00D ∧ fp32.log2 0x3F200000 = 0xBF2D961F ∧
   fp32.sin 0x3F800000 = 0x3F576AA4 ∧ fp32.sin 0xBF800000 = 0xBF576AA4 ∧ fp32.sin 0x42C80000 = 0xBF01A12E ∧
   fp32.cos 0x3F800000 = 0x3F0A5140 ∧ fp32.cos 0xBF800000 = 0x3F0A5140 ∧ fp32.cos 0x42C80000 = 0x3F5CC0EE ∧
   fp32.tanh 0x3F800000 = 0x3F42F7D6 ∧ fp32.tanh 0xBF800000 = 0xBF42F7D6)

/-- R412, R353: the shuffles take the value of another lane, active or not, and a lane whose source falls outside the group
keeps its own a. The distance is 2^aux[2:0], or 64 >> (aux[2:0] + 1) with aux[3].
R414: `sct` sends each active lane's a to the lane that its d names; the highest-numbered sender wins, a lane that receives
nothing keeps its value, and a value sent to an inactive lane is dropped.
R417, R418: `tbl` looks up each byte of d in the bytes of n + 1 registers of the lane, the fill byte beyond them; `vote` and
`lid` write the vote over the active lanes and the lane number. -/
def Obligations.CrossLaneResults : Prop :=
  (
    ∀ (p : Pfx) (d a : BitVec 8) (x : BitVec 4),
      let k : Nat := if x.toNat < 8 then 2 ^ x.toNat else 64 / 2 ^ (x.toNat - 7)
      let takes := fun (i : Instr) (j : Nat → Int) =>
        LaneGives i p.mask d.toNat fun g _ l =>
          g.vget a.toNat (if 0 ≤ j l ∧ j l < 64 then (j l).toNat else l)
      takes (.shfUp p d a x) (fun l => l - k) ∧
      takes (.shfDn p d a x) (fun l => l + k) ∧
      takes (.shfXor p d a x) (fun l => ((l ^^^ k : Nat) : Int)) ∧
      takes (.shfRot p d a x) (fun l => (((l + k) % 64 : Nat) : Int))) ∧
  (
    ∀ (p : Pfx) (d a : BitVec 8) (s : State) (x : Iss), Issues (.sct p d a) p.mask s x →
      ∃ t, exec (.sct p d a) s = .next t ∧
        (∀ i j, i < 64 → j < 64 → x.mask.getLsbD i → x.mask.getLsbD j → ((s.my x).vget d.toNat i).toNat % 64 = j →
          (∀ k, i < k → k < 64 → x.mask.getLsbD k → ((s.my x).vget d.toNat k).toNat % 64 ≠ j) →
          (t.my x).vget d.toNat j = (s.my x).vget a.toNat i) ∧
        (∀ j, j < 64 → (x.mask.getLsbD j = false ∨
            ∀ i, i < 64 → x.mask.getLsbD i → ((s.my x).vget d.toNat i).toNat % 64 ≠ j) →
          (t.my x).vget d.toNat j = (s.my x).vget d.toNat j) ∧
        ∃ v, (∀ r l, r ≠ d.toNat → v r l = (s.my x).vget r l) ∧ Wrote s t x x.next v (s.my x).sget (sget (s.my x).m)) ∧
  (
    ∀ (p : Pfx) (d a : BitVec 8) (n : BitVec 3) (fill c : BitVec 4),
      LaneGives (.tbl p d a n fill) p.mask d.toNat (fun g _ l =>
        let byte := fun (k : Nat) =>
          let x := (g.vget d.toNat l).toNat / 256 ^ k % 256
          if x < 4 * (n.toNat + 1) then (g.vget (a.toNat + x / 4) l).toNat / 256 ^ (x % 4) % 256 else (fill.signExtend 8).toNat
        BitVec.ofNat 32 (byte 0 + 256 * byte 1 + 256 ^ 2 * byte 2 + 256 ^ 3 * byte 3)) ∧
      (c.toNat ≤ 2 → LaneGives (.vote p d a c) p.mask d.toNat (fun g m _ =>
        let active := (List.range 64).filter fun j => m.getLsbD j
        if (c = 0 ∧ active.any fun j => g.vget a.toNat j != 0) ∨ (c = 1 ∧ active.all fun j => g.vget a.toNat j != 0) ∨
           (c = 2 ∧ active.all fun i => active.all fun j => g.vget a.toNat i == g.vget a.toNat j) then 1 else 0)) ∧
      LaneGives (.lid p d) p.mask d.toNat (fun _ _ l => BitVec.ofNat 32 l))

/-- R413: `shf.idx` reads lane d[i] mod GWIDTH of a, `bcst` the lane of the lowest-numbered active lane; a word of either
whose aux is not 0 decodes to no instruction, alone or behind a prefix. -/
def Obligations.IndexedShuffleAndBroadcast : Prop :=
  (∀ (p : Pfx) (d a : BitVec 8),
    LaneGives (.shfIdx p d a) p.mask d.toNat (fun g _ l => g.vget a.toNat ((g.vget d.toNat l).toNat % 64)) ∧
    LaneGives (.bcst p d a) p.mask d.toNat (fun g m _ =>
      g.vget a.toNat (((List.range 64).find? fun j => m.getLsbD j).getD 0))) ∧
  (∀ (w : Nat) (p : Pfx) (d a : BitVec 8), w < 2 ^ 32 →
    (decodeTableWord 32 w = some (.shfIdx p d a) → w / 2 ^ 23 % 32 = 4 ∧ w / 2 ^ 28 = 0) ∧
    (decodeTableWord 32 w = some (.bcst p d a) → w / 2 ^ 23 % 32 = 6 ∧ w / 2 ^ 28 = 0)) ∧
  (∀ w : Nat, w < 2 ^ 32 → w % 2 = 1 → w / 2 % 64 = 0x1B → w / 2 ^ 23 % 32 = 4 ∨ w / 2 ^ 23 % 32 = 6 → w / 2 ^ 28 ≠ 0 →
    decodeTableWord 32 w = none ∧
    ∀ q : Nat, q < 2 ^ 32 → q % 2 = 1 → q / 2 % 64 = 0x3E → decodeTableWord 64 (q + 2 ^ 32 * w) = none)

/-- R415: the integer reductions give, in every active lane, the operation over the active lanes' values; the scans give it over
the active lanes up to the lane itself, and below it.
R415, R397: the float reductions run the tree and the scans the steps of the rule, with the identity of the code in
inactive lanes and RNE at each step; a NaN result is the canonical one. -/
def Obligations.ReductionsAndScans : Prop :=
  (
    ∀ (p : Pfx) (d a : BitVec 8) (c : BitVec 4), c.toNat < 8 →
      let op : Lane → Lane → Lane := fun x y =>
        if c = 0 then x + y else if c = 1 then (if x.toInt ≤ y.toInt then x else y)
        else if c = 2 then (if y.toInt ≤ x.toInt then x else y) else if c = 3 then (if x.toNat ≤ y.toNat then x else y)
        else if c = 4 then (if y.toNat ≤ x.toNat then x else y) else if c = 5 then x &&& y else if c = 6 then x ||| y else x ^^^ y
      let unit : Lane := if c = 1 then 0x7FFFFFFF else if c = 2 then 0x80000000 else if c = 3 ∨ c = 5 then 0xFFFFFFFF else 0
      let folded := fun (g : Grp) (m : LaneMask) (n : Nat) =>
        (((List.range n).filter fun j => m.getLsbD j).map (g.vget a.toNat)).foldl op unit
      LaneGives (.lred p d a c) p.mask d.toNat (fun g m _ => folded g m 64) ∧
      LaneGives (.scan p d a c) p.mask d.toNat (fun g m l => folded g m (l + 1)) ∧
      LaneGives (.scanEx p d a c) p.mask d.toNat (fun g m l => folded g m l)) ∧
  (
    ∀ (p : Pfx) (d a : BitVec 8) (c : BitVec 4), 8 ≤ c.toNat → c.toNat ≤ 10 →
      let f := fmtOf p.ty
      let op := fun (x y : Nat) => if c = 8 then f.fadd 0 x y else if c = 9 then f.fmin x y else f.fmax x y
      let unit := if c = 8 then f.sign else if c = 9 then f.inf else f.sign + f.inf
      let start : Grp → LaneMask → Nat → Nat := fun g m l => if m.getLsbD l then f.of (g.vget a.toNat l) else unit
      let tree : (Nat → Nat) → Nat → Nat → Nat := fun x n => n.rec x fun k y l =>
        if l % 2 ^ (k + 1) = 0 then op (y l) (y (l + 2 ^ k)) else y l
      let steps : (Nat → Nat) → Nat → Nat → Nat := fun x n => n.rec x fun k y l => if 2 ^ k ≤ l then op (y (l - 2 ^ k)) (y l) else y l
      let out := fun (x : Nat) => BitVec.ofNat 32 (if (f.dec x).isNan then f.nan else x)
      LaneGives (.lred p d a c) p.mask d.toNat (fun g m _ => out (tree (start g m) 6 0)) ∧
      LaneGives (.scan p d a c) p.mask d.toNat (fun g m l => out (steps (start g m) 6 l)) ∧
      LaneGives (.scanEx p d a c) p.mask d.toNat (fun g m l => if l = 0 then out unit else out (steps (start g m) 6 (l - 1))))

/-! ### Uniform instructions and control -/

/-- R365, R366: a uniform word writes the 64-bit value of the rule's table into s[d] (p[d] in pilot code): the two-address
forms read x from s[d] and y from s[a], `ssel` tests s[aux], immediates are signed but for shift counts. Nothing else changes.
R365, R366, R323: the uniform words with an immediate: 9 bits, or 32 with a prefix, widened signed; a shift count
unsigned. -/
def Obligations.UniformResults : Prop :=
  (
    ∀ (p : Pfx) (d a b : BitVec 8) (c : BitVec 4),
      let three := fun (i : Instr) (f : U64 → U64 → U64) => UniGives i d.toNat fun g => f (g.sget a.toNat) (g.sget b.toNat)
      let two := fun (i : Instr) (f : U64 → U64 → U64) => UniGives i d.toNat fun g => f (g.sget d.toNat) (g.sget a.toNat)
      three (.sadd p d a b) (fun x y => BitVec.ofNat 64 (x.toNat + y.toNat)) ∧
      three (.ssub p d a b) (fun x y => BitVec.ofInt 64 (x.toNat - y.toNat)) ∧
      three (.smul p d a b) (fun x y => BitVec.ofNat 64 (x.toNat * y.toNat)) ∧
      three (.smulh p d a b) (fun x y => BitVec.ofInt 64 (x.toInt * y.toInt / 2 ^ 64)) ∧
      three (.sand p d a b) (fun x y => x &&& y) ∧
      three (.sor p d a b) (fun x y => x ||| y) ∧
      three (.sxor p d a b) (fun x y => x ^^^ y) ∧
      three (.sshl p d a b) (fun x y => BitVec.ofNat 64 (x.toNat * 2 ^ (y.toNat % 64))) ∧
      two (.smov d a) (fun _ y => y) ∧
      two (.sshr d a) (fun x y => BitVec.ofNat 64 (x.toNat / 2 ^ (y.toNat % 64))) ∧
      two (.ssra d a) (fun x y => BitVec.ofInt 64 (x.toInt / 2 ^ (y.toNat % 64))) ∧
      two (.smin d a) (fun x y => if x.toInt ≤ y.toInt then x else y) ∧
      two (.smax d a) (fun x y => if y.toInt ≤ x.toInt then x else y) ∧
      two (.sminu d a) (fun x y => if x.toNat ≤ y.toNat then x else y) ∧
      two (.smaxu d a) (fun x y => if y.toNat ≤ x.toNat then x else y) ∧
      two (.scmp d a c) (fun x y => if
          (if c = 0 then x = y else if c = 1 then x ≠ y
           else if c = 2 then x.toInt < y.toInt else if c = 3 then x.toInt ≤ y.toInt
           else if c = 4 then y.toInt < x.toInt else if c = 5 then y.toInt ≤ x.toInt
           else if c = 6 then x.toNat < y.toNat else if c = 7 then x.toNat ≤ y.toNat
           else if c = 8 then y.toNat < x.toNat else y.toNat ≤ x.toNat) then 1 else 0) ∧
      UniGives (.ssel d a c) d.toNat (fun g => if g.sget c.toNat = 0 then g.sget d.toNat else g.sget a.toNat)) ∧
  (
    ∀ (p : Pfx) (d a : BitVec 8) (imm : Imm),
      let gives := fun (i : Instr) (f : U64 → U64) => UniGives i d.toNat fun g => f (g.sget a.toNat)
      let y : Int := match imm with
        | .short x => x.toInt
        | .long h x => (h ++ x : BitVec 32).toInt
      let n : Nat := match imm with
        | .short x => x.toNat % 64
        | .long _ x => x.toNat % 64
      UniGives (.sli p d imm) d.toNat (fun _ => BitVec.ofInt 64 y) ∧
      UniGives (.slui p d imm) d.toNat (fun g => BitVec.ofInt 64 (y * 2 ^ 32 + (g.sget d.toNat).toNat % 2 ^ 32)) ∧
      gives (.saddImm p d a imm) (fun x => BitVec.ofInt 64 (x.toNat + y)) ∧
      gives (.sandImm p d a imm) (fun x => x &&& BitVec.ofInt 64 y) ∧
      gives (.sshlImm p d a imm) (fun x => BitVec.ofNat 64 (x.toNat * 2 ^ n)) ∧
      gives (.sshrImm p d a imm) (fun x => BitVec.ofNat 64 (x.toNat / 2 ^ n)))

/-- R373: `rcv target` sets PEND of the issuing fragment to the target, and moves nothing else but the PC. -/
def Obligations.RcvSetsPend : Prop :=
  ∀ (p : Pfx) (o : Off) (s : State) (x : Iss), Issues (.rcv p o) 0 s x →
    Does (.rcv p o) s x fun g => g.updEntry x.p.entry fun e => { e with pend := some (x.at_ + 2 * BitVec.ofInt 64 (match o with
      | .short n => n.toInt
      | .long h n => (h ++ n : BitVec 40).toInt)) }

/-- R377: `rgn` makes its own address the region PC and raises RGNC by 1; it has no other effect. -/
def Obligations.RgnEntersARegion : Prop :=
  ∀ (s : State) (x : Iss), Issues .rgn 0 s x →
    Does .rgn s x fun g => { g with rgnPc := x.at_, rgnc := g.rgnc + 1 }

/-- R370, R371: `br`, `call` and `bc` go to their address plus twice the signed offset, `jmp` and `ret` to the address in s[a]
where it is even; `call` writes the fall-through address to its link register. Nothing else changes.
R371: a `jmp` or `ret` whose register holds an odd value traps ALIGN (cause 0x24), detail 0, with the value in FADDR.
R375, R391, R392: `nop` and the hints of no effect only go on; `prio` writes PRIO and traps in the handler slot (R394);
SPIN keeps the fragment from being ready for the next 16 clk, QWAIT the pilot for the next 1,024.
R376: `yield` clears WDCNT and enters a region at the next instruction; with PREQ set the fragment is parked at it, and
else it is not ready in the next clk.
Where a clause rests on a choice of the model, it is that of the assumption log, entry 24. -/
def Obligations.TransfersAndControlWords : Prop :=
  (
    ∀ (p : Pfx) (a : BitVec 8) (o : Off),
      let target := fun (x : Iss) => x.at_ + 2 * BitVec.ofInt 64 (match o with
        | .short n => n.toInt
        | .long h n => (h ++ n : BitVec 40).toInt)
      GoesTo (.br p o) (fun _ x => target x) ∧
      GoesTo (.bc p a o) (fun g x => if g.sget a.toNat = 0 then x.next else target x) ∧
      (∀ s x, Issues (.call p a o) 0 s x → ∃ t, exec (.call p a o) s = .next t ∧
        Wrote s t x (target x) (s.my x).vget (fun r => if r = a.toNat then x.next else (s.my x).sget r) (sget (s.my x).m)) ∧
      (∀ s x, Issues (.jmp a) 0 s x → (s.my x).sget a.toNat % 2 = 0 → ∃ t, exec (.jmp a) s = .next t ∧
        Wrote s t x ((s.my x).sget a.toNat) (s.my x).vget (s.my x).sget (sget (s.my x).m)) ∧
      (∀ s x, Issues (.ret a) 0 s x → (s.my x).sget a.toNat % 2 = 0 → ∃ t, exec (.ret a) s = .next t ∧
        Wrote s t x ((s.my x).sget a.toNat) (s.my x).vget (s.my x).sget (sget (s.my x).m))) ∧
  (
    ∀ (a : BitVec 8) (i : Instr) (s : State) (x : Iss), i = .jmp a ∨ i = .ret a → Issues i 0 s x →
      (s.my x).sget a.toNat % 2 = 1 → exec i s = .next (s.trap 0x24 0 ((s.my x).sget a.toNat).toNat)) ∧
  (
    ∀ (s : State) (x : Iss) (n : BitVec 4),
      (Issues .nop 0 s x → Does .nop s x id) ∧
      (Issues (.prio n) 0 s x →
        if x.p.unit = 16 then exec (.prio n) s = .next (s.trap 0x20 0x08) else Does (.prio n) s x fun g => { g with prio := n }) ∧
      (Issues (.hint n) 0 s x →
        if n = 1 ∧ x.inRun = false then
          Does (.hint n) s x fun g => g.updEntry x.p.entry fun e => { e with park := some (.spin (s.clk + 17) false) }
        else if n = 2 ∧ x.p.unit = 17 then
          Does (.hint n) s x fun g => g.updEntry x.p.entry fun e => { e with park := some (.spin (s.clk + 1025) true) }
        else Does (.hint n) s x id)) ∧
  (
    ∀ (s : State) (x : Iss), Issues .yield 0 s x →
      Does .yield s x fun g =>
        ({ g with wdcnt := 0, rgnPc := x.next, rgnc := g.rgnc + 1 }).updEntry x.p.entry fun e =>
          { e with park := some (if g.preq then .yielded else .spin (s.clk + 2) false) })

/-- R123, R372: `bl` splits its fragment e as the rule's branches say: no lane jumps, all do, a sibling split, a full split into
the two lowest free entries with e waiting at A, or a serial record. With all 16 records in use it traps ILLEGAL_OP 0x02 (R125).
R125, R124: the serial step takes the pending lanes and address of the fragment's record or, when none is pending, gives
back its lanes, frees the record and goes on at SJOIN; a waiting entry that no entry names as parent becomes active, with LOSS 0. -/
def Obligations.LaneBranchAndSerialSplits : Prop :=
  (
    ∀ (p : Pfx) (m : BitVec 4) (sense : Bool) (o : Off) (s : State) (x : Iss),
      Issues (.bl p m sense o) 0 s x → (s.my x).split.length = 8 → (s.my x).serial.length = 16 →
      let g := s.my x
      let i := x.p.entry
      let e := g.entry i
      let k := if m = 0 then e.mask else sget g.m m.toNat
      let c := e.mask &&& (if sense then ~~~k else k)
      let t := x.at_ + 2 * BitVec.ofInt 64 (match o with
        | .short n => n.toInt
        | .long h n => (h ++ n : BitVec 40).toInt)
      let a := if e.pend.isSome then e.pend else e.join
      let free := (List.range 8).filter fun j => (g.entry j).st == .free
      let sibling := a = e.join ∧ e.srec = none
      let new : LaneMask → U64 → Option Nat → Entry := fun lanes pc parent =>
        { st := .active, mask := lanes, pc := pc, join := a, pend := none, parent := parent, srec := none, loss := 0, park := none }
      let leaves := Turns (.bl p m sense o) s x.p
      (c = 0 → leaves (g.updEntry i fun e => { e with pend := none, pc := x.next })) ∧
      (c ≠ 0 → c = e.mask → leaves (g.updEntry i fun e => { e with pend := none, pc := t })) ∧
      (c ≠ 0 → c ≠ e.mask → sibling → ∀ f rest, free = f :: rest →
        leaves ((g.updEntry i fun e => { e with pend := none, mask := e.mask &&& ~~~c, pc := x.next }).updEntry f
          fun _ => new c t e.parent)) ∧
      (c ≠ 0 → c ≠ e.mask → ¬ sibling → ∀ f y rest, free = f :: y :: rest →
        leaves (((g.updEntry i fun e => { e with pend := none, st := .waiting, pc := a.getD 0 }).updEntry f
          fun _ => new c t (some i)).updEntry y fun _ => new (e.mask &&& ~~~c) x.next (some i))) ∧
      (c ≠ 0 → c ≠ e.mask → (free = [] ∨ ¬ sibling ∧ free.length = 1) →
        (∀ j, j < 16 → (g.serial.getD j Serial.none).used = false → (∀ l, l < j → (g.serial.getD l Serial.none).used = true) →
          leaves ((g.updSerial j fun _ => ⟨true, i, e.mask, e.mask &&& ~~~c, x.next, a, e.srec⟩).updEntry i
            fun e => { e with pend := none, srec := some j, mask := c, pc := t })) ∧
        ((∀ j, j < 16 → (g.serial.getD j Serial.none).used = true) → exec (.bl p m sense o) s = .next (s.trap 0x20 0x02)))) ∧
  (
    ∀ (s : State) (u unit i j : Nat),
      let g := s.grp u unit
      let e := g.entry i
      let r := g.serial.getD j Serial.none
      (e.st = .active → e.srec = some j → (e.mask = 0 ∨ r.sjoin = some e.pc) →
        (r.pmask ≠ 0 →
          Turns (.serialStep u unit i) s ⟨u, unit, i⟩
            ((g.updEntry i fun e => { e with mask := r.pmask, pc := r.ppc }).updSerial j fun r => { r with pmask := 0 })) ∧
        (r.pmask = 0 → r.smask ≠ 0 →
          Turns (.serialStep u unit i) s ⟨u, unit, i⟩ (
            (g.updSerial j fun _ => Serial.none).updEntry i fun e =>
              { e with mask := r.smask, srec := r.link, pc := r.sjoin.getD e.pc }))) ∧
      (e.st = .waiting → (∀ k, k < g.split.length → (g.entry k).st = .free ∨ (g.entry k).parent ≠ some i) →
        e.mask ≠ 0 ∨ e.srec ≠ none →
        Turns (.waitingEntryActivation u unit i) s ⟨u, unit, i⟩ (
          g.updEntry i fun e => { e with st := .active, loss := 0, park := none })))

/-- R375, R126, R138, R304: `exit` takes the fragment's lanes from every entry and serial record; a group whose last lanes exit
is gone once its counters are 0, and parks until then. In pilot code the pilot ends; in the handler the trapped unit does, once
the counters of both are 0.
R361, R327, R99, R380, R175: a word that is no instruction traps ILLEGAL_OP 0x00, a prefix without its word in a run
RUN_VIOLATION 0x00; a group whose WDCNT has reached WDOG traps WATCHDOG; a fragment whose wait is over goes on at its instruction.
Where a clause rests on a choice of the model, it is that of the assumption log, entry 25. -/
def Obligations.ExitAndControlEvents : Prop :=
  (
    ∀ (s : State) (x : Iss), Issues .exit 0 s x →
      let g := s.my x
      let e := g.entry x.p.entry
      (x.p.unit < 16 → g.split.length = 8 →
        ((∃ k, k ≠ x.p.entry ∧ (g.entry k).st ≠ .free ∧ (g.entry k).mask &&& ~~~e.mask ≠ 0) →
          ∃ h, Turns .exit s x.p h ∧ (e.srec = none → (h.entry x.p.entry).st = .free) ∧
            (∀ k, (h.entry k).mask = (g.entry k).mask &&& ~~~e.mask ∧
              ((h.entry k).st = .free ∨ h.entry k = { g.entry k with mask := (h.entry k).mask })) ∧
            h.serial = g.serial.map (fun r => { r with smask := r.smask &&& ~~~e.mask, pmask := r.pmask &&& ~~~e.mask }) ∧
            { h with split := g.split, serial := g.serial } = g) ∧
        (e.mask = g.lanes → s.idle x.p.team x.p.unit = false →
          Turns .exit s x.p (g.updEntry x.p.entry fun e => { e with park := some (.counters 0 0 0 0 0 false) })) ∧
        (e.mask = g.lanes → s.idle x.p.team x.p.unit = true → e.srec = none →
          (∀ k, k ≠ x.p.entry → (g.entry k).st = .free) →
          ∃ t, exec .exit s = .next t ∧ (t.my x).st = .gone)) ∧
      (x.p.unit = 17 → exec .exit s = .next (s.updTeam x.p.team fun t =>
        { t with pexit := true, pilot := { t.pilot with st := .gone } })) ∧
      (x.p.unit = 16 → ∀ tr, s.inTrap x.p.team = some tr → tr.unit < 16 → s.idle x.p.team 16 = true →
        s.idle x.p.team tr.unit = true → ∃ t, exec .exit s = .next t ∧ (t.grp x.p.team tr.unit).st = .gone)) ∧
  (
    ∀ (s : State) (u unit i : Nat),
      exec (.unassignedEncoding .pfxBeforeRend) s = .next (s.trap 0x22 0x00) ∧
      (∀ why, why ≠ .pfxBeforeRend → exec (.unassignedEncoding why) s = .next (s.trap 0x20 0x00)) ∧
      (let g := s.grp u unit
       g.st = .live → g.run = none → g.wdog ≠ 0 → g.wdog.toNat ≤ g.wdcnt →
       ∀ e, e < 8 → (g.entry e).st = .active → (∀ k, k < e → (g.entry k).st ≠ .active) →
         ∃ info, exec (.watchdog u unit) s = .next (s.takeTrap ⟨u, unit, e⟩ info) ∧ info.cause = 0x25 ∧ info.detail = 0 ∧
           info.fpc = (g.entry e).pc ∧ info.resume = (g.entry e).pc) ∧
      Turns (.takeWake u unit i) s ⟨u, unit, i⟩ ((s.grp u unit).updEntry i fun e => { e with park := none }) ∧
      Turns (.counterWaitEnd u unit i) s ⟨u, unit, i⟩ ((s.grp u unit).updEntry i fun e => { e with park := none }))

/-- R129, R379, R130: `run` opens a run with w0-w7 at 0 and goes on; `rend` with a legal trailer closes it, once no result of the
run is owed that the trailer does not name; a `rend` outside a run, after no body word or with a bad trailer (more than 8 registers,
a w register, a padding byte that is not 0xFF) traps RUN_VIOLATION, one that names a register beyond the share ILLEGAL_OP 0x01.
R380, R136: `take q` removes the oldest takeable run of queue q and executes it under the fragment's mask with w0-w7 at 0,
its PC staying; on an empty queue the group parks while the pilot is live, and else TAKEST.DRAIN is set and a region entered.
Where a clause rests on a choice of the model, it is that of the assumption log, entries 25, 27. -/
def Obligations.RunsAndTake : Prop :=
  (
    ∀ (s : State) (x : Iss) (n : BitVec 4) (a b : BitVec 32),
      (Issues .run 0 s x → ∃ r, Turns .run s x.p { (s.my x).advanced x.p.entry x.words x.next with run := some r } ∧
        r.emitted = none ∧ r.entry = x.p.entry ∧ r.idx = 0 ∧ r.w = [] ∧ r.point = 0) ∧
      (Issues (.rend n a b) 0 s x →
        let bytes := (trailerBytes n.toNat a b)
        let vregs := match s.team? x.p.team with
          | some t => if x.p.unit = 16 then 64 else t.vregs
          | none => 0
        ((s.my x).run = none → exec (.rend n a b) s = .next (s.trap 0x22 0)) ∧
        ∀ r, (s.my x).run = some r →
          (r.idx = 0 → exec (.rend n a b) s = .next (s.trap 0x22 1)) ∧
          (r.idx ≠ 0 → 8 < n.toNat ∨ (∃ j, j < n.toNat ∧ 248 ≤ bytes.getD j 0) ∨ (∃ j, n.toNat ≤ j ∧ bytes.getD j 255 ≠ 255) →
            exec (.rend n a b) s = .next (s.trap 0x22 2)) ∧
          (r.idx ≠ 0 → n.toNat ≤ 8 → (∀ j, j < n.toNat → bytes.getD j 255 < 248) → (∀ j, n.toNat ≤ j → bytes.getD j 255 = 255) →
            (∃ j, j < n.toNat ∧ vregs ≤ bytes.getD j 255) → exec (.rend n a b) s = .next (s.trap 0x20 1)) ∧
          (r.idx ≠ 0 → n.toNat ≤ 8 → (∀ j, j < n.toNat → bytes.getD j 255 < min vregs 248) →
            (∀ j, n.toNat ≤ j → bytes.getD j 255 = 255) →
            if s.owesBeyond x.p.team x.p.unit r.born (bytes.take n.toNat) then exec (.rend n a b) s = .next s
            else ∃ h, Turns (.rend n a b) s x.p h ∧ h.run = none ∧ (h.entry x.p.entry).pc = x.next ∧
              { h with run := some r, split := (s.my x).split, rgnPc := (s.my x).rgnPc } = s.my x))) ∧
  (
    ∀ (q : BitVec 4) (s : State) (x : Iss) (t : Team), Issues (.take q) 0 s x → s.team? x.p.team = some t →
      (∀ r rest, s.takeable t q.toNat = r :: rest → ∃ c,
        exec (.take q) s = .next ((s.updTeam x.p.team (·.takeRun q.toNat s.clk)).upd x fun g => { g with run := some c }) ∧
          c.emitted = some r ∧ c.entry = x.p.entry ∧ c.idx = 0 ∧ c.w = []) ∧
      (t.queues.getD q.toNat [] = [] → t.pexit = true → Does (.take q) s x fun g =>
        { g with drain := true, rgnPc := x.next, rgnc := g.rgnc + 1 }) ∧
      (s.takeable t q.toNat = [] → t.pexit = false → Turns (.take q) s x.p
        ((s.my x).updEntry x.p.entry fun e => { e with park := some (.take q.toNat) })))

/-- R389, R394: `csrr` writes the register's value to s[d] and goes on: in a group its own G registers and its team's T
registers, in the handler slot the fault registers, the T registers and the G registers of the trapped group, PRIO reading 15. An
unassigned number, a fault register in a group, or a G register in pilot code or in a pilot's handler traps ILLEGAL_OP 0x08.
R390: in a group `csrw` writes PRIO and WDOG, and clears TAKEST.DRAIN and TWST.NOTAG by a written 1; every other number, and
every number in pilot code, traps ILLEGAL_OP 0x08.
R394: in the handler slot a `csrw` of TAKEST or TWST clears the bit in the trapped group's image by a written 1 and changes nothing
by a written 0; any other number traps ILLEGAL_OP 0x08.
Where a clause rests on a choice of the model, it is that of the assumption log, entry 30. -/
def Obligations.StatusRegisters : Prop :=
  (
    ∀ (d a : BitVec 8) (c : BitVec 4) (s : State) (x : Iss) (t : Team) (l : Launch),
      Issues (.csrr d a c) 0 s x → s.team? x.p.team = some t → s.launchOf x.p.team = some l →
      let n := a.toNat + 256 * c.toNat
      let g := s.my x
      let gives := fun (v : U64) => ∃ t', exec (.csrr d a c) s = .next t' ∧ Wrote s t' x x.next g.vget
        (fun r => if r = d.toNat then v else g.sget r) (sget g.m)
      let num := fun (k v : Nat) => n = k → gives (BitVec.ofNat 64 v)
      (x.p.unit < 16 →
        num 0x00 64 ∧ num 0x01 x.p.unit ∧ num 0x08 g.prio.toNat ∧ num 0x09 g.wdog.toNat ∧ num 0x0A g.wdcnt ∧
        num 0x0B (if g.preq then 1 else 0) ∧ num 0x0D g.rgnc.toNat ∧ num 0x0E (g.splitReg x.p.entry) ∧
        num 0x0F (if g.drain then 1 else 0) ∧ num 0x16 (if g.notag then 1 else 0)) ∧
      num 0x02 t.tid ∧ num 0x03 (l.lr.tcoord t.tid) ∧ num 0x04 t.cluster ∧ num 0x05 (t.clpos l.lr) ∧ num 0x06 t.core ∧
      num 0x07 l.ctx ∧ num 0x0C l.lr.deadline ∧ num 0x10 t.eqstat ∧ num 0x11 t.pseq.toNat ∧ num 0x12 t.partw.toNat ∧
      num 0x13 (twrev s.ring.t t.core) ∧ num 0x14 Config.cap0.toNat ∧ num 0x15 Config.cap1.toNat ∧
      (x.p.unit = 16 →
        num 0x40 t.fregs.fcause.toNat ∧ num 0x41 t.fregs.fpc.toNat ∧ num 0x42 t.fregs.faddr.toNat ∧
        num 0x43 t.fregs.flanes.toNat ∧ num 0x44 t.fregs.fprov.toNat ∧ num 0x45 t.fregs.fepc.toNat ∧
        num 0x46 t.fregs.frop.toNat ∧ num 0x47 t.fregs.fimg.toNat ∧ num 0x48 t.fregs.frgn.toNat ∧
        ∀ tr, t.inTrap = some tr →
          let h := t.grp tr.unit
          if tr.unit = 17 then (n < 2 ∨ 8 ≤ n ∧ n < 12 ∨ 13 ≤ n ∧ n < 16 ∨ n = 0x16 → exec (.csrr d a c) s = .next (s.trap 0x20 0x08))
          else num 0x00 64 ∧ num 0x01 tr.unit ∧ num 0x08 15 ∧ num 0x09 h.wdog.toNat ∧ num 0x0A h.wdcnt ∧
            num 0x0B (if tr.preq then 1 else 0) ∧ num 0x0D h.rgnc.toNat ∧ num 0x0E (h.splitReg tr.entry) ∧
            num 0x0F (if h.drain then 1 else 0) ∧ num 0x16 (if tr.notag then 1 else 0)) ∧
      (0x17 ≤ n ∧ n < 0x40 ∨ 0x49 ≤ n ∨ 0x40 ≤ n ∧ n < 0x60 ∧ x.p.unit ≠ 16 ∨
          x.p.unit = 17 ∧ (n < 2 ∨ 8 ≤ n ∧ n < 12 ∨ 13 ≤ n ∧ n < 16 ∨ n = 0x16) →
        exec (.csrr d a c) s = .next (s.trap 0x20 0x08))) ∧
  (
    ∀ (d a : BitVec 8) (c : BitVec 4) (s : State) (x : Iss), Issues (.csrw d a c) 0 s x →
      let n := a.toNat + 256 * c.toNat
      let v := (s.my x).sget d.toNat
      let does := Does (.csrw d a c) s x
      (x.p.unit < 16 →
        (n = 0x08 → does fun g => { g with prio := BitVec.ofNat 4 v.toNat }) ∧
        (n = 0x09 → does fun g => { g with wdog := BitVec.ofNat 32 v.toNat }) ∧
        (n = 0x0F → does fun g => { g with drain := g.drain && v.toNat % 2 == 0 }) ∧
        (n = 0x16 → does fun g => { g with notag := g.notag && v.toNat % 2 == 0 })) ∧
      (x.p.unit = 17 ∨ x.p.unit < 16 ∧ n ≠ 0x08 ∧ n ≠ 0x09 ∧ n ≠ 0x0F ∧ n ≠ 0x16 →
        exec (.csrw d a c) s = .next (s.trap 0x20 0x08)) ∧
      (x.p.unit = 16 → ∀ tr l, s.inTrap x.p.team = some tr → s.launchOf x.p.team = some l →
        (tr.unit = 17 ∨ n ≠ 0x0F ∧ n ≠ 0x16 → exec (.csrw d a c) s = .next (s.trap 0x20 0x08)) ∧
        (tr.unit ≠ 17 → n = 0x0F ∨ n = 0x16 →
          (v.toNat % 2 = 0 → does id) ∧
          (v.toNat % 2 = 1 → ∀ dpa, s.savePage l.ctx (tr.regs.fimg.toNat + if n = 0x0F then 0x30 else 0x38) = some dpa →
            ∃ t, exec (.csrw d a c) s = .next t ∧ t.my x = (s.my x).advanced x.p.entry x.words x.next ∧
              t.mem.homeByte (s.keyOf l.ctx) l.ctx dpa = 0))))

/-! ### Traps -/

/-- R300, R301, R307, R308: a trap of a group with a handler, no trap in progress and a place for its image stops the group
and starts the handler at TRAP_ENTRY: one fragment of every lane, PRIO 15, s0 = FIMG, s1 = FCAUSE, every other register 0; the fault
registers hold the cause and detail, the pc, the address and the lanes. R300, R315: for a group whose fields fit the image, and whose
image's pages lie in frames of their own, the memory at FIMG then holds a well-formed image of KIND 3 with RESUMEPC and TENT, which
gives back the group's split table, serial records, registers, region, batch number, PRIO, WDOG and flags.
R393, R304: `tret` reloads the trapped group from the image that FIMG names, where the image is well formed: its registers, masks,
PRIO, WDOG and region are the image's, its WDCNT is 0, its trapped fragment goes on at RESUMEPC, and it is live; with no held trap
the handler slot is empty.
Where a clause rests on a choice of the model, it is that of the assumption log, entries 28, 31, 32. -/
def Obligations.TrapEntryAndReturn : Prop :=
  (
    ∀ (s : State) (p : Party) (i : TrapInfo) (t t' : Team) (l : Launch) (tr : Trapped),
      s.team? p.team = some t → s.launchOf p.team = some l → p.unit < t.groups.length → p.unit < 16 → t.inTrap = none →
      i.cause < 256 → i.detail < 256 → i.inrun = false → i.emitted = false →
      (s.takeTrap p i).team? p.team = some t' → t'.inTrap = some tr →
      l.lr.trap ≠ 0 ∧ tr.unit = p.unit ∧ tr.entry = p.entry ∧ t'.fregs = tr.regs ∧ (t'.grp p.unit).st = .stopped ∧
      tr.regs.fcause.toNat = i.cause + i.detail * 2 ^ 8 + p.unit * 2 ^ 19 + ((lanesOf i.lanes).headD 0) * 2 ^ 28 ∧
      tr.regs.fpc = i.fpc ∧ tr.regs.faddr = BitVec.ofNat 64 i.addr ∧ tr.regs.flanes = i.lanes ∧
      tr.regs.frgn = (t.grp p.unit).rgnPc ∧
      t'.handler.st = .live ∧ t'.handler.prio = 15 ∧ (t'.handler.entry 0).pc = l.lr.trap ∧
      (t'.handler.entry 0).mask = BitVec.allOnes 64 ∧ t'.handler.v = [] ∧ t'.handler.m = [] ∧
      t'.handler.sget 0 = tr.regs.fimg ∧ t'.handler.sget 1 = tr.regs.fcause ∧ (∀ r, 2 ≤ r → t'.handler.sget r = 0) ∧
      (∃ b k, t'.index = some k ∧ ((s.takeTrap p i).launchOf p.team).bind (·.block) = some b ∧
        tr.regs.fimg = BitVec.ofNat 64 (imageBase b k + grpImageAt p.unit)) ∧
      let g := t.grp p.unit
      let at_ := tr.regs.fimg.toNat
      (g.Fits t.vregs → p.entry < 8 → i.resume % 2 = 0 →
        (∀ a b x y, at_ ≤ a → a < b → b < at_ + grpImageSize → a / 65536 ≠ b / 65536 → s.savePage l.ctx a = some x →
          s.savePage l.ctx b = some y → x / 65536 ≠ y / 65536) →
        ∃ img, (s.takeTrap p i).loadSpan l.ctx 3 at_ grpImageSize 0 = some img ∧ imageOk img p.unit t.vregs = true ∧
          imgNat img 2 1 = 3 ∧ imgNat img 4 1 = p.entry ∧ imgNat img 8 8 = i.resume.toNat ∧
          let h := Grp.none.reload img t.vregs
          h.split = g.split.map (fun e => { e with park := none }) ∧ h.serial = g.serial ∧ h.v = g.v ∧ h.s = g.s ∧ h.m = g.m ∧
          h.f = g.f ∧ h.d = g.d ∧ h.rgnPc = g.rgnPc ∧ h.rgnc = g.rgnc ∧ h.batch = g.batch ∧ h.prio = g.prio ∧ h.wdog = g.wdog ∧
          h.drain = g.drain ∧ h.notag = g.notag)) ∧
  (
    ∀ (s : State) (x : Iss) (t : Team) (l : Launch) (tr : Trapped) (img : Sparse 8),
      Issues .tret 0 s x → s.team? x.p.team = some t → s.launchOf x.p.team = some l → t.inTrap = some tr → tr.unit < t.groups.length →
      tr.unit < 16 → t.held = [] → t.vregs ≤ 248 → s.idle x.p.team x.p.unit = true →
      s.loadSpan l.ctx 3 tr.regs.fimg.toNat grpImageSize 0 = some img → imageOk img tr.unit t.vregs = true →
      ∃ t' g, exec .tret s = .next t' ∧ t'.team? x.p.team = some { t with
          handler := { Grp.none with st := .gone }, inTrap := none, groups := modAt t.groups tr.unit fun _ => g } ∧
        g.st = .live ∧ g.wdcnt = 0 ∧ (∀ r, r < 256 → (g.sget r).toNat = imgNat img (0x1000 + 8 * r) 8) ∧
        (∀ r j, r < t.vregs → j < 64 → (g.vget r j).toNat = imgNat img (0x2000 + 256 * r + 4 * j) 4) ∧
        (∀ k, 0 < k → k < 16 → (sget g.m k).toNat = imgNat img (0x700 + 8 * k) 8) ∧
        g.prio.toNat = imgNat img 36 1 % 16 ∧ g.wdog.toNat = imgNat img 40 4 ∧ g.rgnPc.toNat = imgNat img 16 8 ∧
        g.rgnc.toNat = imgNat img 24 8 ∧
        ∀ k, k < 8 → let e := entryFrom img k
          (g.entry k).st = e.st ∧ (g.entry k).mask = e.mask ∧ (g.entry k).join = e.join ∧ (g.entry k).pend = e.pend ∧
          (g.entry k).parent = e.parent ∧ (g.entry k).pc =
            if k = imgNat img 4 1 ∧ e.st = .active then BitVec.ofNat 64 (imgNat img 8 8) else e.pc)

/-- R362, R301: every encoded instruction whose check fails traps with the cause and detail of the first check that fails, and has no
other effect. R362, R10, R9: an instruction barred from runs traps RUN_VIOLATION 0x00 there and one that reaches past 24 body words
0x01; a lane word in pilot code traps ILLEGAL_OP 0x09, a w register outside a run 0x0A, mask register 0 as a destination 0x0B, a
vector register outside the team's share 0x01, each before the next; a barrier in the handler slot traps 0x00 (R434).
R378: `brk` traps BRK (cause 0x26) with its operand as detail; FPC is its address and RESUMEPC the instruction after it.
Where a clause rests on a choice of the model, it is that of the assumption log, entries 20, 21. -/
def Obligations.FailingChecksTrap : Prop :=
  (
    ∀ (s : State) (c : Issuer) (t : Team), s.cur = some c → s.issuing c = true → s.team? c.p.team = some t →
      let g := t.grp c.p.unit
      ((∀ (i : Instr) (cause detail : Nat), encode i ≠ [] →
          (sigOf i).check c.p.unit g.run.isSome g.runIdx c.words (if c.p.unit = 16 then 64 else t.vregs) t.acc = some (cause, detail) →
          exec i s = .next (s.trap cause detail)) ∧
       (∀ (p : Pfx) (d a b : BitVec 8), c.p.unit = 17 → exec (.add p d a b false) s = .next (s.trap 0x20 0x09)) ∧
       (∀ (p : Pfx) (d a b : BitVec 8) (u : Bool) (r : RunCtx), g.run = some r → c.p.unit < 16 → 24 < r.idx + c.words →
          exec (.add p d a b u) s = .next (s.trap 0x22 0x01)) ∧
       (∀ (p : Pfx) (v a k : BitVec 4) (b d : BitVec 8) (u : Bool), g.run = none → c.p.unit < 16 → b.toNat < 248 → d.toNat < 248 →
          ∀ i : Instr, i = .cmp p v 0 b d u ∨ i = .mand p 0 a k ∨ i = .mor p 0 a k ∨ i = .mxor p 0 a k ∨ i = .mnot p 0 a ∨
            i = .mmov p 0 a ∨ i = .mfirst p 0 a ∨ i = .mset p 0 b → exec i s = .next (s.trap 0x20 0x0B)) ∧
       (∀ (p : Pfx) (d a b : BitVec 8) (u : Bool), g.run = none → c.p.unit < 16 → 248 ≤ d.toNat →
          exec (.add p d a b u) s = .next (s.trap 0x20 0x0A)) ∧
       (∀ (p : Pfx) (d a b : BitVec 8), g.run = none → c.p.unit < 16 → t.vregs ≤ d.toNat → d.toNat < 248 → a.toNat < 248 →
          b.toNat < 248 → exec (.add p d a b false) s = .next (s.trap 0x20 0x01)) ∧
       (g.run.isSome → c.p.unit ≠ 17 → ∀ i : Instr,
          i = .exit ∨ i = .yield ∨ i = .rgn ∨ i = .run ∨ i = .bar ∨ i = .cbar → exec i s = .next (s.trap 0x22 0x00)) ∧
       (c.p.unit < 16 → g.run = none → exec .tret s = .next (s.trap 0x20 0x00)) ∧
       (c.p.unit < 16 → g.run = none → ∀ a, exec (.emit a) s = .next (s.trap 0x20 0x00)) ∧
       (c.p.unit = 16 → g.run = none → exec .bar s = .next (s.trap 0x20 0x00) ∧ exec .cbar s = .next (s.trap 0x20 0x00)))) ∧
  (
    ∀ (a : BitVec 8) (n : BitVec 4) (s : State) (x : Iss), Issues (.brk a n) 0 s x → ∃ info,
      exec (.brk a n) s = .next (s.takeTrap x.p info) ∧ info.cause = 0x26 ∧ info.detail = a.toNat ∧ info.fpc = x.at_ ∧
        info.resume = x.next ∧ info.addr = 0 ∧ info.lanes = 0 ∧ info.inrun = false ∧ info.frop = 0)

/-! ### Memory -/

/-- R325, R330, R421: the address of lane i is s[base] + v[a][i], zero- or sign-extended, scaled by the access size where the
word says so, + the displacement of the prefix, modulo 2^64.
R145, R146, R421: `lds` and `sts` with addresses that R146 allows and a base register below 2^32 issue a load, or a store that
carries the lanes' bytes and no others to the scratchpads, where two lanes meet the higher one's (R167);
a lane that R146 bars traps ALIGN 0x00 or 0x01; a high base traps ALIGN 0x01.
R146: a local scratchpad access stays inside the team's share, is aligned and leads to the team's own scratchpad; every other
local address is barred, with detail 0x00 for the alignment and 0x01 for the bound.
Where a clause rests on a choice of the model, it is that of the assumption log, entries 21, 23, 36. -/
def Obligations.AddressesAndScratchpad : Prop :=
  (
    ∀ (g : Grp) (m : MemArg) (i : Nat),
      g.addrOf m i = (((g.sget m.base.toNat).toNat : Int) +
        (if m.sx then (g.vget m.a.toNat i).toInt else ((g.vget m.a.toNat i).toNat : Int)) * (if m.scale then 2 ^ m.size.toNat else 1) +
        (match m.disp with
          | some d => d.toInt
          | none => 0)) % 2 ^ 64) ∧
  (
    ∀ (p : Pfx) (m : MemArg) (s : State) (x : Iss) (st : Bool),
      let i : Instr := if st then .sts p m else .lds p m
      Issues i p.mask s x → x.mask ≠ 0 → Fresh s →
      let n := 2 ^ m.size.toNat
      let g := s.my x
      let lanes := (lanesOf x.mask).map fun l => (l, g.addrOf m l % 2 ^ 32)
      let byte := fun (l j : Nat) => BitVec.ofNat 8 (if j < 4 then (g.vget m.d.toNat l).toNat / 256 ^ j
        else (g.vget (m.d.toNat + 1) l).toNat / 256 ^ (j - 4))
      ((∀ l ∈ lanes, ∃ u o, s.spadAt x.p.team l.2 n = .at_ u o) → (g.sget m.base.toNat).toNat < 2 ^ 32 →
        ∃ t q, exec i s = .next t ∧ q ∈ t.pends ∧ q.tag = s.nextId ∧
          (if st then q.cls = .store else q.cls = .load ∧ q.act = .lanes m.d.toNat n ∧ q.lanes = lanes) ∧
          (∀ l ∈ lanes, ∀ u o, s.spadAt x.p.team l.2 n = .at_ u o → ∃ r ∈ t.reqs, r.tag = q.tag ∧
            (if st then r.tgt = .spad u 0 ∧ ∃ bs, r.kind = .write bs ∧
              ((∀ k ∈ lanes, l.1 < k.1 → s.spadAt x.p.team k.2 n ≠ .at_ u o) →
                ∀ j, j < n → ∀ b, (o + j, b) ∈ bs ↔ b = byte l.1 j)
             else r.tgt = .spad u o ∧ r.va = l.2 ∧ r.n = n)) ∧
          (∀ r ∈ t.reqs, r.tag = q.tag → ∀ bs e, r.kind = .write bs → e ∈ bs →
            ∃ l ∈ lanes, ∃ u o, s.spadAt x.p.team l.2 n = .at_ u o ∧ r.tgt = .spad u 0 ∧ o ≤ e.1 ∧ e.1 < o + n) ∧
          t.my x = g.advanced x.p.entry x.words x.next ∧ t.teams.map Team.spad = s.teams.map Team.spad ∧ t.mem = s.mem) ∧
      (∀ l ∈ lanes, ∀ e, (∀ k ∈ lanes, k.1 < l.1 → ∃ u o, s.spadAt x.p.team k.2 n = .at_ u o) →
        s.spadAt x.p.team l.2 n = .bad e → ∃ mask, exec i s = .next (s.trap 0x24 e l.2 mask)) ∧
      ((∀ l ∈ lanes, ∃ u o, s.spadAt x.p.team l.2 n = .at_ u o) → 2 ^ 32 ≤ (g.sget m.base.toNat).toNat →
        exec i s = .next (s.trap 0x24 0x01 0 x.mask))) ∧
  (
    ∀ (s : State) (t : Team) (u a n : Nat), s.team? u = some t → 0 < n → n ≤ 8 → a < 2 ^ 31 →
      (a % 2 ^ 20 % n = 0 → a < 2 ^ 20 → a + n ≤ t.spadBytes → s.spadAt u a n = .at_ u a) ∧
      (a % 2 ^ 20 % n ≠ 0 → s.spadAt u a n = .bad 0) ∧
      (a % 2 ^ 20 % n = 0 → 2 ^ 20 ≤ a ∨ t.spadBytes < a + n → s.spadAt u a n = .bad 1))

/-- R421, R174: `ld`, `ldc` and `sld` whose addresses are aligned and translate issue: an instruction of the load class is
outstanding with each lane's address, each byte it wants is there already (L1) or in a 32-byte sector that a request of its own
asks for, by its address or a further one (R231), and the party goes on; no register and no byte of memory changes. A misaligned lane traps ALIGN 0x00 with every such lane.
R423: `prf` and `inv` write no register and no memory, never trap and go on; `inv` leaves no valid word of the lanes' lines
in the core's L1 for the issuing context, and every other word as it was.
Where a clause rests on a choice of the model, it is that of the assumption log, entries 37, 40, 42. -/
def Obligations.LoadsIssue : Prop :=
  (
    (∀ (p : Pfx) (m : MemArg) (i : Instr) (s : State) (x : Iss), i = .ld p m ∨ i = .ldc p m → Issues i p.mask s x → x.mask ≠ 0 → Fresh s →
      let n := 2 ^ m.size.toNat
      let lanes := (lanesOf x.mask).map fun l => (l, (s.my x).addrOf m l)
      ((∀ l ∈ lanes, l.2 % n = 0) →
        ∀ w, s.launchOf x.p.team = some w → (∀ l ∈ lanes, ∃ tgt,
          (lanes.foldl (fun s e => s.warm w e.2) s).translateFor x.p.team x.p.unit l.2 false = .ok tgt) →
        ∃ t q, exec i s = .next t ∧ q ∈ t.pends ∧ q.tag = s.nextId ∧ q.team = x.p.team ∧ q.unit = x.p.unit ∧ q.cls = .load ∧
          q.act = .lanes m.d.toNat n ∧ q.lanes = lanes ∧
          (∀ l ∈ lanes, ∀ j, j < n → sget q.got (l.2 + j) ≠ 0 ∨
            ∃ r ∈ t.reqs, r.tag = q.tag ∧ ∃ secs, (r.kind = .fill secs ∨ r.kind = .read secs) ∧
              ∃ a, (a = r.va ∨ a ∈ r.also) ∧ ∃ o ∈ secs, a + o ≤ l.2 + j ∧ l.2 + j < a + o + 32) ∧
          t.my x = (s.my x).advanced x.p.entry x.words x.next ∧ t.mem = s.mem ∧ Fresh t) ∧
      (∀ l, lanes.find? (fun e => e.2 % n != 0) = some l → exec i s = .next (s.trap 0x24 0x00 l.2
        (maskOf ((lanes.filter fun e => e.2 % n != 0).map (·.1)))))) ∧
    (∀ (p : Pfx) (d a : BitVec 8) (imm : Imm) (s : State) (x : Iss) (w : Launch) (tgt : Tgt), Issues (.sld p d a imm) 0 s x → Fresh s →
      let at_ := ((s.my x).sget a.toNat + Imm.uniform imm true).toNat
      (at_ % 8 = 0 → s.launchOf x.p.team = some w → (s.warm w at_).translateFor x.p.team x.p.unit at_ false = .ok tgt →
        ∃ t q, exec (.sld p d a imm) s = .next t ∧ q ∈ t.pends ∧ q.tag = s.nextId ∧ q.cls = .load ∧ q.act = .uniform d.toNat ∧
          q.lanes.map (·.2) = [at_] ∧ t.mem = s.mem ∧ (t.my x).s = (s.my x).s ∧ ((t.my x).entry x.p.entry).park =
            (if x.p.unit = 17 then some (.read s.nextId) else none)) ∧
      (at_ % 8 ≠ 0 → exec (.sld p d a imm) s = .next (s.trap 0x24 0x00 at_)))) ∧
  (
    ∀ (p : Pfx) (m : MemArg) (s : State) (x : Iss),
      (Issues (.prf p m) p.mask s x → ∃ t, exec (.prf p m) s = .next t ∧ t.mem = s.mem ∧
        t.my x = (s.my x).advanced x.p.entry x.words x.next ∧ t.core (s.coreOf x.p.team) = s.core (s.coreOf x.p.team)) ∧
      (Issues (.inv p m) p.mask s x → ∃ t, exec (.inv p m) s = .next t ∧ t.mem = s.mem ∧
        t.my x = (s.my x).advanced x.p.entry x.words x.next ∧
        ∀ c, s.coreOf x.p.team = c → ∀ w, (t.core c).l1Word w =
          if ∃ l ∈ lanesOf x.mask, (s.my x).addrOf m l < 2 ^ 56 ∧ l1Key (s.ctxOf x.p.team) ((s.my x).addrOf m l) / 32 = w / 32
          then none else (s.core c).l1Word w))

/-- R421, R167, R151, R174: `st`, `stc` and `sst` whose addresses are aligned and translate issue: a store is outstanding, and for
each byte of each active lane, unless a higher lane covers it, by its own address or by another of the same place, a request
carries that byte of v[d] (and v[d+1]) or s[d] to its
address; requests carry no other byte. At issue memory is unchanged and no register changes. -/
def Obligations.StoresIssue : Prop :=
  (∀ (p : Pfx) (m : MemArg) (i : Instr) (s : State) (x : Iss), i = .st p m ∨ i = .stc p m → Issues i p.mask s x → x.mask ≠ 0 → Fresh s →
    let n := 2 ^ m.size.toNat
    let g := s.my x
    let lanes := (lanesOf x.mask).map fun l => (l, g.addrOf m l)
    let byte := fun (l j : Nat) => BitVec.ofNat 8 (if j < 4 then (g.vget m.d.toNat l).toNat / 256 ^ j
      else (g.vget (m.d.toNat + 1) l).toNat / 256 ^ (j - 4))
    ((∀ l ∈ lanes, l.2 % n = 0) →
      ∀ w (tgt : Nat → Tgt), s.launchOf x.p.team = some w → (∀ l ∈ lanes,
        (lanes.foldl (fun s e => s.warm w e.2) s).translateFor x.p.team x.p.unit l.2 true = .ok (tgt l.1)) →
      ∃ t q, exec i s = .next t ∧ q ∈ t.pends ∧ q.tag = s.nextId ∧ q.cls = .store ∧ q.act = .stores ∧ q.lanes = lanes ∧
        (∀ l ∈ lanes, ∀ j, j < n → (∀ k ∈ lanes, l.1 < k.1 → ¬ (k.2 ≤ l.2 + j ∧ l.2 + j < k.2 + n) ∧
            crossed n (l.1, l.2, tgt l.1) (k.1, k.2, tgt k.1) = false) →
          ∃ r ∈ t.reqs, r.tag = q.tag ∧ ∃ bs o, r.kind = .write bs ∧ (o, byte l.1 j) ∈ bs ∧ r.va + o = l.2 + j) ∧
        (∀ r ∈ t.reqs, r.tag = q.tag → ∀ bs e, r.kind = .write bs → e ∈ bs →
          ∃ l ∈ lanes, l.2 ≤ r.va + e.1 ∧ r.va + e.1 < l.2 + n) ∧
        t.my x = g.advanced x.p.entry x.words x.next ∧ t.mem = s.mem ∧ Fresh t) ∧
    (∀ l, lanes.find? (fun e => e.2 % n != 0) = some l → exec i s = .next (s.trap 0x24 0x00 l.2
      (maskOf ((lanes.filter fun e => e.2 % n != 0).map (·.1)))))) ∧
  (∀ (p : Pfx) (d a : BitVec 8) (imm : Imm) (s : State) (x : Iss) (w : Launch) (dpa : Nat) (uam cmb : Bool),
    Issues (.sst p d a imm) 0 s x → Fresh s →
    let at_ := ((s.my x).sget a.toNat + Imm.uniform imm true).toNat
    (at_ % 8 = 0 → s.launchOf x.p.team = some w →
      (s.warm w at_).translateFor x.p.team x.p.unit at_ true = .ok (.home dpa uam cmb) → dpa % 128 = at_ % 128 →
      ∃ t r, exec (.sst p d a imm) s = .next t ∧ r ∈ t.reqs ∧ r.tag = s.nextId ∧ r.va = at_ / 128 * 128 ∧
        r.tgt = .home (dpa / 128 * 128) uam cmb ∧ (∃ bs, r.kind = .write bs ∧ ∀ o b, (o, b) ∈ bs ↔
          ∃ j, j < 8 ∧ o = at_ % 128 + j ∧ b = BitVec.ofNat 8 (((s.my x).sget d.toNat).toNat / 256 ^ j)) ∧
        t.mem = s.mem ∧ (t.my x).s = (s.my x).s) ∧
    (at_ % 8 ≠ 0 → exec (.sst p d a imm) s = .next (s.trap 0x24 0x00 at_)))

/-- R165, R421, R174: LOAD_COMPLETION writes each lane's value, little-endian and zero-extended, into v[d] (v[d] and v[d+1] for
8 bytes; s[d] for `sld`), wakes who waits and drops the instruction; no memory and no other register changes.
R152, R423: a merging fill that returns leaves every valid word of the L1 as it was, and makes the words of its sectors valid
that were invalid and that no clear has touched; its load is complete with the last request.
R165, R174: STORE_PERFORMED ends the request; with the last request of a store the instruction is complete.
Where a clause rests on a choice of the model, it is that of the assumption log, entries 38, 40. -/
def Obligations.LoadsAndStoresComplete : Prop :=
  (
    ∀ (s : State) (q : Pend) (d : Nat),
      s.pends.find? (fun p => p.tag == q.tag) = some q → (∀ r ∈ s.reqs, r.tag ≠ q.tag) →
      (∃ n, q.act = .lanes d n) ∨ q.act = .uniform d → s.trapImage q.team q.unit = none → (s.grp q.team q.unit).st = .live →
      ∃ t, exec (.loadCompletion q.tag) s = .next t ∧ t.mem = s.mem ∧ (∀ p ∈ t.pends, p.tag ≠ q.tag) ∧
        (∀ n, q.act = .lanes d n → (n = 1 ∨ n = 2 ∨ n = 4 ∨ n = 8) → d + 1 < 248 → (q.lanes.map (·.1)).Nodup →
          (∀ l ∈ q.lanes, l.1 < 64) →
          (∀ r l, l < 64 → r ≠ d → (n = 8 → r ≠ d + 1) → (t.grp q.team q.unit).vget r l = (s.grp q.team q.unit).vget r l) ∧
          (∀ l, l < 64 → (∀ a, (l, a) ∉ q.lanes) → (t.grp q.team q.unit).vget d l = (s.grp q.team q.unit).vget d l) ∧
          (∀ l a, (l, a) ∈ q.lanes →
            ((t.grp q.team q.unit).vget d l).toNat = leNat (getBytes q.got a n) % 2 ^ 32 ∧
            (n = 8 → ((t.grp q.team q.unit).vget (d + 1) l).toNat = leNat (getBytes q.got a 8) / 2 ^ 32)) ∧
          (t.grp q.team q.unit).s = (s.grp q.team q.unit).s) ∧
        (q.act = .uniform d → ∀ a, q.lanes.map (·.2) = [a] →
          (t.grp q.team q.unit).sget d = BitVec.ofNat 64 (leNat (getBytes q.got a 8)) ∧
          (∀ r, r ≠ d → (t.grp q.team q.unit).sget r = (s.grp q.team q.unit).sget r) ∧
          (t.grp q.team q.unit).v = (s.grp q.team q.unit).v)) ∧
  (
    ∀ (s : State) (r : Req) (secs : List Nat), s.reqs.find? (fun q => q.id == r.id) = some r → r.kind = .fill secs →
      r.phase = .served → (∀ o ∈ secs, (r.va + o) % 32 = 0 ∧ (r.va + o) / 128 = r.va / 128) → r.va < 2 ^ 56 →
      (∀ p ∈ s.pends, p.tag = r.tag → p.bad = []) →
      ∃ t, exec (.mergingFillReturn r.id) s = .next t ∧ t.mem = s.mem ∧ t.teams = s.teams ∧ (∀ q ∈ t.reqs, q.id ≠ r.id) ∧
        ∀ o ∈ secs, ∀ w, (r.va + o) / 4 ≤ w → w < (r.va + o) / 4 + 8 → (t.core r.core).l1Word (r.ctx * 2 ^ 54 + w) =
          match (s.core r.core).l1Word (r.ctx * 2 ^ 54 + w) with
          | some v => some v
          | none => if w ∈ r.clr then none else some (BitVec.ofNat 32 (leNat ((r.data.drop (4 * w - r.va)).take 4)))) ∧
  (
    ∀ (s : State) (r : Req) (q : Pend) (bs : List (Nat × Byte)),
      s.reqs.find? (fun v => v.id == r.id) = some r → r.kind = .write bs → r.phase = .served →
      s.pends.find? (fun p => p.tag == r.tag) = some q → q.bad = [] →
      ∃ t, exec (.storePerformed r.id) s = .next t ∧ t.mem = s.mem ∧ (∀ v ∈ t.reqs, v.id ≠ r.id) ∧
        if (∃ v ∈ s.reqs, v.id ≠ r.id ∧ v.tag = r.tag) then t.pends = s.pends else ∀ p ∈ t.pends, p.tag ≠ r.tag)

/-- R45, R165: device memory as one key reads it: a write is read back and leaves every other address alone, for that key and, off
the written lines, for every key.
R155, R156, R165, R153: at its home a write request whose line the slice holds changes there exactly the bytes it carries, and no
byte of DRAM; a read request of sectors that the slice holds hands its instruction the bytes there, at each address by which it reads
them (R231). Neither changes any other byte that its context reads at its home.
Where a clause rests on a choice of the model, it is that of the assumption log, entries 5, 41, 99. -/
def Obligations.HomeAccessReadsAndWrites : Prop :=
  (
    ∀ (m : Mem) (k d : Nat) (bs : List Byte),
      (m.write k d bs).read k d bs.length = bs ∧
      (∀ a, a < d ∨ d + bs.length ≤ a → (m.write k d bs).byte k a = m.byte k a) ∧
      (∀ k' a, a / 128 < d / 128 ∨ (d + bs.length - 1) / 128 < a / 128 → (m.write k d bs).byte k' a = m.byte k' a) ∧
      (m.write k d bs).host = m.host ∧ (m.write k d bs).poison = m.poison ∧ (m.write k d bs).l2 = m.l2) ∧
  (
    ∀ (s : State) (r : Req) (d : Nat) (cmb : Bool) (y : L2Line),
      s.reqs.find? (fun q => q.id == r.id) = some r → r.phase = .sent → r.out = true → r.tgt = .home d false cmb →
      s.combs = [] → 0 < r.n → s.lockedLine (d / 128) = false →
      s.mem.line? r.ctx (d / 128) = some y → y.data.length = 128 → s.missing r.ctx (d / 128) (s.reqNeeds r d) = [] →
      let byte := fun (m : Mem) (a : Nat) => m.homeByte (s.keyOf r.ctx) r.ctx a
      (∀ bs, r.kind = .write bs → (bs.map (·.1)).Nodup → (∀ e ∈ bs, (d + e.1) / 128 = d / 128) →
        ∃ t, exec (.homeAccess r.id) s = .next t ∧
        (∀ o b, (o, b) ∈ bs → byte t.mem (d + o) = b) ∧
        (∀ a, (∀ e ∈ bs, a ≠ d + e.1) → byte t.mem a = byte s.mem a) ∧
        t.mem.dev = s.mem.dev ∧ t.mem.key = s.mem.key ∧ t.mem.poison = s.mem.poison ∧ t.mem.host = s.mem.host ∧
        (∀ q ∈ t.reqs, q.id = r.id → q.phase = .served) ∧ t.teams = s.teams) ∧
      (∀ q secs, r.kind = .read secs → s.pends.find? (fun p => p.tag == r.tag) = some q →
        (∃ v n, q.act = .lanes v n) ∨ (∃ v, q.act = .uniform v) →
        q.bad = [] → s.spanBad r.ctx d false r.n = false → (∀ v ∈ s.reqs, v.tag = r.tag → v.id = r.id) →
        (r.va :: r.also).Pairwise (fun a b => a + r.n ≤ b ∨ b + r.n ≤ a) →
        ∃ t q', exec (.homeAccess r.id) s = .next t ∧
          t.mem = s.mem ∧ t.teams = s.teams ∧ t.pends.find? (fun p => p.tag == r.tag) = some q' ∧
          (∀ a, a = r.va ∨ a ∈ r.also → getBytes q'.got a r.n = s.mem.homeBytes (s.keyOf r.ctx) r.ctx d r.n) ∧ Ev.loadCompletion r.tag ∈ t.ev.due ∧
          ∀ v ∈ t.reqs, v.id ≠ r.id))

/-- R295, R83: a replay sends the lowest active fragment of a group outside a run back to the region PC with its registers as they
stand; issued stores go on and every load result of the group not yet written is discarded. MIGRATING parks it, on a page that
drains, until then; the pilot's soft errors are repaired in place (R299).
R306, R58, R63, R275, R291: a task-ending cause ends a launch that has no status yet and whose seal has not been issued: its status
is the cause's code, its phase is finishing, every team of it has stopped, and FAULTINFO names its block's report or is 0; any other
launch stays as it is.
Where a clause rests on a choice of the model, it is that of the assumption log, entries 51, 64. -/
def Obligations.ReplaysAndTaskEnds : Prop :=
  (
    ∀ (s : State) (u unit e : Nat),
      let g := s.grp u unit
      g.st = .live → g.run = none → g.firstActive = some e → (g.entry e).bound = false → e < g.split.length →
      ((∀ k, k < 8 → ∀ va, (g.entry k).park ≠ some (.migrating va)) → (∀ p ∈ s.pends, p.replayed u unit = true → p.entry = e) →
        (∀ i : Instr, (i = .softError u unit ∧ unit ≠ 17) ∨
            (i = .replay u unit ∧ ∀ x ∈ s.xl, ¬ (x.ctx = s.ctxOf u ∧ x.drain = true ∧ x.mig = true)) →
          ∃ t, exec i s = .next t ∧
            t.grp u unit = g.updEntry e (fun x => { x with pc := g.rgnPc, park := none }) ∧
            (∀ p ∈ s.pends, p.act = .stores → (∀ q ∈ s.pends, q.tag = p.tag → q = p) → p ∈ t.pends) ∧
            (∀ p ∈ t.pends, p ∈ s.pends ∧ ¬ (p.team = u ∧ p.unit = unit ∧ ∃ d n, p.act = .lanes d n)) ∧
            t.mem = s.mem)) ∧
      (s.trapStopped u unit = false → ∀ y, s.xl.find? (fun v => v.ctx == s.ctxOf u && v.drain && v.mig) = some y →
        Turns (.migrating u unit) s ⟨u, unit, e⟩ (g.updEntry e fun x => { x with park := some (.migrating y.va) })) ∧
      exec (.softError u 17) s = .next s) ∧
  (
    ∀ (s : State) (l : Nat) (x : Launch) (why : TaskEnd), s.launch? l = some x →
      ∀ i : Instr, i = .taskEnd l why ∨ (i = .memUncorrectable l ∧ ∀ b ∈ s.bars, b.id ≠ l) →
      let code : BitVec 8 := if i = .memUncorrectable l then 0x12 else
        match why with
        | .leaseMiss => 0x10
        | .peerLost => 0x11
        | .memUncorrectable => 0x12
        | .doubleFault => 0x13
        | .killed => 0x14
        | .trapped => 0x15
      if x.phase = .done ∨ x.status ≠ 0 ∨ x.sealed = true ∨ (∃ j ∈ s.seals, j.launch = l ∧ j.cmd = false) then exec i s = .next s
      else ∃ t y, exec i s = .next t ∧ t.launch? l = some y ∧ y.phase = .finishing ∧ y.status = code ∧ y.parked = [] ∧
        (y.info = 0 ∨ ∃ b, y.block = some b ∧ y.info = blockBase b) ∧
        (∀ k ∈ t.teams, k.launch = l → k.ended = true ∧ k.handler.st = .gone ∧ k.pilot.st = .gone ∧ ∀ g ∈ k.groups, g.st = .gone) ∧
        (∀ k ∈ s.teams, k.launch ≠ l → (∀ v ∈ s.teams, v.uid = k.uid → v = k) → k ∈ t.teams) ∧
        (x.phase ≠ .finishing → Ev.gridCompletion l ∈ t.ev.due))

/-! ### Remote operations -/

/-- R425, R426, R428, R186, R174: a remote instruction that passes its checks and whose addresses translate leaves: one request
for each active lane, of NG granules from its address on, each with its part of the operand, from v[d].. or, for `ropw`,
the scratchpad at v[d]; a region is entered. No memory and no
register changes at issue.
R187, R428: an undefined id traps ROP_FAULT with status ROP_UNDEF, a form that does not match ROP_SHAPE, with the id, the
lowest active lane and its address; with no active lane a remote instruction only enters a region.
Where a clause rests on a choice of the model, it is that of the assumption log, entry 22. -/
def Obligations.RemoteInstructionsIssue : Prop :=
  (
    ∀ (p : Pfx) (d a : BitVec 8) (id : BitVec 6) (ng : BitVec 3) (i : Instr) (ret spad : Bool) (s : State) (x : Iss) (o : Opcode)
        (gen : BitVec 8) (w : Launch) (tm : Team),
      (i = .rop p d a id ng ∧ ret = false ∧ spad = false) ∨ (i = .ropr p d a id ng ∧ ret = true ∧ spad = false) ∨
        (i = .ropw p d a id ng ∧ ret = false ∧ spad = true) →
      Issues i p.mask s x → x.mask ≠ 0 → Fresh s → s.launchOf x.p.team = some w → s.opcode? (s.ctxOf x.p.team) id.toNat = some (o, gen) →
      o.builtin = false ∨ o.id < 13 →
      let n := ng.toNat + 1
      s.team? x.p.team = some tm →
      s.ropCheck x (some o) ret spad d.toNat a.toNat n (if x.p.unit = 16 then 64 else tm.vregs) = none →
      s.owedV x.p.team x.p.unit d.toNat 8 = false →
      (spad = true → (s.ropSpads x d.toNat (n * o.opsz)).any (s.spadBusy x.p.team x.p.unit) = false) →
      let lanes := (lanesOf x.mask).map fun l => (l, (s.my x).pairAddr a.toNat l)
      (∀ e ∈ ropAddrs o n lanes, ∃ tgt, ((ropAddrs o n lanes).foldl (fun s e => s.warm w e.2) s).translateFor
        x.p.team x.p.unit e.2 true = .ok tgt) →
      ∃ t q new, exec i s = .next t ∧ q ∈ t.pends ∧ q.cls = .rop ∧ q.tag = s.nextId ∧ t.rops = s.rops ++ new ∧
        new.map (fun r => (r.lane, r.op, r.gen, r.ret, r.fpol, r.tag)) =
          lanes.map (fun e => (e.1, o.id, gen, ret, o.fpol, s.nextId)) ∧
        (∀ r ∈ new, ∀ k, r.grans.length = n ∧ (k < n → ∃ g ∈ r.grans[k]?, g.size = o.gran ∧ g.phase = .sent ∧ g.status = 0 ∧
          (∀ e ∈ lanes, e.1 = r.lane → g.va = e.2 + k * o.gran) ∧
          g.x = (if spad then
              match s.spadSpanAt x.p.team ((s.my x).vget d.toNat r.lane).toNat (n * o.opsz) with
              | some (u, off) => s.spadRead u (off + k * o.opsz) o.opsz
              | none => []
            else (List.range o.opsz).map fun j =>
              BitVec.ofNat 8 (((s.my x).vget (d.toNat + (k * o.opsz + j) / 4) r.lane).toNat / 256 ^ ((k * o.opsz + j) % 4))))) ∧
        (t.my x).v = (s.my x).v ∧ (t.my x).s = (s.my x).s ∧ (t.my x).rgnc = (s.my x).rgnc + 1 ∧ t.mem = s.mem ∧ Fresh t) ∧
  (
    ∀ (p : Pfx) (d a : BitVec 8) (id : BitVec 6) (ng : BitVec 3) (s : State) (x : Iss) (i : Instr),
      i = .rop p d a id ng ∨ i = .ropr p d a id ng ∨ i = .ropw p d a id ng → Issues i p.mask s x →
      let at_ := (s.my x).pairAddr a.toNat ((lanesOf x.mask).headD 0)
      (x.mask ≠ 0 → s.opcode? (s.ctxOf x.p.team) id.toNat = none →
        ∃ info, exec i s = .next (s.takeTrap x.p info) ∧ info.cause = 0x27 ∧ info.detail = 0x35 ∧ info.addr = at_ ∧
          info.lanes = x.mask ∧ info.frop.toNat % 2 ^ 14 = 0x35 + id.toNat * 2 ^ 8) ∧
      (x.mask ≠ 0 → i = .ropr p d a id ng → ∀ gen, s.opcode? (s.ctxOf x.p.team) id.toNat = some (⟨id.toNat, []⟩, gen) →
        12 ≤ id.toNat → id.toNat < 16 →
        ∃ info, exec i s = .next (s.takeTrap x.p info) ∧ info.cause = 0x27 ∧ info.detail = 0x36 ∧ info.addr = at_) ∧
      (x.mask = 0 → x.inRun = false → Does i s x fun g => { g with rgnPc := x.next, rgnc := g.rgnc + 1 }))

/-- R194, R189: a granule of a built-in op that changes one word or doubleword, served without combining at a slice that holds its granule, gets
the new value at its address and nothing else in memory changes; its status 0 and the old value go back to the group. R473: id 12
adds its FP32 value exactly to its half-line. R192, R194: an op of a loaded definition puts what its micro-ops make of the granule
there, or nothing where they store nothing, and returns what they return.
R188: a request whose generation no unit knows answers ROP_STALE and changes no memory; R185: one whose definition's TGT does not
match the page answers ROP_UNMAPPED.
R185, R204: on an update-at-memory page the CUU that holds the lock for the granule commits it in DRAM and frees the lock; two runs
with a residue mismatch poison the granule's lines and answer CUU_ARITH.
R207, R208, R186: the status of a granule reaches the group: the next granule of an ABORT request leaves after OK; a
fault is noted for the group with status, id, generation, policy, lane, granule and address, a further one only counts; under SKIP and
POISON the statuses 0x31 to 0x33 are no faults and count as SKIPPED or POISONED, CUU_RESET counts as RESETS.
R427: when the last granule of a lane's `ropr` has returned, v[d].. of the lane hold the granules' returns, 0 for a granule that was
not applied, and no other register changes.
Where a clause rests on a choice of the model, it is that of the assumption log, entries 45, 46, 47. -/
def Obligations.RemoteOpsApplyAndReturn : Prop :=
  (
    ∀ (s : State) (r : Rop) (k : Nat) (g : Gran) (d : Nat) (cmb : Bool),
      s.rops.find? (fun v => v.id == r.id) = some r → r.grans[k]? = some g → g.phase = .sent → g.sent = true → r.out = true →
      g.tgt = .home d false cmb → r.op ≤ 11 → r.gen = 0 → g.src = none → s.ropBehind r k g = false →
      (r.ret = true ∨ cmb = false ∨ 9 ≤ r.op) → s.combs = [] →
      let size := ({ id := r.op, defn := [] } : Opcode).gran
      let base := d / size * size
      s.lockedSpan base size = false → s.inSlice r.ctx base size → s.spanBad r.ctx base false size = false →
      d % (if r.op = 1 then 8 else 4) = 0 → g.x.length = (if r.op = 1 ∨ r.op = 10 then 8 else 4) →
      let key := s.keyOf r.ctx
      let n := if r.op = 1 then 8 else 4
      ∃ t r', exec (.remoteOpApply r.id k 0) s = .next t ∧
        t.mem.homeBytes key r.ctx d n = leBytes n (builtinNew r.op (leNat (s.mem.homeBytes key r.ctx d n)) g.x) ∧
        (∀ a, a < d ∨ d + n ≤ a → t.mem.homeByte key r.ctx a = s.mem.homeByte key r.ctx a) ∧
        t.mem.dev = s.mem.dev ∧ t.mem.host = s.mem.host ∧ t.teams = s.teams ∧
        t.rops.find? (fun v => v.id == r.id) = some r' ∧
        r'.grans[k]? = some { g with phase := .served, sent := true, status := 0, ret := s.mem.homeBytes key r.ctx d n } ∧
        Ev.ropStatusReturn r.id k ∈ t.ev.due) ∧
  (
    ∀ (s : State) (r : Rop) (k resid : Nat) (g : Gran) (d : Nat) (uam cmb : Bool),
      s.rops.find? (fun v => v.id == r.id) = some r → r.grans[k]? = some g → g.sent = true → r.out = true →
      g.tgt = .home d uam cmb → g.src = none → s.combs = [] →
      let key := s.keyOf r.ctx
      let answers := fun (t : State) (st : BitVec 8) (ret : List Byte) =>
        ∃ r', t.rops.find? (fun v => v.id == r.id) = some r' ∧
          r'.grans[k]? = some { g with phase := .served, sent := true, status := st, ret := ret } ∧ Ev.ropStatusReturn r.id k ∈ t.ev.due
      -- at a slice
      (uam = false → g.phase = .sent → s.ropBehind r k g = false →
        (∀ o : Opcode, (o = ⟨12, []⟩ ∧ r.op = 12 ∧ r.gen = 0 ∨ 16 ≤ r.op ∧ s.opcode? r.ctx r.op = some (o, r.gen) ∧ defTgt o.defn = false) →
          (r.ret = true ∨ cmb = false ∨ o.combines = false) →
          let base := d / o.gran * o.gran
          s.lockedSpan base o.gran = false → s.inSlice r.ctx base o.gran → s.spanBad r.ctx base false o.gran = false →
          let old := s.mem.homeBytes key r.ctx base o.gran
          let here := fun (m : Mem) (a : Nat) => m.homeByte key r.ctx a
          (r.op = 12 → d % 64 = 0 → g.x.length = 4 → ∃ t, exec (.remoteOpApply r.id k resid) s = .next t ∧
            t.mem.homeBytes key r.ctx d 64 = halfAdds (s.mem.homeBytes key r.ctx d 64) [BitVec.ofNat 32 (leNat g.x)] ∧
            (∀ a, a < d ∨ d + 64 ≤ a → here t.mem a = here s.mem a) ∧ answers t 0 []) ∧
          (16 ≤ r.op → let new := defApply o.defn (d - base) g.x old
            new.1.length = o.gran → ∃ t, exec (.remoteOpApply r.id k resid) s = .next t ∧
              t.mem.homeBytes key r.ctx base o.gran = (if o.stores then new.1 else old) ∧
              (∀ a, a < base ∨ base + o.gran ≤ a → here t.mem a = here s.mem a) ∧ answers t 0 new.2)) ∧
        (16 ≤ r.op → (∀ o, s.opcode? r.ctx r.op ≠ some (o, r.gen)) →
          (∀ p ∈ s.pends, ∀ e x v, p.act ≠ .defining e r.op (some x) r.gen v) →
          ∃ t, exec (.remoteOpApply r.id k resid) s = .next t ∧ t.mem = s.mem ∧ answers t 0x34 [])) ∧
      (∀ o : Opcode, g.phase = .sent → s.ropBehind r k g = false → 16 ≤ r.op → s.opcode? r.ctx r.op = some (o, r.gen) →
        defTgt o.defn ≠ uam → ∃ t, exec (.remoteOpApply r.id k resid) s = .next t ∧ t.mem = s.mem ∧ answers t 0x31 []) ∧
      -- at the CUU that has the lock for it
      (∀ t0, uam = true → g.phase = .waiting → r.op ≤ 11 → r.gen = 0 → pchOf d < s.chans.length →
        (s.chan (pchOf d)).busy = some (r.id, k, t0) →
        let size := ({ id := r.op, defn := [] } : Opcode).gran
        let base := d / size * size
        let n := if r.op = 1 then 8 else 4
        d % n = 0 → g.x.length = (if r.op = 1 ∨ r.op = 10 then 8 else 4) → s.spanBad r.ctx base true size = false →
        ∃ t, exec (.remoteOpApply r.id k resid) s = .next t ∧ (t.chan (pchOf d)).busy = none ∧ t.mem.l2 = s.mem.l2 ∧
          (resid < 2 → t.mem.read key d n = leBytes n (builtinNew r.op (leNat (s.mem.read key d n)) g.x) ∧
            (∀ a, a < d ∨ d + n ≤ a → t.mem.byte key a = s.mem.byte key a) ∧ answers t 0 (s.mem.read key d n)) ∧
          (2 ≤ resid → t.mem.dev = s.mem.dev ∧ t.mem.key = s.mem.key ∧ answers t 0x33 [] ∧
            ∀ w, base / 128 * 32 ≤ w → w < (base + size + 127) / 128 * 32 → w ∈ t.mem.poison))) ∧
  (
    ∀ (s : State) (r : Rop) (k : Nat) (g : Gran) (t : Team),
      s.rops.find? (fun v => v.id == r.id) = some r → (∀ v ∈ s.rops, v.id = r.id → v = r) → r.grans[k]? = some g → g.phase = .served →
      g.sent = true →
      g.status ≠ 0x10 → g.status ≠ 0x11 → g.status ≠ 0x12 → s.team? r.team = some t → r.unit < t.groups.length → r.unit < 16 →
      s.trapImage r.team r.unit = none →
      ∃ t', exec (.ropStatusReturn r.id k) s = .next t' ∧ t'.mem = s.mem ∧
        (g.status = 0 → r.fpol = 0 → k + 1 < r.grans.length → Ev.remoteOpApply r.id (k + 1) 0 ∈ t'.ev.due ∧
          (t'.grp r.team r.unit).rop = (s.grp r.team r.unit).rop) ∧
        (g.status ≠ 0 → r.fpol = 0 → (s.grp r.team r.unit).rop = none →
          ∃ rep, (t'.grp r.team r.unit).rop = some rep ∧ rep.status = g.status ∧ rep.ropid = BitVec.ofNat 6 r.op ∧ rep.gen = r.gen ∧
            rep.lane = BitVec.ofNat 6 r.lane ∧ rep.gidx = BitVec.ofNat 3 k ∧ rep.addr = BitVec.ofNat 56 g.va ∧ rep.ipc = r.ipc ∧
            rep.more = 0) ∧
        (g.status ≠ 0 → r.fpol = 0 → ∀ rep, (s.grp r.team r.unit).rop = some rep →
          (t'.grp r.team r.unit).rop = some { rep with more := if rep.more = 255 then 255 else rep.more + 1 }) ∧
        (g.status = 0x31 ∨ g.status = 0x32 ∨ g.status = 0x33 → r.fpol = 1 ∨ r.fpol = 2 →
          (t'.grp r.team r.unit).rop = (s.grp r.team r.unit).rop) ∧
        (g.status = 0x30 ∨ g.status = 0x34 → (s.grp r.team r.unit).rop = none →
          ∃ rep, (t'.grp r.team r.unit).rop = some rep ∧ rep.status = g.status) ∧
        (∀ c, r.fpol ≤ 2 → s.ctx? r.ctx = some c → ∃ c', t'.ctx? r.ctx = some c' ∧
          let skip := g.status = 0x31 ∨ g.status = 0x32 ∧ r.fpol = 1
          let count := fun (x : BitVec 16) (b : Prop) [Decidable b] => min 0xFFFF (x.toNat + if b then 1 else 0)
          c'.skipped.toNat = count c.skipped ((r.fpol = 1 ∨ r.fpol = 2) ∧ skip) ∧
          c'.poisoned.toNat = count c.poisoned ((r.fpol = 1 ∨ r.fpol = 2) ∧ ¬ skip ∧ (g.status = 0x32 ∨ g.status = 0x33)) ∧
          c'.resets.toNat = count c.resets (g.status = 0x30))) ∧
  (
    ∀ (s : State) (r : Rop) (k : Nat) (g : Gran) (t : Team),
      s.rops.find? (fun v => v.id == r.id) = some r → (∀ v ∈ s.rops, v.id = r.id → v = r) → r.grans[k]? = some g → g.sent = true →
      s.team? r.team = some t → r.unit < t.groups.length → r.unit < 16 → s.trapImage r.team r.unit = none →
      (∃ p ∈ s.pends, p.tag = r.tag) → r.ret = true → r.lane < 64 → (r.fpol = 0 → k + 1 = r.grans.length) →
      (∀ j h, r.grans[j]? = some h → h.phase = .served ∧ (j ≠ k → h.sent = false) ∧ h.ret.length = r.rb ∧
        (h.status = 0 ∨ (r.fpol = 1 ∨ r.fpol = 2) ∧ (h.status = 0x31 ∨ h.status = 0x32 ∨ h.status = 0x33))) →
      let bs := r.grans.flatMap fun h => if h.status = 0 then h.ret else List.replicate r.rb 0
      r.d + bs.length / 4 ≤ 248 →
      ∃ t', exec (.ropStatusReturn r.id k) s = .next t' ∧ t'.mem = s.mem ∧ (∀ v ∈ t'.rops, v.id ≠ r.id) ∧
        (∀ q, q < bs.length / 4 →
          (t'.grp r.team r.unit).vget (r.d + q) r.lane = BitVec.ofNat 32 (leNat ((bs.drop (4 * q)).take 4))) ∧
        ∀ q l, l < 64 → l ≠ r.lane ∨ q < r.d ∨ r.d + bs.length / 4 ≤ q →
          (t'.grp r.team r.unit).vget q l = (s.grp r.team r.unit).vget q l)

/-- R189: what built-in ids 0 to 11 make of the old value and the operand x, at the address's offset in the granule, and that they
return the old value.
R192, R193, R427: a definition that loads the window and the operand, adds them and stores the sum, on 32-bit integers, changes the
window's elements to the sums modulo 2^32 and nothing else of the granule; with RSHAPE 2 it returns the sums.
R429, R430, R188, R195: `rdef` and `rdel` issue and their fragment waits; a record that fails its checks leaves the table and writes
its status and the generation as it stands to s[d] at once; a good one replaces the entry, raises its generation and is owed the
result; the result, which completion writes, is STATUS + GEN x 2^8.
R209, R430: `rstat` writes DEF, BUILTIN, GEN and HDR of the entry that s[a] names; `rstat.stat` the context's four counters.
Where a clause rests on a choice of the model, it is that of the assumption log, entry 48. -/
def Obligations.RemoteOpcodes : Prop :=
  (
    ∀ (id wo : Nat) (x src s : List Byte), id ≤ 11 → wo + (if id = 1 then 8 else 4) ≤ s.length →
      let n := if id = 1 then 8 else 4
      let old := leNat ((s.drop wo).take n)
      let v := leNat x
      let signed := fun (k : Nat) => if k < 2 ^ 31 then (k : Int) else (k : Int) - 2 ^ 32
      let new := if id = 0 then (old + v) % 2 ^ 32
        else if id = 1 then (old + v) % 2 ^ 64
        else if id = 2 then (if signed old ≤ signed v then old else v)
        else if id = 3 then (if signed v ≤ signed old then old else v)
        else if id = 4 then min old v
        else if id = 5 then max old v
        else if id = 6 then old &&& v
        else if id = 7 then old ||| v
        else if id = 8 then old ^^^ v
        else if id = 9 then v
        else if id = 10 then (if old = v % 2 ^ 32 then v / 2 ^ 32 % 2 ^ 32 else old)
        else fp32.fadd 0 old v
      x.length = (if id = 1 ∨ id = 10 then 8 else 4) →
      ({ id := id, defn := [] } : Opcode).apply wo x src s =
        some (s.take wo ++ leBytes n new ++ s.drop (wo + n), (s.drop wo).take n)) ∧
  (
    ∀ (d : List Byte) (wo : Nat) (x s : List Byte), (defEty d = 2 ∨ defEty d = 3) → defOty d = defEty d → defLen d = 4 →
      defSlot d 0 = 0x0001 → defSlot d 1 = 0x0025 → defSlot d 2 = 0x0808 → defSlot d 3 = 0x0002 →
      4 * defVl d ≤ x.length → wo + 4 * defVl d ≤ s.length →
      let word := fun (bs : List Byte) (i : Nat) => leNat ((bs.drop (4 * i)).take 4)
      let sums := (List.range (defVl d)).flatMap fun i => leBytes 4 ((word (s.drop wo) i + word x i) % 2 ^ 32)
      (defApply d wo x s).1 = s.take wo ++ sums ++ s.drop (wo + 4 * defVl d) ∧
      (defRshape d = 0 → (defApply d wo x s).2 = []) ∧ (defRshape d = 2 → defRreg d = 0 → (defApply d wo x s).2 = sums)) ∧
  (
    (∀ (d a : BitVec 8) (s : State) (x : Iss) (w : Launch) (tgt : Tgt), Issues (.rdef d a) 0 s x → Fresh s →
      let at_ := ((s.my x).sget a.toNat).toNat
      (at_ % 64 = 0 → s.launchOf x.p.team = some w → (s.warm w at_).translateFor x.p.team x.p.unit at_ false = .ok tgt →
        ∃ t q, exec (.rdef d a) s = .next t ∧ q ∈ t.pends ∧ q.tag = s.nextId ∧
          q.act = .define d.toNat (((s.my x).sget d.toNat).toNat % 64) ∧ ((t.my x).entry x.p.entry).park = some (.read s.nextId) ∧
          (∃ r ∈ t.reqs, r.tag = s.nextId ∧ r.va = at_) ∧ t.mem = s.mem ∧ t.ctxs = s.ctxs) ∧
      (at_ % 64 ≠ 0 → exec (.rdef d a) s = .next (s.trap 0x24 0x00 at_))) ∧
    (∀ (d : BitVec 8) (s : State) (x : Iss) (c : Ctx), Issues (.rdel d) 0 s x → s.ctx? (s.ctxOf x.p.team) = some c →
      let id := ((s.my x).sget d.toNat).toNat % 64
      ∃ t q old gen, exec (.rdel d) s = .next t ∧ q ∈ t.pends ∧ ((t.my x).entry x.p.entry).park = some (.read s.nextId) ∧
        q.act = .defining d.toNat id old gen (if id < 16 then 0x3A else
          BitVec.ofNat 64 ((s.opGen (s.ctxOf x.p.team) id + 1).toNat * 2 ^ 8)) ∧
        (16 ≤ id → t.opcode? (s.ctxOf x.p.team) id = none) ∧ t.mem = s.mem) ∧
    (∀ (s : State) (q : Pend) (d id a : Nat) (c : Ctx), s.pends.find? (fun p => p.tag == q.tag) = some q → q.act = .define d id →
      q.lanes.map (·.2) = [a] → (∀ r ∈ s.reqs, r.tag ≠ q.tag) → s.trapImage q.team q.unit = none → id < 64 →
      s.ctx? (s.ctxOf q.team) = some c →
      let rec_ := getBytes q.got a 64
      (∀ st, defCheck rec_ (some id) = some st → ∃ t, exec (.recordReadReturn q.tag) s = .next t ∧ t.ctxs = s.ctxs ∧
        t.mem = s.mem ∧ (∀ p ∈ t.pends, p.tag ≠ q.tag) ∧
        ((s.grp q.team q.unit).st = .live → (t.grp q.team q.unit).sget d =
          BitVec.ofNat 64 (st.toNat + (s.opGen (s.ctxOf q.team) id).toNat * 2 ^ 8))) ∧
      (defCheck rec_ (some id) = none → ∃ t, exec (.recordReadReturn q.tag) s = .next t ∧ t.mem = s.mem ∧
        t.opcode? (s.ctxOf q.team) id = some (⟨id, rec_⟩, s.opGen (s.ctxOf q.team) id + 1) ∧
        (∀ j, j ≠ id → t.opcode? (s.ctxOf q.team) j = s.opcode? (s.ctxOf q.team) j) ∧ Ev.rdefCompletion q.tag ∈ t.ev.due ∧
        ∃ q' old gen, t.pends.find? (fun p => p.tag == q.tag) = some q' ∧ q'.act = .defining d id old gen
          (BitVec.ofNat 64 ((s.opGen (s.ctxOf q.team) id + 1).toNat * 2 ^ 8)))) ∧
    (∀ (s : State) (q : Pend) (d id : Nat) (old : Option (List Byte)) (gen : BitVec 8) (v : U64),
      s.pends.find? (fun p => p.tag == q.tag) = some q → q.act = .defining d id old gen v → s.combs = [] →
      s.chans.all (fun c => c.busy.isNone) = true → s.trapImage q.team q.unit = none →
      (s.grp q.team q.unit).st = .live → q.entry < (s.grp q.team q.unit).split.length →
      ∃ t, exec (.rdefCompletion q.tag) s = .next t ∧ (t.grp q.team q.unit).sget d = v ∧
        ((t.grp q.team q.unit).entry q.entry).park = none ∧ (∀ p ∈ t.pends, p.tag ≠ q.tag) ∧ t.mem = s.mem)) ∧
  (
    ∀ (d a : BitVec 8) (s : State) (x : Iss) (c : Ctx), s.ctx? (s.ctxOf x.p.team) = some c →
      let writes := fun (i : Instr) (v : U64) => ∃ t, exec i s = .next t ∧ Wrote s t x x.next (s.my x).vget
        (fun r => if r = d.toNat then v else (s.my x).sget r) (sget (s.my x).m)
      (Issues (.rstat d a) 0 s x →
        let id := ((s.my x).sget a.toNat).toNat % 64
        (id < 16 → writes (.rstat d a) 3) ∧
        (16 ≤ id → ∀ e ∈ c.ops, c.ops.find? (fun v => v.1 == id) = some e →
          writes (.rstat d a) (BitVec.ofNat 64 (e.2.gen.toNat * 4 + (match e.2.defn with
            | some r => 1 + leNat (r.take 4) * 2 ^ 16
            | none => 0)))) ∧
        (16 ≤ id → c.ops.find? (fun v => v.1 == id) = none → writes (.rstat d a) 0)) ∧
      (Issues (.rstatStat d) 0 s x → writes (.rstatStat d)
        (BitVec.ofNat 64 (c.skipped.toNat + c.poisoned.toNat * 2 ^ 16 + c.resets.toNat * 2 ^ 32 + c.combined.toNat * 2 ^ 48))))

/-- R159, R160, R162, R163, R197: the events of buffers and pseudo-channels: an aged partial is merged into its line once the slice
holds it, a lock of
64 clk lapses, a pending power entry of a channel with nothing queued takes effect, a wake makes the channel active, the watchdog frees
the CUU and ends every operation in its queue with CUU_RESET, a peer's too.
Where a clause rests on a choice of the model, it is that of the assumption log, entry 50. -/
def Obligations.ChannelEvents : Prop :=
  ∀ (s : State) (p : Nat),
    let c := s.chan p
    p < s.chans.length →
    (∀ o k b, c.busy = some (o, k, b) → b + 64 ≤ s.clk →
      ∃ t, exec (.lockLapse p) s = .next t ∧ t.chan p = { c with busy := none } ∧ t.mem = s.mem ∧ t.rops = s.rops) ∧
    (∀ w, s.idleTarget c = some w → ∃ t, exec (.idleTimer p) s = .next t ∧ t.chan p = { c with entry := some w } ∧ t.mem = s.mem) ∧
    (∀ w, c.entry = some w → c.busy = none → s.chanQueued p = false →
      ∃ t, exec (.channelPowerEntry p) s = .next t ∧ t.chan p = { c with power := w, entry := none } ∧ t.mem = s.mem) ∧
    (∀ w, c.wake = some w → w ≤ s.clk → ∃ t, exec (.channelWake p) s = .next t ∧ t.mem = s.mem ∧
      t.chan p = { c with power := .active, wake := none, entry := none, idle := s.clk }) ∧
    (s.cuuQueue p ≠ [] → c.last + 4096 ≤ s.clk → ∃ t, exec (.cuuWatchdog p) s = .next t ∧ (t.chan p).busy = none ∧
      (t.chan p).last = s.clk ∧ t.mem = s.mem ∧
      (∀ a id k, (a, id, k) ∈ s.cuuQueue p →
        (∀ r, s.rops.find? (fun v => v.id == id) = some r → (∀ v ∈ s.rops, v.id = id → v = r) →
          ∃ r' g, t.rops.find? (fun v => v.id == id) = some r' ∧ r'.grans[k]? = some g ∧ g.phase = .served ∧ g.status = 0x30 ∧
            g.ret = [] ∧ Ev.ropStatusReturn id k ∈ t.ev.due) ∧
        ((∀ v ∈ s.rops, v.id ≠ id) → ∀ v ∈ t.peerRops, v.id ≠ id)) ∧
      t.dev.cuurst = (if s.dev.cuurst = 0xFFFF then 0xFFFF else s.dev.cuurst + 1)) ∧
    (∀ b, s.combs.find? (fun v => v.id == b.id) = some b → s.inSlice b.ctx (b.line * 128) 128 →
      (∀ w, s.mem.homeBad b.ctx w = false) →
      let k := s.keyOf b.ctx
      ∃ t, exec (.combiningAgeOut b.id) s = .next t ∧ (∀ v ∈ t.combs, v.id ≠ b.id) ∧
        (∀ a, a / 128 ≠ b.line → t.mem.homeByte k b.ctx a = s.mem.homeByte k b.ctx a) ∧
        t.mem.homeBytes k b.ctx (b.line * 128) 128 = ({ id := b.op, defn := b.defn } : Opcode).mergeLine (fun _ => false)
          (s.mem.homeBytes k b.ctx (b.line * 128) 128) b.part_)

/-! ### Synchronisation -/

/-- R170, R171, R173, R432: `acq` and `rel` of an object on an ordinary page send their request and the fragment parks until the
answer; `rel` first waits for its stores and remote ops. An empty mask does nothing; a misaligned object traps ALIGN, one on an
update-at-memory page ILLEGAL_OP 0x03.
R170, R169, R173: at its home an acquire of a free, well-formed object that no one waits for takes it: HELD and the holder's
context, GID and TID are written, RELSEQ and the rest stay; a held object keeps the request waiting.
R171, R169: at its home a release by the holder clears HELD and raises RELSEQ by 1, modulo 2^64; with no acquire waiting the
object stays free, and otherwise the acquire of the object that has waited longest takes it at once.
R173: an acquire by the holder, a release by another, and either of an object with a reserved bit set trap ILLEGAL_OP 0x03 at the
waiting fragment, with the object's address.
R170, R153, R171: a granted acquire clears every valid word of the core's L1 and the fragment goes on after it; an acknowledged
release lets its fragment go on.
Where a clause rests on a choice of the model, it is that of the assumption log, entry 33. -/
def Obligations.SyncObjects : Prop :=
  (
    ∀ (p : Pfx) (a : BitVec 8) (s : State) (x : Iss) (w : Launch) (i : Instr) (kind : ReqKind),
      (i = .acq p a ∧ kind = .acq) ∨ (i = .rel p a ∧ kind = .rel) →
      Issues i p.mask s x → s.launchOf x.p.team = some w →
      let at_ := ((s.my x).sget a.toNat).toNat
      let open_ := i = .acq p a ∨ s.count x.p.team x.p.unit .store = 0 ∧ s.count x.p.team x.p.unit .rop = 0
      (x.mask = 0 → Does i s x id) ∧
      (x.mask ≠ 0 → at_ % 64 ≠ 0 → exec i s = .next (s.trap 0x24 0x00 at_)) ∧
      (x.mask ≠ 0 → at_ % 64 = 0 → ¬ open_ → Turns i s x.p
        ((s.my x).updEntry x.p.entry fun e => { e with park := some (.counters 15 0 15 15 0 false) })) ∧
      (x.mask ≠ 0 → at_ % 64 = 0 → open_ → ∀ tgt,
        (s.warm w at_).translateFor x.p.team x.p.unit at_ true = .ok tgt →
        (∀ d c, tgt = .home d false c → ∃ t r, exec i s = .next t ∧ r ∈ t.reqs ∧ r.id = s.nextId ∧ r.kind = kind ∧ r.va = at_ ∧
          r.tgt = tgt ∧ r.phase = .sent ∧ Ev.homeAccess r.id ∈ t.ev.due ∧ t.mem = s.mem ∧
          t.my x = (s.my x).updEntry x.p.entry fun e => { e with park := some (.sync s.nextId x.next) }) ∧
        (∀ d c, tgt = .home d true c → exec i s = .next ((s.warm w at_).trap 0x20 0x03 at_)))) ∧
  (
    ∀ (s : State) (r : Req) (d : Nat) (cmb : Bool) (tm : Team),
      s.reqs.find? (fun q => q.id == r.id) = some r → r.kind = .acq → r.phase = .sent → r.tgt = .home d false cmb →
      r.out = true → r.n = 64 → d % 64 = 0 → s.trapStopped r.team r.unit = false → s.combs = [] →
      s.spanBad r.ctx d false 64 = false → s.inSlice r.ctx d 64 → s.lockedLine (d / 128) = false → s.team? r.team = some tm →
      r.unit < 16 → r.ctx < 64 → tm.tid < 2 ^ 32 →
      (∀ q ∈ s.reqs, ¬ (q.kind = .acq ∧ q.phase = .waiting ∧ q.tgt.spot = r.tgt.spot)) →
      let byte := fun (m : Mem) (a : Nat) => m.homeByte (s.keyOf r.ctx) r.ctx a
      let eight := fun (m : Mem) (a : Nat) => leNat (m.homeBytes (s.keyOf r.ctx) r.ctx a 8)
      let w := eight s.mem d
      w / 2 % 32 = 0 → w / 2 ^ 48 = 0 → (∀ j, 16 ≤ j → j < 64 → byte s.mem (d + j) = 0) →
      (w % 2 = 0 → ∃ t, exec (.homeAccess r.id) s = .next t ∧
        eight t.mem d = 1 + r.ctx * 2 ^ 6 + r.unit * 2 ^ 12 + tm.tid * 2 ^ 16 ∧
        (∀ a, a < d ∨ d + 8 ≤ a → byte t.mem a = byte s.mem a) ∧ Ev.acquireGrant r.id ∈ t.ev.due ∧ t.teams = s.teams) ∧
      (w % 2 = 1 → w ≠ 1 + r.ctx * 2 ^ 6 + r.unit * 2 ^ 12 + tm.tid * 2 ^ 16 →
        ∃ t, exec (.homeAccess r.id) s = .next t ∧ t.mem = s.mem ∧ t.teams = s.teams ∧
          ∃ q ∈ t.reqs, q.id = r.id ∧ q.phase = .waiting)) ∧
  (
    ∀ (s : State) (r : Req) (d : Nat) (cmb : Bool) (tm : Team),
      s.reqs.find? (fun q => q.id == r.id) = some r → r.kind = .rel → r.phase = .sent → r.tgt = .home d false cmb →
      r.out = true → r.n = 64 → d % 64 = 0 → s.trapStopped r.team r.unit = false → s.combs = [] →
      s.spanBad r.ctx d false 64 = false → s.inSlice r.ctx d 64 → s.lockedLine (d / 128) = false → s.team? r.team = some tm →
      r.unit < 16 → r.ctx < 64 → tm.tid < 2 ^ 32 →
      (∀ q ∈ s.reqs, ¬ (q.kind = .acq ∧ q.phase = .waiting ∧ q.tgt.spot = r.tgt.spot)) →
      let byte := fun (m : Mem) (a : Nat) => m.homeByte (s.keyOf r.ctx) r.ctx a
      let eight := fun (m : Mem) (a : Nat) => leNat (m.homeBytes (s.keyOf r.ctx) r.ctx a 8)
      (∀ j, 16 ≤ j → j < 64 → byte s.mem (d + j) = 0) →
      eight s.mem d = 1 + r.ctx * 2 ^ 6 + r.unit * 2 ^ 12 + tm.tid * 2 ^ 16 →
      ∃ t, exec (.homeAccess r.id) s = .next t ∧
        eight t.mem d = r.ctx * 2 ^ 6 + r.unit * 2 ^ 12 + tm.tid * 2 ^ 16 ∧
        eight t.mem (d + 8) = (eight s.mem (d + 8) + 1) % 2 ^ 64 ∧
        (∀ a, a < d ∨ d + 16 ≤ a → byte t.mem a = byte s.mem a) ∧ Ev.releaseAcknowledged r.id ∈ t.ev.due ∧ t.teams = s.teams) ∧
  (
    ∀ (s : State) (r : Req) (d : Nat) (cmb : Bool) (tm : Team),
      s.reqs.find? (fun q => q.id == r.id) = some r → r.phase = .sent → r.tgt = .home d false cmb →
      r.out = true → r.n = 64 → d % 64 = 0 → s.trapStopped r.team r.unit = false → s.combs = [] →
      s.spanBad r.ctx d false 64 = false → s.inSlice r.ctx d 64 → s.lockedLine (d / 128) = false → s.team? r.team = some tm →
      r.unit < 16 → r.ctx < 64 → tm.tid < 2 ^ 32 →
      let byte := fun (m : Mem) (a : Nat) => m.homeByte (s.keyOf r.ctx) r.ctx a
      let eight := fun (m : Mem) (a : Nat) => leNat (m.homeBytes (s.keyOf r.ctx) r.ctx a 8)
      let w := eight s.mem d
      let mine := 1 + r.ctx * 2 ^ 6 + r.unit * 2 ^ 12 + tm.tid * 2 ^ 16
      let bad := w / 2 % 32 ≠ 0 ∨ w / 2 ^ 48 ≠ 0 ∨ ∃ j, 16 ≤ j ∧ j < 64 ∧ byte s.mem (d + j) ≠ 0
      (∀ q tq, r.kind = .rel → ¬ bad → w = mine → q.id ≠ r.id → q.ctx = r.ctx → q.unit < 16 → s.team? q.team = some tq →
        tq.tid < 2 ^ 32 →
        s.reqs.find? (fun q => q.kind == .acq && q.phase == .waiting && q.tgt.spot == r.tgt.spot) = some q →
        ∃ t, exec (.homeAccess r.id) s = .next t ∧
          eight t.mem d = 1 + q.ctx * 2 ^ 6 + q.unit * 2 ^ 12 + tq.tid * 2 ^ 16 ∧
          eight t.mem (d + 8) = (eight s.mem (d + 8) + 1) % 2 ^ 64 ∧
          (∀ a, a < d ∨ d + 16 ≤ a → byte t.mem a = byte s.mem a) ∧ t.teams = s.teams ∧
          Ev.releaseAcknowledged r.id ∈ t.ev.due ∧ Ev.acquireGrant q.id ∈ t.ev.due ∧
          ∃ v ∈ t.reqs, v.id = q.id ∧ v.phase = .served) ∧
      ((r.kind = .acq ∧ (bad ∨ w = mine)) ∨ (r.kind = .rel ∧ (bad ∨ w ≠ mine)) → ∀ p next, s.syncParty r = some (p, next) →
        ∃ info, exec (.homeAccess r.id) s = .next ((s.dropReq r.id).takeTrap p info) ∧ info.cause = 0x20 ∧ info.detail = 0x03 ∧
          info.addr = r.va)) ∧
  (
    ∀ (s : State) (r : Req) (e : Nat) (next : U64) (i : Instr),
      s.reqs.find? (fun q => q.id == r.id) = some r → r.phase = .served →
      (i = .acquireGrant r.id ∧ r.kind = .acq) ∨ (i = .releaseAcknowledged r.id ∧ r.kind = .rel) →
      s.syncParty r = some (⟨r.team, r.unit, e⟩, next) → s.trapImage r.team r.unit = none →
      ∃ t, exec i s = .next t ∧ (∀ q ∈ t.reqs, q.id ≠ r.id) ∧ t.mem = s.mem ∧
        t.grp r.team r.unit = ((s.grp r.team r.unit).updEntry e fun x => { x with park := none, pc := next }) ∧
        (r.kind = .acq → ∀ w, (t.core r.core).l1Word w = none) ∧ (r.kind = .rel → t.cores = s.cores))

/-- R175, R176, R434: `wait` goes on once its counters are at or below its immediates and parks until then; `fence` goes on once it
is over, and clears the context's words of the core's L1 at cluster scope and above; `bar` and `cbar` park at their barrier.
R176, R174: a fence is over only when no load of the group is outstanding, its Tideway operations have taken effect, and no store and
no granule of a remote operation that its scope covers has still to be performed: at team scope those to homes and to the team's own
share, from cluster scope on those to every scratchpad, at system scope also those to peers.
R434: a barrier that every group of the team (of the cluster) has reached completes: each parked fragment goes on after its own
barrier, nothing else of a group changes, and for `cbar` no core of the cluster keeps a valid word of the context.
Where a clause rests on a choice of the model, it is that of the assumption log, entries 25, 44. -/
def Obligations.WaitsFencesAndBarriers : Prop :=
  (
    ∀ (s : State) (x : Iss),
      (∀ l st c tl r : BitVec 4, Issues (.wait l st c tl r) 0 s x →
        let fits := fun (v : BitVec 4) (k : Cls) => v = 15 ∨ s.count x.p.team x.p.unit k ≤ v.toNat
        if fits l .load ∧ fits st .store ∧ fits c .copy ∧ fits tl .tile ∧ fits r .rop then Does (.wait l st c tl r) s x id
        else Turns (.wait l st c tl r) s x.p ((s.my x).updEntry x.p.entry fun e =>
          { e with park := some (.counters l.toNat st.toNat c.toNat tl.toNat r.toNat true) })) ∧
      (∀ k : BitVec 4, Issues (.fence k) 0 s x →
        if s.fenceOpen x.p.team x.p.unit k.toNat then ∃ t, exec (.fence k) s = .next t ∧ t.mem = s.mem ∧
          t.my x = (s.my x).advanced x.p.entry x.words x.next ∧
          ∀ w, (t.core (s.coreOf x.p.team)).l1Word w =
            if k ≠ 0 ∧ w / 2 ^ 54 = s.ctxOf x.p.team then none else (s.core (s.coreOf x.p.team)).l1Word w
        else Turns (.fence k) s x.p ((s.my x).updEntry x.p.entry fun e => { e with park := some (.fence k.toNat) })) ∧
      (∀ c : Bool, let i : Instr := if c then .cbar else .bar
        Issues i 0 s x → Turns i s x.p ((s.my x).updEntry x.p.entry fun e =>
          { e with park := some (if s.fenceOpen x.p.team x.p.unit (if c then 1 else 0) then .bar c x.next
            else .fence (if c then 1 else 0)) }))) ∧
  (
    ∀ (s : State) (u unit scope : Nat), s.fenceOpen u unit scope = true →
      s.count u unit .load = 0 ∧ s.tideBusy u unit = false ∧
      (∀ p ∈ s.pends, p.team = u → p.unit = unit → p.cls = .store → ∀ r ∈ s.reqs, r.tag = p.tag →
        ∃ q a, (r.tgt = .peer q a ∧ scope ≠ 4) ∨ (r.tgt = .spad q a ∧ scope = 0 ∧ q ≠ u)) ∧
      (∀ r ∈ s.rops, r.team = u → r.unit = unit → ∀ g ∈ r.grans,
        ∃ q a, (g.tgt = .peer q a ∧ scope ≠ 4) ∨ (g.tgt = .spad q a ∧ scope = 0 ∧ q ≠ u)) ∧
      (scope = 4 → ∀ r ∈ s.rops, r.team = u → r.unit = unit → r.grans = [])) ∧
  (
    ∀ (s : State) (u : Nat) (c : Bool) (tm : Team), s.team? u = some tm → s.barrierFull tm c = true →
      ∃ t, exec (.barrierCompletion u c) s = .next t ∧ t.mem = s.mem ∧ t.reqs.map (·.id) = s.reqs.map (·.id) ∧
        t.teams = s.teams.map (fun v =>
          if v.uid = tm.uid ∨ (c = true ∧ v.launch = tm.launch ∧ v.cluster = tm.cluster) then
            { v with groups := v.groups.map fun g => { g with split := g.split.map fun e =>
              match e.park with
              | some (.bar c' next) => if c' = c then { e with pc := next, park := none } else e
              | _ => e } }
          else v) ∧
        (c = true → ∀ v ∈ s.teams, v.launch = tm.launch → v.cluster = tm.cluster → ∀ w, w / 2 ^ 54 = s.ctxOf u →
          (t.core v.core).l1Word w = none))

/-- R178, R437: `tlr` reads an engine context's timeline; `tlw` goes on, with the context's words of L1 cleared, once the timeline is
at least n, and parks until then; TIMELINE_REACHED lets it go on; a reserved ENG traps ILLEGAL_OP 0x06.
R177: `bat` raises the group's batch number by 1, modulo 2^32, and writes it to s[d]; `wbat` goes on once no closed batch up to n
has an operation outstanding and parks until then; BATCH_COMPLETE lets it go on. -/
def Obligations.TimelinesAndBatches : Prop :=
  (
    ∀ (d a : BitVec 8) (k : BitVec 4) (s : State) (x : Iss) (tm : Team), s.team? x.p.team = some tm →
      let core := s.coreOf x.p.team
      let cleared := fun (t : State) => ∀ w, (t.core core).l1Word w =
        if w / 2 ^ 54 = s.ctxOf x.p.team then none else (s.core core).l1Word w
      (∀ g, s.engineOf tm k.toNat = some g →
        (Issues (.tlr d k) 0 s x → ∃ t, exec (.tlr d k) s = .next t ∧ Wrote s t x x.next (s.my x).vget
          (fun r => if r = d.toNat then BitVec.ofNat 64 g.timeline else (s.my x).sget r) (sget (s.my x).m)) ∧
        (Issues (.tlw a k) 0 s x →
          (((s.my x).sget a.toNat).toNat ≤ g.timeline → ∃ t, exec (.tlw a k) s = .next t ∧ cleared t ∧ t.mem = s.mem ∧
            t.my x = (s.my x).advanced x.p.entry x.words x.next) ∧
          (g.timeline < ((s.my x).sget a.toNat).toNat → Turns (.tlw a k) s x.p ((s.my x).updEntry x.p.entry fun e =>
            { e with park := some (.timeline k.toNat ((s.my x).sget a.toNat)) }))) ∧
        (∀ n e, ((s.my x).entry e).park = some (.timeline k.toNat n) → n.toNat ≤ g.timeline → s.trapImage x.p.team x.p.unit = none →
          ∃ t, exec (.timelineReached x.p.team x.p.unit e) s = .next t ∧ cleared t ∧ t.mem = s.mem ∧
            t.my x = (s.my x).updEntry e fun v => { v with park := none, pc := v.pc + 4 })) ∧
      (s.engineOf tm k.toNat = none →
        (Issues (.tlr d k) 0 s x → exec (.tlr d k) s = .next (s.trap 0x20 0x06)) ∧
        (Issues (.tlw a k) 0 s x → exec (.tlw a k) s = .next (s.trap 0x20 0x06)))) ∧
  (
    ∀ (p : Pfx) (d a : BitVec 8) (s : State) (x : Iss),
      (Issues (.bat p d) p.mask s x → x.mask ≠ 0 → Does (.bat p d) s x fun g =>
        ({ g with batch := g.batch + 1 } : Grp).sput d.toNat (BitVec.ofNat 64 (g.batch + 1).toNat)) ∧
      (Issues (.wbat a) 0 s x →
        let n := BitVec.ofNat 32 ((s.my x).sget a.toNat).toNat
        if s.batchBusy x.p.team x.p.unit n then Turns (.wbat a) s x.p ((s.my x).updEntry x.p.entry fun e =>
          { e with park := some (.batch n) })
        else Does (.wbat a) s x id) ∧
      (∀ e n, ((s.my x).entry e).park = some (.batch n) → s.batchBusy x.p.team x.p.unit n = false →
        s.trapImage x.p.team x.p.unit = none → ∃ t, exec (.batchComplete x.p.team x.p.unit e) s = .next t ∧ t.mem = s.mem ∧
          t.my x = (s.my x).updEntry e fun v => { v with park := none, pc := v.pc + 4 }))

/-! ### Tideway -/

/-- R259, R444-R447: a Tideway instruction joins its station's queue with the low 16 bits of s[a] as tag and the
bytes of s[d].. that it brings (64 for `board`, a rewrite's operand); `board`, `alight`, `catch`
and `rwr.r` then hold their fragment, `rwr` goes on and enters a region. A full queue of 16 holds issue; a misaligned rewrite traps
ALIGN with the offset; in a launch without slots `board` gives flag 2 at once.
R261: what a rewrite makes of the old bytes of a slot's payload, by code, with operand bytes x (code 7: compare value, then new
value; code 8: byte by byte).
Where a clause rests on a choice of the model, it is that of the assumption log, entry 34. -/
def Obligations.TidewayInstructionsJoin : Prop :=
  (
    ∀ (d a : BitVec 8) (c : BitVec 4) (s : State) (x : Iss) (i : Instr) (kind : TideKind) (w : Launch),
      (i = .board d a ∧ kind = .board) ∨ (i = .alight d a ∧ kind = .alight) ∨ (i = .catch d a ∧ kind = .catch_) ∨
        (i = .rwr d a c ∧ kind = .rwr c.toNat false) ∨ (i = .rwrR d a c ∧ kind = .rwr c.toNat true) →
      Issues i 0 s x → s.launchOf x.p.team = some w →
      let core := s.coreOf x.p.team
      let v := ((s.my x).sget a.toNat).toNat
      let off := v / 2 ^ 16 % 64
      let rewrite := i = .rwr d a c ∨ i = .rwrR d a c
      let width := if c = 1 ∨ c = 6 ∨ c = 7 then 8 else if c = 8 then 64 else 4
      (rewrite → off % width ≠ 0 → exec i s = .next (s.trap 0x24 0x00 off)) ∧
      (kind = .board → w.lr.ring = 0 → Does i s x fun g =>
        ({ g with rgnPc := x.next, rgnc := g.rgnc + 1 } : Grp).sput a.toNat (BitVec.ofNat 64 (v % 2 ^ 22 + 2 * 2 ^ 32))) ∧
      ((rewrite → off % width = 0) → (kind = .board → w.lr.ring ≠ 0) →
        (16 ≤ (s.core core).station.length → exec i s = .next s) ∧
        ((s.core core).station.length < 16 → ∃ t o, exec i s = .next t ∧ (t.core core).station.length =
            (s.core core).station.length + 1 ∧ (t.core core).station.getLast? = some o ∧ o.id = s.nextId ∧ o.team = x.p.team ∧
          o.unit = x.p.unit ∧ o.ctx = s.ctxOf x.p.team ∧ o.launch = w.id ∧ o.kind = kind ∧ o.tag.toNat = v % 2 ^ 16 ∧
          o.off = off ∧ o.regA = a.toNat ∧ o.regX = d.toNat ∧
          (∀ n, (kind = .board ∧ n = 64) ∨ (rewrite ∧ n = if c = 7 then 16 else width) → o.x = (List.range n).map fun j =>
            BitVec.ofNat 8 (((s.my x).sget (d.toNat + j / 8)).toNat / 256 ^ (j % 8))) ∧
          t.ring = s.ring ∧ t.mem = s.mem ∧
          (i ≠ .rwr d a c → t.my x = (s.my x).updEntry x.p.entry fun e => { e with park := some (.tide s.nextId) }) ∧
          (i = .rwr d a c → t.my x = { ((s.my x).advanced x.p.entry x.words x.next) with
            rgnPc := x.next, rgnc := (s.my x).rgnc + 1 })))) ∧
  (
    ∀ (old x : List Byte) (c : Nat), c ≤ 9 →
      let w := if c = 1 ∨ c = 6 ∨ c = 7 then 8 else if c = 8 then 64 else 4
      old.length = w → x.length = (if c = 7 then 16 else w) →
      let o := leNat old
      let y := leNat (x.take w)
      let signed := fun (k : Nat) => if k < 2 ^ 31 then (k : Int) else (k : Int) - 2 ^ 32
      (c = 0 → rwrNew c old x = leBytes 4 ((o + y) % 2 ^ 32)) ∧
      (c = 1 → rwrNew c old x = leBytes 8 ((o + y) % 2 ^ 64)) ∧
      (c = 2 → rwrNew c old x = leBytes 4 (if signed o ≤ signed y then o else y)) ∧
      (c = 3 → rwrNew c old x = leBytes 4 (if signed y ≤ signed o then o else y)) ∧
      (c = 4 → rwrNew c old x = leBytes 4 (min o y)) ∧
      (c = 5 → rwrNew c old x = leBytes 4 (max o y)) ∧
      (c = 6 → rwrNew c old x = x) ∧
      (c = 7 → rwrNew c old x = if o = y then x.drop 8 else old) ∧
      (c = 8 → ∀ j, j < 64 → ((rwrNew c old x).getD j 0).toNat = max (old.getD j 0).toNat (x.getD j 0).toNat) ∧
      (c = 9 → rwrNew c old x = leBytes 4 (fp32.fadd 0 o y)))

/-- R260, R259, R445, R446: where the slot at a core's station matches its one queued operation: `board` takes a free slot of its
launch, `alight` empties the slot and brings its payload to s[d].., `catch` only brings it; flag 0 goes to s[a] and the group goes
on behind its instruction with a region entered.
R261, R446: a rewrite puts what it makes of the old bytes at its offset of the payload and leaves the rest of the slot; `rwr.r` then
brings the old bytes to s[d].., 4 bytes zero-extended, with flag 0 in s[a], and its group goes on; `rwr` changes nothing else.
R262, R447: an operation whose window of 2,176 clk has passed leaves the station: its group goes on with flag 1 (2 for
`board`) in s[a]; for `rwr` TWST.NOTAG is set.
R448, R265: `mstone` writes its station's copy of TWREV to s[d].
Where a clause rests on a choice of the model, it is that of the assumption log, entry 34. -/
def Obligations.SlotsServeTheStation : Prop :=
  (
    ∀ (s : State) (core : Nat) (o : TideOp) (v : Slot),
      (s.core core).station = [o] → s.ring.slots.find? (fun y => y.n == slotAt s.ring.t (stationPos core)) = some v →
      v.n = slotAt s.ring.t (stationPos core) → v.asg = true → (o.kind = .board → v.rel = false) →
      (s.entry ⟨o.team, o.unit, o.entry⟩).park = some (.tide o.id) → s.trapImage o.team o.unit = none →
      ¬ (o.regX ≤ o.regA ∧ o.regA < o.regX + 8) →
      let g := s.grp o.team o.unit
      let pc := (g.entry o.entry).pc + 4
      let word := fun (i : Nat) => BitVec.ofNat 64 (v.payload.toNat / 2 ^ (64 * i) % 2 ^ 64)
      ∀ new : Slot,
        (o.kind = .board ∧ v.launch = o.launch ∧ v.occ = false ∧
            new = { v with occ := true, tag := o.tag, payload := BitVec.ofNat 512 (leNat o.x) }) ∨
          (v.ctx = o.ctx ∧ v.occ = true ∧ v.tag = o.tag ∧
            ((o.kind = .alight ∧ new = { v with occ := false, tag := 0, payload := 0 }) ∨ (o.kind = .catch_ ∧ new = v))) →
        ∃ t, exec (.slotPass core) s = .next t ∧ (t.core core).station = [] ∧
          t.ring.slots = s.ring.slots.map (fun y => if y.n = v.n then new else y) ∧ t.mem = s.mem ∧
          ((t.grp o.team o.unit).entry o.entry).pc = pc ∧ ((t.grp o.team o.unit).entry o.entry).park = none ∧
          (t.grp o.team o.unit).rgnPc = pc ∧ (t.grp o.team o.unit).rgnc = g.rgnc + 1 ∧
          (t.grp o.team o.unit).sget o.regA = BitVec.ofNat 64 ((g.sget o.regA).toNat % 2 ^ 22) ∧
          (o.kind ≠ .board → ∀ i, i < 8 → (t.grp o.team o.unit).sget (o.regX + i) = word i) ∧
          (∀ r, r ≠ o.regA → (o.kind = .board ∨ r < o.regX ∨ o.regX + 8 ≤ r) → (t.grp o.team o.unit).sget r = g.sget r)) ∧
  (
    ∀ (s : State) (core : Nat) (o : TideOp) (v : Slot) (c : Nat) (ret : Bool),
      (s.core core).station = [o] → s.ring.slots.find? (fun y => y.n == slotAt s.ring.t (stationPos core)) = some v →
      v.n = slotAt s.ring.t (stationPos core) → v.asg = true → v.ctx = o.ctx → v.occ = true → v.tag = o.tag →
      o.kind = .rwr c ret → c ≤ 9 →
      let w := if c = 1 ∨ c = 6 ∨ c = 7 then 8 else if c = 8 then 64 else 4
      o.off + w ≤ 64 → o.x.length = (if c = 7 then 16 else w) →
      let g := s.grp o.team o.unit
      let pay := leBytes 64 v.payload.toNat
      let old := (pay.drop o.off).take w
      let new := { v with payload := BitVec.ofNat 512 (leNat (pay.take o.off ++ rwrNew c old o.x ++ pay.drop (o.off + w))) }
      ((ret = true → (s.entry ⟨o.team, o.unit, o.entry⟩).park = some (.tide o.id) ∧ s.trapImage o.team o.unit = none ∧
          ¬ (o.regX ≤ o.regA ∧ o.regA < o.regX + 8)) →
        ∃ t, exec (.slotPass core) s = .next t ∧ (t.core core).station = [] ∧ t.mem = s.mem ∧
          t.ring.slots = s.ring.slots.map (fun y => if y.n = v.n then new else y) ∧
          (ret = false → t.teams = s.teams) ∧
          (ret = true → let h := t.grp o.team o.unit
            let pc := (g.entry o.entry).pc + 4
            (h.entry o.entry).pc = pc ∧ (h.entry o.entry).park = none ∧ h.rgnPc = pc ∧ h.rgnc = g.rgnc + 1 ∧
            h.sget o.regA = BitVec.ofNat 64 ((g.sget o.regA).toNat % 2 ^ 22) ∧
            (∀ i, i < (w + 7) / 8 → h.sget (o.regX + i) = BitVec.ofNat 64 (leNat ((old.drop (8 * i)).take 8))) ∧
            ∀ r, r ≠ o.regA → r < o.regX ∨ o.regX + (w + 7) / 8 ≤ r → h.sget r = g.sget r))) ∧
  (
    ∀ (s : State) (core : Nat) (o : TideOp) (w : Nat),
      (s.core core).station.find? (fun y => y.id == o.id) = some o → o.win = some w → w + 2176 ≤ s.clk →
      s.trapImage o.team o.unit = none → (s.grp o.team o.unit).st = .live →
      (o.returns = true → (s.entry ⟨o.team, o.unit, o.entry⟩).park = some (.tide o.id) →
        ∃ t, exec (.notag core o.id) s = .next t ∧ (∀ y ∈ (t.core core).station, y.id ≠ o.id) ∧
          (t.grp o.team o.unit).sget o.regA = BitVec.ofNat 64 (((s.grp o.team o.unit).sget o.regA).toNat % 2 ^ 22 +
            (if o.kind = .board then 2 else 1) * 2 ^ 32) ∧
          ((t.grp o.team o.unit).entry o.entry).park = none ∧ t.ring = s.ring ∧ t.mem = s.mem) ∧
      (o.returns = false → ∃ t, exec (.notag core o.id) s = .next t ∧ (∀ y ∈ (t.core core).station, y.id ≠ o.id) ∧
        (t.grp o.team o.unit).notag = true ∧ (t.grp o.team o.unit).s = (s.grp o.team o.unit).s ∧ t.ring = s.ring ∧ t.mem = s.mem)) ∧
  (
    ∀ d : BitVec 8, ∀ (s : State) (x : Iss), Issues (.mstone d) 0 s x →
      ∃ t, exec (.mstone d) s = .next t ∧ Wrote s t x x.next (s.my x).vget
        (fun r => if r = d.toNat then BitVec.ofNat 64 (twrev s.ring.t (s.coreOf x.p.team)) else (s.my x).sget r) (sget (s.my x).m))

/-! ### Pilot -/

/-- R383, R384: `emit` appends the word in p[a] to the open run, `emitx` p[d]'s with one field replaced by the low bits of p[a]; the
25th word only marks the run over-long; a field code that does not suit the word's length traps ILLEGAL_OP 0x00.
R385, R133, R135: `ecl` and `ecln` close a well-formed open run into a queue with a free place: the run takes the trailer bytes
before 0xFF and the next sequence number, and a new run is open; on a full queue the pilot parks at `ecl`, and `ecln` writes 0. A close
that fails traps EMIT_BAD with the first failure's detail and drops the run.
R133, R362, R510, R328: an empty or over-long run fails a close with EMIT_BAD 0x01, a body of one forbidden control word with
0x00, a trailer of a w register with 0x02, a trailer register from VREGS on with 0x11; one legal word closes.
R385: the end of a stall lets the pilot's `ecl` act again.
Where a clause rests on a choice of the model, it is that of the assumption log, entry 19. -/
def Obligations.EmitAndClose : Prop :=
  (
    ∀ (d a : BitVec 8) (c : BitVec 4) (s : State) (x : Iss),
      let v := fun (r : BitVec 8) => ((s.my x).sget r.toNat).toNat
      let long := fun (r : BitVec 8) => v r % 2 = 1
      let word := fun (r : BitVec 8) => if v r % 2 = 1 then v r % 2 ^ 32 else v r % 2 ^ 16
      let adds := fun (i : Instr) (l : Bool) (w : Nat) => ∃ t, exec i s = .next t ∧ t.my x = (s.my x).advanced x.p.entry x.words x.next ∧
        (∀ tm, s.team? x.p.team = some tm → ∃ tm', t.team? x.p.team = some tm' ∧ tm'.queues = tm.queues ∧ tm'.pseq = tm.pseq ∧
          tm'.openRun = if 24 ≤ tm.openRun.words.length then { tm.openRun with overLong := true }
            else { tm.openRun with words := tm.openRun.words ++ [(l, BitVec.ofNat 32 w)] }) ∧ t.mem = s.mem
      let field : Nat × Nat := if c = 0 then (7, 8) else if c = 1 then (15, 8) else if c = 2 then (23, 8) else if c = 3 then (23, 9)
        else if c = 4 then (23, 5) else if c = 5 then (28, 4) else if c = 6 then (5, 6) else if c = 7 then (11, 5) else (7, 25)
      let put := fun (w y : Nat) => w - w / 2 ^ field.1 % 2 ^ field.2 * 2 ^ field.1 + y % 2 ^ field.2 * 2 ^ field.1
      (Issues (.emit a) 0 s x → adds (.emit a) (long a) (word a)) ∧
      (Issues (.emitx d a c) 0 s x →
        if c.toNat < 9 ∧ (long d ↔ c ≠ 6 ∧ c ≠ 7) then adds (.emitx d a c) (long d) (put (word d) (v a))
        else exec (.emitx d a c) s = .next (s.trap 0x20 0x00))) ∧
  (
    ∀ (d a : BitVec 8) (q : BitVec 2) (s : State) (x : Iss) (tm : Team) (n : Bool),
      let i : Instr := if n then .ecln d a q else .ecl a q
      Issues i 0 s x → s.team? x.p.team = some tm →
      let v := (s.my x).sget a.toNat
      (closeFault tm.openRun (trailerOf v) tm.vregs tm.acc = none →
        (s.queueFill tm q.toNat < 8 → q.toNat < tm.queues.length → ∃ t tm' r, exec i s = .next t ∧ t.team? x.p.team = some tm' ∧
          r.words = tm.openRun.words ∧ r.trailer = (leBytes 8 v.toNat).takeWhile (· != 0xFF) ∧ r.seq = tm.pseq ∧ r.pc = x.at_ ∧
          tm'.queues.getD q.toNat [] = tm.queues.getD q.toNat [] ++ [r] ∧
          (∀ j, j ≠ q.toNat → tm'.queues.getD j [] = tm.queues.getD j []) ∧ tm'.pseq = tm.pseq + 1 ∧
          tm'.openRun.words = [] ∧ tm'.openRun.overLong = false ∧
          (n = true → (t.my x).sget d.toNat = BitVec.ofNat 64 (tm.pseq.toNat * 2 ^ 32 + 1)) ∧ t.mem = s.mem) ∧
        (8 ≤ s.queueFill tm q.toNat →
          (n = false → Turns i s x.p ((s.my x).updEntry x.p.entry fun e => { e with park := some (.ecl q.toNat) })) ∧
          (n = true → Does i s x fun g => g.sput d.toNat 0))) ∧
      (∀ detail, closeFault tm.openRun (trailerOf v) tm.vregs tm.acc = some detail → ∃ info,
        exec i s = .next ((s.updTeam x.p.team fun t => { t with openRun := RunRec.none }).takeTrap x.p info) ∧
          info.cause = 0x23 ∧ info.detail = detail ∧ info.fpc = x.at_ ∧ info.resume = x.next)) ∧
  (
    ∀ (r : RunRec) (tr : List Nat) (vregs acc : Nat), vregs ≤ 248 →
      (r.overLong = true ∨ r.words = [] → closeFault r tr vregs acc = some 0x01) ∧
      (r.overLong = false → r.words = [(true, 0x800055#32)] → closeFault r tr vregs acc = some 0x00) ∧
      (r.overLong = false → r.words = [(true, 0x55#32)] →
        ((∀ k ∈ tr, k < vregs) → closeFault r tr vregs acc = none) ∧
        (∀ k rest, tr = k :: rest → 248 ≤ k → k < 255 → closeFault r tr vregs acc = some 0x02) ∧
        (∀ k, tr = [255, k] → k ≠ 255 → closeFault r tr vregs acc = some 0x02) ∧
        (∀ k, tr = [k] → vregs ≤ k → k < 248 → closeFault r tr vregs acc = some 0x11))) ∧
  (
    ∀ (s : State) (u : Nat), Turns (.eclStallEnd u) s ⟨u, 17, 0⟩
      ((s.grp u 17).updEntry 0 fun e => { e with park := none }))

/-- R386: `eqfree pD, q` writes 8 - FILL of queue q to p[D], as the queue stood at the start of the clk: without the runs that have been
closed in this clk, and with those taken in it. -/
def Obligations.EqfreeWritesFreePlaces : Prop :=
  ∀ (d : BitVec 8) (q : BitVec 2) (s : State) (x : Iss) (tm : Team), Issues (.eqfree d q) 0 s x → s.team? x.p.team = some tm →
    let fill := ((tm.queues.getD q.toNat []).filter fun r => r.born < s.clk).length +
      (tm.taken.filter fun e => e.1 == q.toNat && e.2 == s.clk).length
    ∃ t, exec (.eqfree d q) s = .next t ∧ Wrote s t x x.next (s.my x).vget
      (fun r => if r = d.toNat then BitVec.ofNat 64 (8 - fill) else (s.my x).sget r) (sget (s.my x).m)

/-! ### Summaries and exact sums -/

/-- R466, R467: a summary instruction with an active lane whose addresses pass their checks and translate goes on and holds its group,
and its fragment, until its summaries have been read; no register and no memory changes until then. A misaligned address traps ALIGN
0x00; with no active lane nothing happens.
R468, R469, R471, R234: the inserts of the active lanes apply in lane order; `skm` merges s[a]'s summary into s[d]'s; `skqv` queries for
each active lane; `sktop` gives an active lane the key, count and error of the entry of its number, or 0 beyond the last.
R467-R471: when a summary instruction's reads are back, `skd`, `skh`, `skq` and `skm` write their new summary by a store of the
whole of it, `skqv` and `sktop` write lanes and `skest` s[d]; a malformed summary traps ILLEGAL_OP 0x05 and nothing is written.
Where a clause rests on a choice of the model, it is that of the assumption log, entries 21, 63. -/
def Obligations.SummaryInstructions : Prop :=
  (
    ∀ (p : Pfx) (d a : BitVec 8) (k : BitVec 2) (w sp : Bool) (s : State) (x : Iss) (l : Launch) (i : Instr) (n : Nat) (regs : List Nat),
      (i = .skd p d a w sp ∧ n = 256 ∧ regs = [a.toNat]) ∨ (i = .skh p d a w sp ∧ n = 256 ∧ regs = [a.toNat]) ∨
        (i = .skq p d a sp ∧ n = 1024 ∧ regs = [a.toNat]) ∨
        (i = .skm p d a k sp ∧ n = (if k.toNat < 2 then 256 else 1024) ∧ regs = [d.toNat, a.toNat]) ∨
        (i = .skqv p d a sp ∧ n = 1024 ∧ regs = [a.toNat]) ∨ (i = .skest p d a sp ∧ n = 256 ∧ regs = [a.toNat]) ∨
        (i = .sktop p d a sp ∧ n = 256 ∧ regs = [a.toNat]) →
      Issues i p.mask s x → Fresh s → s.launchOf x.p.team = some l →
      let at_ := fun (r : Nat) => ((s.my x).sget r).toNat
      (x.mask = 0 → Does i s x id) ∧
      (x.mask ≠ 0 → ∀ r, regs.find? (fun r => at_ r % n != 0) = some r → exec i s = .next (s.trap 0x24 0x00 (at_ r))) ∧
      (x.mask ≠ 0 → (∀ r ∈ regs, at_ r % n = 0) →
        ((sp = true ∧ ∀ r ∈ regs, at_ r < 2 ^ 32 ∧ ∃ u o, s.spadAt x.p.team (at_ r) n = .at_ u o) ∨
          (sp = false ∧ ∀ v, v ∈ [s, (regs.take 1).foldl (fun s r => s.warm l (at_ r)) s,
              regs.foldl (fun s r => s.warm l (at_ r)) s] → ∀ r ∈ regs, ∀ wr, ∃ tgt,
            v.translateFor x.p.team x.p.unit (at_ r) wr = .ok tgt)) →
        ∃ t q, exec i s = .next t ∧ q ∈ t.pends ∧ q.tag = s.nextId ∧ q.act = .summary i x.mask ∧ q.holds = true ∧
          q.lanes.map (·.2) = regs.map at_ ∧ t.mem = s.mem ∧
          t.my x = ((s.my x).advanced x.p.entry x.words x.next).updEntry x.p.entry fun e => { e with park := some (.read s.nextId) })) ∧
  (
    ∀ (p : Pfx) (d a : BitVec 8) (k : BitVec 2) (w sp : Bool) (g : Grp) (mask : LaneMask) (bs src : List Byte),
      let key := fun (l : Nat) => (g.vget d.toNat l).toNat
      let weight := fun (l : Nat) => if w then (g.vget (d.toNat + 1) l).toNat else 1
      let lanes := lanesOf mask
      sumEffect (.skd p d a w sp) g mask bs src = some (.bytes (lanes.foldl
        (fun b l => dcrInsert b (BitVec.ofNat 64 (key l + if w then (g.vget (d.toNat + 1) l).toNat * 2 ^ 32 else 0))) bs)) ∧
      sumEffect (.skest p d a sp) g mask bs src = some (.uniform d.toNat (BitVec.ofNat 64 (dcrEstimate bs))) ∧
      (hhlOf bs = none → sumEffect (.skh p d a w sp) g mask bs src = none ∧ sumEffect (.sktop p d a sp) g mask bs src = none) ∧
      (∀ h, hhlOf bs = some h →
        sumEffect (.skh p d a w sp) g mask bs src = some (.bytes (lanes.foldl (fun h l => h.insert (key l) (weight l)) h).bytes) ∧
        ∃ out, sumEffect (.sktop p d a sp) g mask bs src = some (.regs out) ∧ out.length = 3 * lanes.length ∧
          ∀ l ∈ lanes, let e := h.entries.getD l ⟨0, 0, 0⟩
            (d.toNat, l, BitVec.ofNat 32 e.key) ∈ out ∧ (d.toNat + 1, l, BitVec.ofNat 32 e.count) ∈ out ∧
            (d.toNat + 2, l, BitVec.ofNat 32 e.err) ∈ out) ∧
      (qskOf bs = none → sumEffect (.skq p d a sp) g mask bs src = none ∧ sumEffect (.skqv p d a sp) g mask bs src = none) ∧
      (∀ h, qskOf bs = some h →
        sumEffect (.skq p d a sp) g mask bs src = some (.bytes (lanes.foldl (fun h l => h.insert (key l)) h).bytes) ∧
        sumEffect (.skqv p d a sp) g mask bs src =
          some (.regs (lanes.map fun l => (d.toNat, l, BitVec.ofNat 32 (h.quantile (key l)))))) ∧
      (k = 0 → sumEffect (.skm p d a k sp) g mask bs src = some (.bytes (dcrMerge bs src))) ∧
      (k = 1 → sumEffect (.skm p d a k sp) g mask bs src =
        match hhlOf bs, hhlOf src with
        | some x, some y => some (.bytes (x.merge y).bytes)
        | _, _ => none) ∧
      (k = 2 → sumEffect (.skm p d a k sp) g mask bs src =
        match qskOf bs, qskOf src with
        | some x, some y => some (.bytes (x.merge y).bytes)
        | _, _ => none)) ∧
  (
    ∀ (s : State) (q : Pend) (i : Instr) (mask : LaneMask),
      s.pends.find? (fun p => p.tag == q.tag) = some q → q.act = .summary i mask → (∀ r ∈ s.reqs, r.tag ≠ q.tag) →
      s.trapImage q.team q.unit = none → (s.grp q.team q.unit).st = .live → Fresh s →
      let g := s.grp q.team q.unit
      let at_ := fun (k : Nat) => ((q.lanes.map (·.2)).getD k 0)
      let n := (sumForm i).1
      let effect := sumEffect i g mask (getBytes q.got (at_ 0) n) (getBytes q.got (at_ 1) n)
      (∀ d v, effect = some (.uniform d v) → ∃ t, exec (.loadCompletion q.tag) s = .next t ∧ (t.grp q.team q.unit).sget d = v ∧
        (∀ r, r ≠ d → (t.grp q.team q.unit).sget r = g.sget r) ∧ (∀ p ∈ t.pends, p.tag ≠ q.tag) ∧ t.mem = s.mem) ∧
      (∀ l, effect = some (.regs l) → ∃ t, exec (.loadCompletion q.tag) s = .next t ∧
        (∀ r j, r < 248 → j < 64 → (∀ v, (r, j, v) ∉ l) → (t.grp q.team q.unit).vget r j = g.vget r j) ∧
        (∀ r j v, r < 248 → j < 64 → (r, j, v) ∈ l → (∀ v', (r, j, v') ∈ l → v' = v) → (t.grp q.team q.unit).vget r j = v) ∧
        (t.grp q.team q.unit).s = g.s ∧ (∀ p ∈ t.pends, p.tag ≠ q.tag) ∧ t.mem = s.mem) ∧
      (∀ bs tgt, effect = some (.bytes bs) → (sumForm i).2 = false → bs.length = n → n ≠ 0 →
        s.translateFor q.team q.unit (at_ 0) true = .ok tgt →
        ∃ t v, exec (.loadCompletion q.tag) s = .next t ∧ v ∈ t.pends ∧ v.cls = .store ∧ v.tag = s.nextId ∧
          (∀ j, j < n → ∃ r ∈ t.reqs, r.tag = v.tag ∧ ∃ ws o, r.kind = .write ws ∧ (o, bs.getD j 0) ∈ ws ∧ r.va + o = at_ 0 + j) ∧
          (∀ p ∈ t.pends, p.tag ≠ q.tag) ∧ t.mem = s.mem) ∧
      (effect = none → ∃ info, exec (.loadCompletion q.tag) s =
        .next (({ s with pends := s.pends.filter fun p => p.tag != q.tag }.wakeRead q.team q.unit q.tag).takeTrapAt q.team q.unit
          q.entry info) ∧ info.cause = 0x20 ∧ info.detail = 0x05 ∧ info.addr = at_ 0))

/-- R238, R239, R233: a DCR insert raises the key's bucket to its rank where that is higher, and a merge takes the greater of each
pair of buckets, a byte above 57 reading as 57; so merging is commutative, associative, and idempotent on buckets.
R240: the estimate of the empty DCR is +0, that of the rule's example 256 times ln(128/127) in FP32, and with no empty bucket and all of
one rank k it is 47,072 x 2^(k - 8) rounded once.
R242, R241: an HHL insert of weight 0 does nothing; any other adds to TOTAL and to the key's count, or takes a free entry, or replaces
the entry of the least count and then the least key, which becomes the error; the entries stay sorted. R243: a merge is commutative, adds
the counts and errors that the two lists know, and keeps the first 20 keys in the list's order.
R246-R248: a QSK insert of a NaN only counts it; any other counts in N and goes to level 0, which compacts when it is full: every other
item in order, from the coin's bit on, moves up at twice the weight; no weight is lost below level 7. A merge that fills no level appends
level by level. R249: a quantile is the held item at which the running weight reaches q times the weight, and NaN where the rule says.
R232, R237, R241, R245, R470: `sksd` writes the empty summary of its kind at s[a]: zeros for a DCR, an HHL without entries, a QSK
without items whose coin comes from the seed in s[d]; each is well formed.
R226-R229: a half-line keeps its value through its bytes; adding an FP32 value is exact in units of 2^-149 and modulo 2^320 with
OVF past the range, infinities are counted and a NaN marks NAN; a sum with NAN, OVF or infinities of both
signs rounds to the NaN, one with infinities of one sign to that infinity, and a zero sum to +0. -/
def Obligations.SummaryAndSumValues : Prop :=
  (
    ∀ (a b c : List Byte) (k : BitVec 64), a.length = 256 → b.length = 256 → c.length = 256 →
      let cap := fun (x : Byte) => min x.toNat 57
      (dcrInsert a k).length = 256 ∧
      (∀ j, j < 256 → cap ((dcrInsert a k).getD j 0) =
        if j = (h64 k).toNat / 2 ^ 56 then max (cap (a.getD j 0)) (dcrRank k) else cap (a.getD j 0)) ∧
      (dcrMerge a b).length = 256 ∧ (∀ j, j < 256 → ((dcrMerge a b).getD j 0).toNat = max (cap (a.getD j 0)) (cap (b.getD j 0))) ∧
      dcrMerge a b = dcrMerge b a ∧ dcrMerge (dcrMerge a b) c = dcrMerge a (dcrMerge b c) ∧
      dcrMerge a (dcrMerge a b) = dcrMerge a b ∧ (1 ≤ dcrRank k ∧ dcrRank k ≤ 57)) ∧
  (
    dcrEstimate (List.replicate 256 0) = 0 ∧
    dcrEstimate (List.replicate 5 0 ++ [3] ++ List.replicate 194 0 ++ [1] ++ List.replicate 55 0) = 0x400080AC ∧
    (∀ (bs : List Byte) (k : Nat), bs.length = 256 → 1 ≤ k → (∀ b ∈ bs, min b.toNat 57 = k) →
      dcrEstimate bs = fp32.enc 0 (.fin false 47072 (k - 8)))) ∧
  (
    (∀ (h : Hhl) (k w : Nat), h.insert k 0 = h ∧
      (0 < w → k < 2 ^ 32 → (h.entries.map (·.key)).Nodup → h.entries.length ≤ 20 →
        (∀ e ∈ h.entries, e.key < 2 ^ 32 ∧ e.count < 2 ^ 32) →
        let t := h.insert k w
        let cap := fun (n : Nat) => min n (2 ^ 32 - 1)
        t.total = min (h.total + w) (2 ^ 64 - 1) ∧ rising HhlEntry.before t.entries = true ∧
        ((∃ e ∈ h.entries, e.key = k) → ∀ e, e ∈ t.entries ↔
          (e ∈ h.entries ∧ e.key ≠ k) ∨ ∃ o ∈ h.entries, o.key = k ∧ e = { o with count := cap (o.count + w) }) ∧
        ((∀ e ∈ h.entries, e.key ≠ k) → h.entries.length < 20 → ∀ e, e ∈ t.entries ↔ e ∈ h.entries ∨ e = ⟨k, w, 0⟩) ∧
        ((∀ e ∈ h.entries, e.key ≠ k) → h.entries.length = 20 → ∃ j ∈ h.entries,
          (∀ e ∈ h.entries, j.count < e.count ∨ j.count = e.count ∧ j.key ≤ e.key) ∧
          ∀ e, e ∈ t.entries ↔ (e ∈ h.entries ∧ e ≠ j) ∨ e = ⟨k, cap (j.count + w), j.count⟩))) ∧
    (∀ h g : Hhl, (∀ l ∈ [h, g], (l.entries.map (·.key)).Nodup ∧ l.entries.length ≤ 20 ∧ ∀ e ∈ l.entries, e.count < 2 ^ 32) →
      let t := h.merge g
      let cap := fun (n : Nat) => min n (2 ^ 32 - 1)
      let both := fun (k : Nat) => (cap ((h.look k).1 + (g.look k).1), cap ((h.look k).2 + (g.look k).2))
      let used := fun (k : Nat) => ∃ e ∈ h.entries ++ g.entries, e.key = k
      t = g.merge h ∧ t.total = min (h.total + g.total) (2 ^ 64 - 1) ∧ t.entries.length ≤ 20 ∧
      rising HhlEntry.before t.entries = true ∧ (∀ e ∈ t.entries, used e.key ∧ (e.count, e.err) = both e.key) ∧
      (∀ k, used k → (∀ e ∈ t.entries, e.key ≠ k) → t.entries.length = 20 ∧
        ∀ e ∈ t.entries, (both k).1 < e.count ∨ (both k).1 = e.count ∧ e.key < k) ∧
      (∀ e ∈ h.entries, h.look e.key = (e.count, e.err)) ∧
      ∀ k, (∀ e ∈ h.entries, e.key ≠ k) → (h.entries.length < 20 → h.look k = (0, 0)) ∧
        (h.entries.length = 20 → ∃ e ∈ h.entries, h.look k = (e.count, e.count) ∧ ∀ o ∈ h.entries, e.count ≤ o.count))) ∧
  (
    let ok := fun (h : Qsk) => h.levels.length = 8 ∧ ∀ l, l < 8 → (h.level l).length < qskCap l ∧ ∀ x ∈ h.level l, x < 2 ^ 32
    let order := fun (x : Nat) => if 2 ^ 31 ≤ x then -((x - 2 ^ 31 : Nat) : Int) - 1 else (x : Int)
    let weight := fun (h : Qsk) (f : Nat → Bool) => ((List.range 8).map fun l => 2 ^ l * (h.level l).countP f).sum
    (∀ (h : Qsk) (x : Nat), ok h → x < 2 ^ 32 →
      (0x7F800000 < x % 2 ^ 31 → h.insert x = { h with nans := min (h.nans + 1) (2 ^ 32 - 1) }) ∧
      (x % 2 ^ 31 ≤ 0x7F800000 → let t := h.insert x
        t.n = min (h.n + 1) (2 ^ 64 - 1) ∧ t.nans = h.nans ∧ ok t ∧
        ((h.level 7).length < 8 → weight t (fun _ => true) = weight h (fun _ => true) + 1) ∧
        ((h.level 0).length < 63 → t.coin = h.coin ∧ t.level 0 = h.level 0 ++ [x] ∧ ∀ l, 0 < l → t.level l = h.level l) ∧
        ((h.level 0).length = 63 → (h.level 1).length < 16 → t.coin = coinStep h.coin ∧ t.level 0 = [] ∧
          (∀ l, 1 < l → t.level l = h.level l) ∧ ∃ y : List Nat, y.Perm (h.level 0 ++ [x]) ∧
            y.Pairwise (fun a b => order a ≤ order b) ∧
            t.level 1 = h.level 1 ++ (List.range 32).map fun i => y.getD (2 * i + if (coinStep h.coin).getLsbD 0 then 1 else 0) 0))) ∧
    (∀ h g : Qsk, ok h → ok g → (h.merge g).n = min (h.n + g.n) (2 ^ 64 - 1) ∧ (h.merge g).nans = min (h.nans + g.nans) (2 ^ 32 - 1) ∧
      ((∀ l, l < 8 → (h.level l).length + (g.level l).length < qskCap l) →
        (h.merge g).coin = h.coin ∧ ∀ l, l < 8 → (h.merge g).level l = h.level l ++ g.level l)) ∧
    (∀ (h : Qsk) (q : Nat), ok h → q < 2 ^ 32 →
      let w := weight h fun _ => true
      (w = 0 ∨ fp32.dec q = .nan ∨ (∃ n, fp32.dec q = .inf n) → h.quantile q = 0x7FC00000) ∧
      (∀ n m e, fp32.dec q = .fin n m e →
        ((n = true ∧ m ≠ 0) ∨ 2 ^ (-e).toNat < m * 2 ^ e.toNat → h.quantile q = 0x7FC00000) ∧
        (w ≠ 0 → (n = true → m = 0) → m * 2 ^ e.toNat ≤ 2 ^ (-e).toNat →
          let x := h.quantile q
          let a := weight h fun y => decide (order y < order x)
          (∃ l, l < 8 ∧ x ∈ h.level l) ∧ (a = 0 ∨ a * 2 ^ (-e).toNat < m * w * 2 ^ e.toNat) ∧
          m * w * 2 ^ e.toNat ≤ (weight h fun y => decide (order y ≤ order x)) * 2 ^ (-e).toNat))) ∧
    (let one := fun (i : Nat) => fp32.enc 0 (.fin false i 0)
     let h : Qsk := (List.range 64).foldl (fun (h : Qsk) i => h.insert (one (i + 1))) ⟨0, 0, 1, List.replicate 8 []⟩
     h.level 0 = [] ∧ h.level 1 = (List.range 32).map (fun i => one (2 * i + 2)) ∧ h.coin = 0x40822041 ∧ h.n = 64 ∧
     h.quantile 0x3F666666 = one 58 ∧ h.quantile 0x3F000000 = one 32 ∧ (h.insert 0x3F000000).quantile 0 = 0x3F000000)) ∧
  (
    (∀ seed : BitVec 64, SumKind.dcr.empty seed = List.replicate 256 0 ∧
      hhlOf (SumKind.hhl.empty seed) = some { total := 0, entries := [] } ∧ (SumKind.hhl.empty seed).length = 256 ∧
      qskOf (SumKind.qsk.empty seed) = some { nans := 0, n := 0, levels := List.replicate 8 [],
                                              coin := if h64 seed = 0 then 1 else h64 seed } ∧
      (SumKind.qsk.empty seed).length = 1024) ∧
    (∀ (p : Pfx) (d a : BitVec 8) (k : BitVec 2) (s : State) (x : Iss) (l : Launch) (tgt : Tgt), Issues (.sksd p d a k false) p.mask s x →
      x.mask ≠ 0 → Fresh s → s.launchOf x.p.team = some l →
      let at_ := ((s.my x).sget a.toNat).toNat
      let bs := (sumKind k.toNat).empty ((s.my x).sget d.toNat)
      at_ % (sumKind k.toNat).size = 0 → (s.warm l at_).translateFor x.p.team x.p.unit at_ true = .ok tgt →
      ∃ t q, exec (.sksd p d a k false) s = .next t ∧ q ∈ t.pends ∧ q.cls = .store ∧ q.tag = s.nextId ∧
        (∀ j, j < bs.length → ∃ r ∈ t.reqs, r.tag = q.tag ∧ ∃ ws o, r.kind = .write ws ∧ (o, bs.getD j 0) ∈ ws ∧ r.va + o = at_ + j) ∧
        t.my x = (s.my x).advanced x.p.entry x.words x.next ∧ t.mem = s.mem) ∧
    (∀ (p : Pfx) (d a : BitVec 8) (k : BitVec 2) (s : State) (x : Iss) (u o : Nat), Issues (.sksd p d a k true) p.mask s x →
      x.mask ≠ 0 → let at_ := ((s.my x).sget a.toNat).toNat
      at_ < 2 ^ 32 → s.spadAt x.p.team at_ (sumKind k.toNat).size = .at_ u o →
      ∃ t q, exec (.sksd p d a k true) s = .next t ∧ q ∈ t.pends ∧ q.cls = .store ∧ q.tag = s.nextId ∧ t.mem = s.mem ∧
        ∃ r ∈ t.reqs, r.tag = q.tag ∧ r.tgt = .spad u 0 ∧
          r.kind = .write ((List.range (sumKind k.toNat).size).map fun j =>
            (o + j, ((sumKind k.toNat).empty ((s.my x).sget d.toNat)).getD j 0)))) ∧
  (
    (∀ h : Half, -(2 ^ 319 : Int) ≤ h.v → h.v < (2 ^ 319 : Int) → h.pinf < 2 ^ 32 → h.ninf < 2 ^ 32 → halfOf h.bytes = h ∧ h.bytes.length = 64) ∧
    (∀ (h : Half) (x : Nat), x < 2 ^ 32 → -(2 ^ 319 : Int) ≤ h.v → h.v < (2 ^ 319 : Int) →
      let e := x / 2 ^ 23 % 256
      let f := x % 2 ^ 23
      let size : Nat := if e = 0 then f else (2 ^ 23 + f) * 2 ^ (e - 1)
      let units : Int := if 2 ^ 31 ≤ x then -(size : Int) else (size : Int)
      (e < 255 → (h.addf x).v = (h.v + units + (2 ^ 319 : Int)) % (2 ^ 320 : Int) - (2 ^ 319 : Int) ∧
        ((h.addf x).ovf = (h.ovf || decide (h.v + units < -(2 ^ 319 : Int) ∨ (2 ^ 319 : Int) ≤ h.v + units))) ∧
        (h.addf x).nan = h.nan ∧ (h.addf x).pinf = h.pinf ∧ (h.addf x).ninf = h.ninf) ∧
      (e = 255 → f ≠ 0 → h.addf x = { h with nan := true }) ∧
      (e = 255 → f = 0 → h.addf x = if x < 2 ^ 31 then { h with pinf := min (h.pinf + 1) (2 ^ 32 - 1) }
        else { h with ninf := min (h.ninf + 1) (2 ^ 32 - 1) })) ∧
    (∀ h : Half, ((h.nan = true ∨ h.ovf = true ∨ (0 < h.pinf ∧ 0 < h.ninf)) → h.round = 0x7FC00000) ∧
      (h.nan = false → h.ovf = false → 0 < h.pinf → h.ninf = 0 → h.round = 0x7F800000) ∧
      (h.nan = false → h.ovf = false → h.pinf = 0 → 0 < h.ninf → h.round = 0xFF800000) ∧
      (h.nan = false → h.ovf = false → h.pinf = 0 → h.ninf = 0 → h.v = 0 → h.round = 0)))

/-- R472, R473, R153: `xadd`, `xrnd` and `xclr` with an active lane issue: a store (a load for `xrnd`) is outstanding, with a request
to each half-line named: the lanes' values to add in lane order, a read, or 64 zeros; `xadd` waits for the group's loads and enters a
region. No register and no memory changes at issue; a misaligned base traps ALIGN 0x00 with every lane.
R473, R165: at its home an exact addition replaces the half-line's 64 bytes by those of its sum with the values in order, and
changes no other byte; a rounded half-line is written to each lane that named it.
R472, R146: the scratchpad forms go to the half-line's scratchpad, which an addition or a clear changes in those 64 bytes alone; a
base past the address width, and each lane whose half-line breaks the scratchpad's bounds, traps ALIGN.
Where a clause rests on a choice of the model, it is that of the assumption log, entry 21. -/
def Obligations.ExactSumInstructions : Prop :=
  (
    ∀ (p : Pfx) (d a : BitVec 8) (v : Bool) (s : State) (x : Iss) (l : Launch) (i : Instr),
      i = .xadd p d a v false ∨ i = .xrnd p d a v false ∨ i = .xclr p a v false → Issues i p.mask s x → Fresh s →
      x.mask ≠ 0 → s.launchOf x.p.team = some l → s.count x.p.team x.p.unit .load = 0 →
      let at_ := ((s.my x).sget a.toNat).toNat
      let addr := fun (j : Nat) => if v then at_ + 64 * j else at_
      (at_ % 64 ≠ 0 → exec i s = .next (s.trap 0x24 0x00 at_ x.mask)) ∧
      (at_ % 64 = 0 →
        (∀ j ∈ lanesOf x.mask, ∃ h u c, (((lanesOf x.mask).map addr).foldl (fun s e => s.warm l e) s).translateFor
          x.p.team x.p.unit (addr j) (!decide (i = .xrnd p d a v false)) = .ok (.home h u c)) →
        ∃ t q, exec i s = .next t ∧ q ∈ t.pends ∧ q.tag = s.nextId ∧
          (i ≠ .xrnd p d a v false → q.cls = .store ∧ q.act = .stores) ∧
          (i = .xrnd p d a v false → q.cls = .load ∧ q.act = .round d.toNat v) ∧
          (∀ j ∈ lanesOf x.mask, ∃ r ∈ t.reqs, r.tag = q.tag ∧ r.va = addr j ∧ r.n = 64 ∧
            (i = .xadd p d a v false → r.kind = .xadd (((lanesOf x.mask).filter fun m => addr m == addr j).map fun m =>
              (s.my x).vget d.toNat m)) ∧
            (i = .xrnd p d a v false → r.kind = .read []) ∧
            (i = .xclr p a v false → r.kind = .write ((List.range 64).map fun o => (o, 0)))) ∧
          (t.my x).v = (s.my x).v ∧ (t.my x).s = (s.my x).s ∧ t.mem = s.mem ∧
          (t.my x).rgnc = (s.my x).rgnc + (if i = .xadd p d a v false then 1 else 0))) ∧
  (
    (∀ (s : State) (r : Req) (d : Nat) (cmb : Bool) (xs : List Lane),
      s.reqs.find? (fun q => q.id == r.id) = some r → r.phase = .sent → r.tgt = .home d false cmb → r.kind = .xadd xs → r.out = true →
      r.n = 64 → d % 64 = 0 → s.combs = [] → s.lockedLine (d / 128) = false → s.inSlice r.ctx d 64 →
      s.spanBad r.ctx d false 64 = false →
      let k := s.keyOf r.ctx
      ∃ t, exec (.homeAccess r.id) s = .next t ∧
        t.mem.homeBytes k r.ctx d 64 = (xs.foldl (fun h y => h.addf y.toNat) (halfOf (s.mem.homeBytes k r.ctx d 64))).bytes ∧
        (∀ a, a < d ∨ d + 64 ≤ a → t.mem.homeByte k r.ctx a = s.mem.homeByte k r.ctx a) ∧
        t.mem.dev = s.mem.dev ∧ t.mem.host = s.mem.host ∧ t.teams = s.teams) ∧
    (∀ (s : State) (q : Pend) (d : Nat) (v : Bool), s.pends.find? (fun p => p.tag == q.tag) = some q → q.act = .round d v →
      (∀ r ∈ s.reqs, r.tag ≠ q.tag) → s.trapImage q.team q.unit = none → (s.grp q.team q.unit).st = .live → d < 248 →
      (q.lanes.map (·.1)).Nodup → (∀ l ∈ q.lanes, l.1 < 64) →
      ∃ t, exec (.loadCompletion q.tag) s = .next t ∧ t.mem = s.mem ∧
        (∀ l a, (l, a) ∈ q.lanes → ((t.grp q.team q.unit).vget d l).toNat = (halfOf (getBytes q.got a 64)).round % 2 ^ 32) ∧
        (∀ r l, l < 64 → (r ≠ d ∨ ∀ a, (l, a) ∉ q.lanes) → (t.grp q.team q.unit).vget r l = (s.grp q.team q.unit).vget r l))) ∧
  (
    ∀ (p : Pfx) (d a : BitVec 8) (v : Bool) (s : State) (x : Iss) (i : Instr),
      i = .xadd p d a v true ∨ i = .xrnd p d a v true ∨ i = .xclr p a v true → Issues i p.mask s x → Fresh s →
      x.mask ≠ 0 → s.count x.p.team x.p.unit .load = 0 →
      let at_ := ((s.my x).sget a.toNat).toNat
      let addr := fun (j : Nat) => if v then at_ + 64 * j else at_
      let spot := fun (j : Nat) => s.spadAt x.p.team (addr j % 2 ^ 32) 64
      let out := fun (j : Nat) => match spot j with
        | .bad _ => true
        | .at_ _ _ => false
      (at_ % 64 ≠ 0 → exec i s = .next (s.trap 0x24 0x00 at_ x.mask)) ∧
      (at_ % 64 = 0 → 2 ^ 32 ≤ at_ → exec i s = .next (s.trap 0x24 0x01 at_ x.mask)) ∧
      (at_ % 64 = 0 → at_ < 2 ^ 32 → ∀ j e, (lanesOf x.mask).find? out = some j → spot j = .bad e →
        exec i s = .next (s.trap 0x24 e (addr j) (maskOf ((lanesOf x.mask).filter out)))) ∧
      (at_ % 64 = 0 → at_ < 2 ^ 32 → (∀ j ∈ lanesOf x.mask, ∃ u o, spot j = .at_ u o) →
        ∃ t q, exec i s = .next t ∧ q ∈ t.pends ∧ q.tag = s.nextId ∧
          (i ≠ .xrnd p d a v true → q.cls = .store ∧ q.act = .stores) ∧
          (i = .xrnd p d a v true → q.cls = .load ∧ q.act = .round d.toNat v) ∧
          (∀ j ∈ lanesOf x.mask, ∀ u o, spot j = .at_ u o → ∃ r ∈ t.reqs, r.tag = q.tag ∧ r.va = addr j ∧ r.n = 64 ∧
            r.tgt = .spad u o ∧
            (i = .xadd p d a v true → r.kind = .xadd (((lanesOf x.mask).filter fun m => addr m == addr j).map fun m =>
              (s.my x).vget d.toNat m)) ∧
            (i = .xrnd p d a v true → r.kind = .read []) ∧
            (i = .xclr p a v true → r.kind = .write ((List.range 64).map fun o => (o, 0)))) ∧
          (t.my x).v = (s.my x).v ∧ (t.my x).s = (s.my x).s ∧ t.mem = s.mem ∧
          (t.my x).rgnc = (s.my x).rgnc + (if i = .xadd p d a v true then 1 else 0))) ∧
  (
    ∀ (s : State) (r : Req) (u o : Nat) (y : Team),
      s.reqs.find? (fun q => q.id == r.id) = some r → r.phase = .sent → r.tgt = .spad u o → r.out = true → r.n = 64 →
      s.team? u = some y →
      (∀ xs, r.kind = .xadd xs → ∃ t, exec (.homeAccess r.id) s = .next t ∧
        t.spadRead u o 64 = (xs.foldl (fun h x => h.addf x.toNat) (halfOf (s.spadRead u o 64))).bytes ∧
        (∀ w b, w ≠ u ∨ b < o ∨ o + 64 ≤ b → t.spadRead w b 1 = s.spadRead w b 1) ∧ t.mem = s.mem ∧
        ∀ q ∈ t.reqs, q.id = r.id → q.phase = .served) ∧
      (r.kind = .write ((List.range 64).map fun o => (o, 0)) → ∃ t, exec (.homeAccess r.id) s = .next t ∧
        t.spadRead u o 64 = List.replicate 64 0 ∧
        (∀ w b, w ≠ u ∨ b < o ∨ o + 64 ≤ b → t.spadRead w b 1 = s.spadRead w b 1) ∧ t.mem = s.mem) ∧
      (∀ q d v, r.kind = .read [] → s.pends.find? (fun p => p.tag == r.tag) = some q → q.act = .round d v → q.bad = [] →
        (∀ w ∈ s.reqs, w.tag = r.tag → w.id = r.id) → r.also = [] →
        ∃ t q', exec (.homeAccess r.id) s = .next t ∧ t.pends.find? (fun p => p.tag == r.tag) = some q' ∧
          getBytes q'.got r.va 64 = s.spadRead u o 64 ∧ Ev.loadCompletion r.tag ∈ t.ev.due ∧ t.mem = s.mem ∧ t.teams = s.teams))

/-! ### Matrix unit -/

/-- R450-R463: a matrix instruction whose effective mask is not the set of its group's lanes traps ILLEGAL_CONVERGENCE. One that keeps
to the borderline table joins its core's tile queue with the operands as they stand at issue; nothing else changes but the PC, and the
region where it accumulates. `mdrain` with a requantisation table reads the table first, its group held; `mstat` writes s[D].
Where a clause rests on a choice of the model, it is that of the assumption log, entries 21, 53. -/
def Obligations.MatrixInstructionsIssue : Prop :=
  ∀ (p : Pfx) (s : State) (x : Iss) (t : BitVec 6) (r : BitVec 4) (f : BitVec 3) (o : BitVec 5) (front z : Bool) (code : BitVec 3)
    (obj : BitVec 2) (a : BitVec 8),
    let g := s.my x
    let core := s.coreOf x.p.team
    let tr := sget g.d r.toNat
    let fx := sget g.f f.toNat
    let fb := fmtBlock fx
    let org := g.sget o.toNat
    let va := g.sget a.toNat
    let rec_ := tensorReg tr
    let quiet := s.count x.p.team x.p.unit .load = 0
    let joins := fun (i : Instr) (k : TileKind) (acc : Bool) => ∃ s' q, exec i s = .next s' ∧
      (s'.core core).tileQ = (s.core core).tileQ ++ [q] ∧ q.kind = k ∧ q.team = x.p.team ∧ q.unit = x.p.unit ∧
      (s'.core core).front = (s.core core).front ∧ (s'.core core).shadow = (s.core core).shadow ∧ s'.mem = s.mem ∧
      (s'.my x).v = g.v ∧ (s'.my x).s = g.s ∧ (acc = false → s'.my x = g.advanced x.p.entry x.words x.next) ∧
      (s'.my x).rgnc = g.rgnc + (if acc then 1 else 0)
    let window := fun (w : Tensor → Window) => ∃ T, rec_ = some T ∧ T.elem = fmtElem (w T).fmt (w T).blk ∧
      s.windowOk x.p.team (w T) = true ∧ (isKb (w T).fmt = true → (w T).k0 % min (kbLen (w T).blk) (w T).kp = 0)
    (∀ i, i ∈ [Instr.mld p front r f o, .mswp p, .mmul p t z r f o, .mzero p t, .mdrain p t z code r o, .mrsum p t r f o,
        .msave p obj t a, .mrest p obj t a, .mstat p a] →
      Issues i p.mask s x → x.mask ≠ g.lanes → exec i s = .next (s.trap 0x21 0x00)) ∧
    (x.mask = g.lanes →
      (Issues (.mzero p t) p.mask s x → joins (.mzero p t) (.mzero t.toNat) false) ∧
      (Issues (.mld p front r f o) p.mask s x → window (fun T => fb.bWindow T org) →
        joins (.mld p front r f o) (.mld front tr org fx) false) ∧
      (Issues (.mswp p) p.mask s x → s.planesBusy x = false → (s.planesNow x).front.owner = some x.p.team →
        (s.planesNow x).shadow.owner = some x.p.team → joins (.mswp p) .mswp false) ∧
      (Issues (.mmul p t z r f o) p.mask s x → s.planesBusy x = false → (z = true ∨ quiet) → window (fun T => fb.aWindow T org) →
        (let q := (s.planesNow x).front
         q.owner = some x.p.team ∧ q.bfmt.toNat = fb.bfmt ∧ q.bsgn = fb.bsgn ∧ q.bblk.toNat = fb.bblk ∧
           q.kp.toNat + 5 = Nat.log2 fb.kp) →
        joins (.mmul p t z r f o) (.mmul t.toNat z tr org fx) (!z)) ∧
      (Issues (.mrsum p t r f o) p.mask s x → quiet → fb.afmt = 2 → window (fun T => fb.aWindow T org) →
        joins (.mrsum p t r f o) (.mrsum t.toNat tr org fx ((g.sget (o.toNat + 1)).setWidth 32)) true) ∧
      (∀ T, Issues (.mdrain p t z code r o) p.mask s x → (quiet ∨ (z = false ∧ code ≠ 5)) → rec_ = some T → code.toNat ≤ 5 →
        T.elem = drainWidth code.toNat → (code = 5 → T.base % 64 = 0 ∧ ∀ k ∈ T.strs, k % 64 = 0) →
        (T.spad = true → ∀ e ∈ drainElems T org, (s.spadSpan? x.p.team e.2.2 T.elem).isSome = true) →
        let acc := z || decide (code = 5)
        (code ≠ 3 → code ≠ 4 → joins (.mdrain p t z code r o) (.mdrain t.toNat z code.toNat tr org []) acc) ∧
        (code = 3 ∨ code = 4 → ∀ l, s.launchOf x.p.team = some l → Fresh s →
          let ta := (g.sget (o.toNat + 1)).toNat
          ta % 8 = 0 → (∀ e ∈ piecesOf [(ta, 256)], ∃ tgt,
            ((piecesOf [(ta, 256)]).foldl (fun v e => v.warm l e.1) s).translateFor x.p.team x.p.unit e.1 false = .ok tgt) →
          ∃ s' q op, exec (.mdrain p t z code r o) s = .next s' ∧ q ∈ s'.pends ∧ q.act = .table op ∧ q.holds = true ∧
            q.lanes = [(noLane, ta)] ∧ op.kind = .mdrain t.toNat z code.toNat tr org [] ∧ s'.mem = s.mem)) ∧
      (Issues (.msave p obj t a) p.mask s x → va.toNat % 64 = 0 →
        (obj = 0 ∨ (s.planesBusy x = false ∧
          (if obj = 1 then (s.planesNow x).front.owner else (s.planesNow x).shadow.owner) = some x.p.team)) →
        joins (.msave p obj t a) (.msave obj.toNat t.toNat va) false) ∧
      (Issues (.mrest p obj t a) p.mask s x → va.toNat % 64 = 0 → joins (.mrest p obj t a) (.mrest obj.toNat t.toNat va) false) ∧
      (Issues (.mstat p a) p.mask s x → x.p.unit < 16 → s.count x.p.team x.p.unit .tile < 32 → ∃ v : U64,
        Does (.mstat p a) s x (fun g => g.sput a.toNat v) ∧ v.getLsbD 0 = s.frozen core ∧
        v.getLsbD 1 = ((s.core core).front.owner == some x.p.team) ∧ v.getLsbD 2 = ((s.core core).shadow.owner == some x.p.team) ∧
        v.getLsbD 3 = (s.core core).swap ∧ v.toNat / 2 ^ 19 = s.count x.p.team x.p.unit .tile))

/-- R451-R458: TILE_OP_COMPLETION completes the oldest operation of a unit that is not frozen and takes it out of the queue: `mzero`
zeroes its tile; `mswp` toggles the pending swap; `mld` leaves its window in a plane; `mmul` adds to every element the INT8 dot product
of a row and a column, wrapped or saturated, and for the other formats the value of the array step; `mrsum` adds c times the sum of
a row. No other tile, and no memory, changes.
R459-R461: `mdrain` writes each element of the tile that lies in the record, as held, rounded, requantised or added into its
half-line, a later element over an earlier one, no other byte, and leaves the tile 0 under CLR. R462: `msave` writes the tile, or the
plane and its header; `mrest` sets them from those bytes, the plane without an owner where its header is not valid.
Where a clause rests on a choice of the model, it is that of the assumption log, entries 54, 55, 57. -/
def Obligations.TileOperationsComplete : Prop :=
  ∀ (s : State) (core : Nat) (o : TileOp) (rest : List TileOp) (x : Team),
    (s.core core).tileQ = o :: rest → s.frozen core = false → s.team? o.team = some x →
    let other := fun (k : Nat) (y z : Team) => ∀ j, j < 1024 * k ∨ 1024 * k + 1024 ≤ j → sget z.tiles j = sget y.tiles j
    let sum := fun (n : Nat) (h : Nat → Int) => ((List.range n).map h).sum
    let clamp := fun (v : Int) => min (max v (-2147483648)) 2147483647
    (∀ k, o.kind = .mzero k → ∃ t y, exec (.tileOpCompletion core) s = .next t ∧ t.team? o.team = some y ∧
      (∀ m n, m < 32 → n < 32 → sget y.tiles (1024 * k + 32 * m + n) = 0) ∧ other k x y ∧ t.mem = s.mem ∧
      ∀ q ∈ (t.core core).tileQ, q.id ≠ o.id) ∧
    (o.kind = .mswp → ∃ t, exec (.tileOpCompletion core) s = .next t ∧ (t.core core).swap = !(s.core core).swap ∧
      (t.core core).front = (s.core core).front ∧ (t.core core).shadow = (s.core core).shadow ∧ t.teams = s.teams ∧
      t.mem = s.mem ∧ ∀ q ∈ (t.core core).tileQ, q.id ≠ o.id) ∧
    (∀ front tr org f T s1 img, o.kind = .mld front tr org f → tensorReg tr = some T →
      s.readWindow (s.tileWho o core) ((fmtBlock f).bWindow T org) = .ok s1 img →
      ∃ t, exec (.tileOpCompletion core) s = .next t ∧
        (let c := (s1.core core).applySwap
         let p := if front then (t.core core).front else (t.core core).shadow
         p.bytes = img ∧ p.owner = some o.team ∧ p.bfmt.toNat = (fmtBlock f).bfmt ∧ p.bsgn = (fmtBlock f).bsgn ∧
           p.bblk.toNat = (fmtBlock f).bblk ∧ (t.core core).swap = false ∧
           (if front then (t.core core).shadow = c.shadow else (t.core core).front = c.front)) ∧
        (∀ q ∈ (t.core core).tileQ, q.id ≠ o.id) ∧ t.mem = s1.mem) ∧
    (∀ k z tr org f T s1 img x1, o.kind = .mmul k z tr org f → tensorReg tr = some T →
      s.readWindow (s.tileWho o core) ((fmtBlock f).aWindow T org) = .ok s1 img → s1.team? o.team = some x1 →
      ∃ t y, exec (.tileOpCompletion core) s = .next t ∧ t.team? o.team = some y ∧ other k x1 y ∧ t.mem = s1.mem ∧
        (∀ q ∈ (t.core core).tileQ, q.id ≠ o.id) ∧
        ∀ m n, m < 32 → n < 32 →
          let fb := fmtBlock f
          let b := (s1.core core).applySwap.front.bytes
          let c := if z then 0 else sget x1.tiles (1024 * k + 32 * m + n)
          let dot := sum fb.kp fun j => intElem (planeLine img m) fb.asgn j * intElem (planeLine b n) fb.bsgn j
          sget y.tiles (1024 * k + 32 * m + n) =
            if fb.afmt = 2 then (if fb.isat then BitVec.ofInt 32 (clamp (c.toInt + dot)) else BitVec.ofInt 32 (c.toInt + dot))
            else stepElem fb (planeLine img m) (planeScale img m) (planeLine b n) (planeScale b n) c) ∧
    (∀ k tr org f (c : Lane) T s1 img x1, o.kind = .mrsum k tr org f c → tensorReg tr = some T →
      s.readWindow (s.tileWho o core) ((fmtBlock f).aWindow T org) = .ok s1 img → s1.team? o.team = some x1 →
      ∃ t y, exec (.tileOpCompletion core) s = .next t ∧ t.team? o.team = some y ∧ other k x1 y ∧ t.mem = s1.mem ∧
        (∀ q ∈ (t.core core).tileQ, q.id ≠ o.id) ∧
        ∀ m n, m < 32 → n < 32 →
          let fb := fmtBlock f
          let v := c.toInt * sum 64 fun j => intElem (planeLine img m) fb.asgn j
          let acc := sget x1.tiles (1024 * k + 32 * m + n)
          sget y.tiles (1024 * k + 32 * m + n) =
            if fb.isat then BitVec.ofInt 32 (clamp (acc.toInt + v)) else BitVec.ofInt 32 (acc.toInt + v)) ∧
    (let w := s.tileWho o core
     let ctx := s.ctxOf o.team
     let tile := fun (k m n : Nat) => sget x.tiles (1024 * k + 32 * m + n)
     let done := fun (t : State) => ∀ q ∈ (t.core core).tileQ, q.id ≠ o.id
     let frame := fun (e : Nat × Nat × Tgt) => match e.2.2 with
       | .home d _ _ => d
       | _ => 0
     let held := fun (s2 : State) (l : List (Nat × Nat × Tgt)) =>
       s2.combs = [] ∧ ∀ e ∈ l, (∃ c, e.2.2 = .home (frame e) false c) ∧ s2.inSlice ctx (frame e) e.2.1
     let apart := fun (l : List (Nat × Nat × Tgt)) => l.Pairwise fun a b => frame a + a.2.1 ≤ frame b ∨ frame b + b.2.1 ≤ frame a
     let wrote := fun (s2 t : State) (l : List (Nat × Nat × Tgt)) (val : Nat → Byte) =>
       (∀ e ∈ l, ∀ j, j < e.2.1 → t.mem.homeByte (s2.keyOf ctx) ctx (frame e + j) = val (e.1 + j)) ∧
       (∀ a, (∀ e ∈ l, a < frame e ∨ frame e + e.2.1 ≤ a) →
         t.mem.homeByte (s2.keyOf ctx) ctx a = s2.mem.homeByte (s2.keyOf ctx) ctx a) ∧
       t.mem.dev = s2.mem.dev ∧ t.mem.host = s2.mem.host
     let cleared := fun (k : Nat) (clr : Bool) (y z : Team) => other k y z ∧ ∀ m n, m < 32 → n < 32 →
       sget z.tiles (1024 * k + 32 * m + n) = if clr then 0 else sget y.tiles (1024 * k + 32 * m + n)
     (∀ k clr code tr org tbl T, o.kind = .mdrain k clr code tr org tbl → tensorReg tr = some T → code ≤ 4 →
       let es := drainElems T org
       let size := drainWidth code
       let bytes := fun (e : Nat × Nat × Nat) => drainBytes code tbl e.2.1 (tile k e.1 e.2.1)
       (T.spad = true → (∀ e ∈ es, (s.spadSpan? o.team e.2.2 size).isSome = true) →
         ∃ t y, exec (.tileOpCompletion core) s = .next t ∧ done t ∧ t.team? o.team = some y ∧ cleared k clr x y ∧ t.mem = s.mem ∧
           ∀ u b, t.spadRead u b 1 =
             match es.reverse.find? (fun e => match s.spadSpan? o.team e.2.2 size with
               | some (v, f) => v == u && decide (f ≤ b ∧ b < f + size)
               | none => false) with
             | some e => (match s.spadSpan? o.team e.2.2 size with
               | some (_, f) => [(bytes e).getD (b - f) 0]
               | none => [])
             | none => s.spadRead u b 1) ∧
       (∀ s2 l x2, T.spad = false →
         s.place w ((runsOf (mapBytes (es.foldl (fun m e => putBytes m e.2.2 (bytes e)) []))).map fun e => (e.1, e.2.length)) true =
           .ok s2 l → held s2 l → apart l → s2.team? o.team = some x2 →
         ∃ t y, exec (.tileOpCompletion core) s = .next t ∧ done t ∧ t.team? o.team = some y ∧ cleared k clr x2 y ∧
           (∀ e ∈ es, ∀ j, j < size → ∃ z ∈ l, z.1 ≤ e.2.2 + j ∧ e.2.2 + j < z.1 + z.2.1) ∧
           wrote s2 t l fun a => match es.reverse.find? (fun e => decide (e.2.2 ≤ a ∧ a < e.2.2 + size)) with
             | some e => (bytes e).getD (a - e.2.2) 0
             | none => 0)) ∧
     (∀ k clr tr org tbl T, o.kind = .mdrain k clr 5 tr org tbl → tensorReg tr = some T → T.base % 64 = 0 →
       T.elem = 64 → (∀ v ∈ T.strs, v % 64 = 0) →
       let es := drainElems T org
       let sum := fun (old : List Byte) (l : List (Nat × Nat × Nat)) =>
         (l.foldl (fun h e => h.addf (tile k e.1 e.2.1).toNat) (halfOf old)).bytes
       (T.spad = true → (∀ e ∈ es, (s.spadSpan? o.team e.2.2 64).isSome = true) →
         ∃ t y, exec (.tileOpCompletion core) s = .next t ∧ done t ∧ t.team? o.team = some y ∧ cleared k clr x y ∧ t.mem = s.mem ∧
           (∀ e ∈ es, ∀ u f, s.spadSpan? o.team e.2.2 64 = some (u, f) → t.spadRead u f 64 =
             sum (s.spadRead u f 64) (es.filter fun e => s.spadSpan? o.team e.2.2 64 == some (u, f))) ∧
           ∀ u b, (∀ e ∈ es, ∀ f, s.spadSpan? o.team e.2.2 64 = some (u, f) → b < f ∨ f + 64 ≤ b) →
             t.spadRead u b 1 = s.spadRead u b 1) ∧
       (∀ s2 l x2, T.spad = false → s.place w (es.map fun e => (e.2.2, 64)) true = .ok s2 l → held s2 l →
         (∀ z ∈ l, frame z % 64 = 0 ∧ s2.spanBad ctx (frame z) false 64 = false) → s2.team? o.team = some x2 →
         ∃ t y, exec (.tileOpCompletion core) s = .next t ∧ done t ∧ t.team? o.team = some y ∧ cleared k clr x2 y ∧
           l.map (fun z => (z.1, z.2.1)) = es.map (fun e => (e.2.2, 64)) ∧
           (∀ z ∈ l, t.mem.homeBytes (s2.keyOf ctx) ctx (frame z) 64 = sum (s2.mem.homeBytes (s2.keyOf ctx) ctx (frame z) 64)
             (((es.zip l).filter fun e => frame e.2 == frame z).map (·.1))) ∧
           (∀ a, (∀ z ∈ l, a < frame z ∨ frame z + 64 ≤ a) →
             t.mem.homeByte (s2.keyOf ctx) ctx a = s2.mem.homeByte (s2.keyOf ctx) ctx a) ∧ t.mem.dev = s2.mem.dev)) ∧
     (∀ obj k va s2 l, o.kind = .msave obj k va → obj ≤ 2 →
       let c := (s.core core).applySwap
       let P := if obj = 1 then c.front else c.shadow
       let n := if obj = 0 then 4096 else 8256
       s.place w [(va.toNat, n)] true = .ok s2 l → held s2 l → apart l →
       ∃ t, exec (.tileOpCompletion core) s = .next t ∧ done t ∧ t.teams = s2.teams ∧
         (∀ j, j < n → ∃ z ∈ l, z.1 ≤ va.toNat + j ∧ va.toNat + j < z.1 + z.2.1) ∧
         (obj = 0 → wrote s2 t l fun a =>
           BitVec.ofNat 8 ((tile k ((a - va.toNat) / 128) ((a - va.toNat) / 4 % 32)).toNat / 256 ^ ((a - va.toNat) % 4))) ∧
         (obj ≠ 0 → (t.core core).front = c.front ∧ (t.core core).shadow = c.shadow ∧ (t.core core).swap = false ∧
           wrote s2 t l fun a => let i := a - va.toNat
             if i < 8192 then sget P.data i else if i = 8192 then BitVec.ofNat 8 P.bfmt.toNat
             else if i = 8193 then (if P.bsgn then 1 else 0) else if i = 8194 then BitVec.ofNat 8 P.bblk.toNat
             else if i = 8195 then 1 else if i = 8196 then BitVec.ofNat 8 P.kp.toNat else 0)) ∧
     (∀ obj k va s2 m, o.kind = .mrest obj k va → obj ≤ 2 →
       let n := if obj = 0 then 4096 else 8256
       let b := fun (i : Nat) => (getBytes m (va.toNat + i) 1).headD 0
       let c := (s2.core core).applySwap
       s.gather w [(va.toNat, n)] = .ok s2 m →
       ∃ t, exec (.tileOpCompletion core) s = .next t ∧ done t ∧ t.mem = s2.mem ∧
         (obj = 0 → ∀ x2, s2.team? o.team = some x2 → ∃ y, t.team? o.team = some y ∧ other k x2 y ∧ ∀ i j, i < 32 → j < 32 →
           sget y.tiles (1024 * k + 32 * i + j) =
             BitVec.ofNat 32 (leNat ((List.range 4).map fun z => b (4 * (32 * i + j) + z)))) ∧
         (obj ≠ 0 → t.teams = s2.teams ∧ (t.core core).swap = false ∧
           let P := if obj = 1 then (t.core core).front else (t.core core).shadow
           (if obj = 1 then (t.core core).shadow = c.shadow else (t.core core).front = c.front) ∧
           if (b 8192).toNat ≤ 5 ∧ (b 8193).toNat ≤ 1 ∧ (b 8194).toNat ≤ 3 ∧ b 8195 = 1 ∧ (b 8196).toNat ≤ 3 ∧
             ((List.range 59).all fun i => b (8197 + i) == 0) = true
           then P.owner = some o.team ∧ P.bytes = (List.range 8192).map b ∧ P.bfmt.toNat = (b 8192).toNat ∧
             P.bsgn = (b 8193 == 1) ∧ P.bblk.toNat = (b 8194).toNat ∧ P.kp.toNat = (b 8196).toNat
           else P.owner = none))) ∧
    (∀ (T : Tensor) (org : U64),
      (∀ m n a, (m, n, a) ∈ drainElems T org ↔ m < 32 ∧ n < 32 ∧ org.toNat % 2 ^ 32 + n < T.dim 0 ∧ org.toNat / 2 ^ 32 + m < T.dim 1 ∧
        a = T.base + (org.toNat % 2 ^ 32 + n) * T.elem + (org.toNat / 2 ^ 32 + m) * T.str 1) ∧
      (drainElems T org).Pairwise fun a b => 32 * a.1 + a.2.1 < 32 * b.1 + b.2.1) ∧
    (∀ (tbl : List Byte) (n : Nat) (y : Lane), n < 32 → tableOk tbl = true →
      let mul := (BitVec.ofNat 32 (field tbl (8 * n) 4)).toInt
      let shift := field tbl (8 * n + 4) 1
      let zo := (BitVec.ofNat 16 (field tbl (8 * n + 6) 2)).toInt
      shift ≤ 62 ∧ field tbl (8 * n + 5) 1 = 0 ∧
      drainBytes 0 tbl n y = (List.range 4).map (fun j => BitVec.ofNat 8 (y.toNat / 256 ^ j)) ∧
      drainBytes 1 tbl n y = leBytes 2 (fp32.conv bf16 0 y.toNat) ∧ drainBytes 2 tbl n y = leBytes 2 (fp32.conv fp16 0 y.toNat) ∧
      ∃ q : Int, q * 2 ^ shift ≤ y.toInt * mul + (if shift = 0 then 0 else 2 ^ (shift - 1)) ∧
        y.toInt * mul + (if shift = 0 then 0 else 2 ^ (shift - 1)) < (q + 1) * 2 ^ shift ∧
        drainBytes 3 tbl n y = [BitVec.ofInt 8 (min (max (q + zo) (-128)) 127)] ∧
        drainBytes 4 tbl n y = [BitVec.ofInt 8 (min (max (q + zo) 0) 255)])

/-! ### Engines -/

/-- R439, R441-R443, R281, R271: `xcp` and `xcp.fill` with well-formed records of one element size and count join their core's copy
engine, trap ILLEGAL_OP 0x07 otherwise, and ALIGN 0x01 where an element of a scratchpad record breaks its bounds; `dld` and `fmt` read their aligned record, `fmt` holding its fragment, and trap ALIGN when it
is misaligned; `push` gives its engine a command with the next number, answers 0 when the queue is full, and traps ILLEGAL_OP 0x06 on a
command that breaks the check.
Where a clause rests on a choice of the model, it is that of the assumption log, entry 21. -/
def Obligations.EngineInstructionsIssue : Prop :=
  ∀ (p : Pfx) (d4 a4 k : BitVec 4) (d3 : BitVec 3) (d a : BitVec 8) (s : State) (x : Iss),
    let g := s.my x
    let core := s.coreOf x.p.team
    (∀ i src, (i = .xcp p d4 a4 ∧ src = some (sget g.d a4.toNat)) ∨ (i = .xcpFill p d4 a ∧ src = none) → Issues i p.mask s x →
      let dst := sget g.d d4.toNat
      (∀ T : Tensor, s.spadRecordOk x.p.team T = true ↔
        (T.spad = true → ∀ n, n < T.count → (s.spadSpan? x.p.team (T.nth n) T.elem).isSome = true)) ∧
      (x.mask = 0 → Does i s x id) ∧
      (x.mask ≠ 0 → tensorReg dst = none → exec i s = .next (s.trap 0x20 0x07)) ∧
      (∀ v, x.mask ≠ 0 → src = some v → (tensorReg v = none ∨ ∃ S D, tensorReg v = some S ∧ tensorReg dst = some D ∧
        (S.elem ≠ D.elem ∨ S.count ≠ D.count)) → exec i s = .next (s.trap 0x20 0x07)) ∧
      (∀ D, x.mask ≠ 0 → tensorReg dst = some D →
        (∀ v, src = some v → ∃ S, tensorReg v = some S ∧ S.elem = D.elem ∧ S.count = D.count) →
        (s.spadRecordOk x.p.team D = false ∨ ∃ v S, src = some v ∧ tensorReg v = some S ∧ s.spadRecordOk x.p.team S = false) →
        exec i s = .next (s.trap 0x24 0x01)) ∧
      (∀ D, x.mask ≠ 0 → tensorReg dst = some D → s.spadRecordOk x.p.team D = true →
        (∀ v, src = some v → ∃ S, tensorReg v = some S ∧ S.elem = D.elem ∧ S.count = D.count ∧
          s.spadRecordOk x.p.team S = true) →
        ∃ t c, exec i s = .next t ∧ (t.core core).copies = (s.core core).copies ++ [c] ∧ c.team = x.p.team ∧
          c.unit = x.p.unit ∧ c.src = src ∧ c.dst = dst ∧ (src = none → c.pat = g.sget a.toNat) ∧ c.next = 0 ∧
          t.my x = g.advanced x.p.entry x.words x.next ∧ t.mem = s.mem)) ∧
    (∀ i n, (i = .dld p d4 a k ∧ n = 64) ∨ (i = .fmt p d3 a k ∧ n = 32) → Issues i p.mask s x →
      let va := (g.sget a.toNat + BitVec.ofNat 64 (n * k.toNat)).toNat
      (x.mask = 0 → Does i s x id) ∧
      (x.mask ≠ 0 → va % n ≠ 0 → exec i s = .next (s.trap 0x24 0x00 va)) ∧
      (∀ l tgt, x.mask ≠ 0 → va % n = 0 → Fresh s → s.launchOf x.p.team = some l →
        (s.warm l va).translateFor x.p.team x.p.unit va false = .ok tgt →
        ∃ t q, exec i s = .next t ∧ q ∈ t.pends ∧ q.tag = s.nextId ∧ q.lanes = [(noLane, va)] ∧ t.mem = s.mem ∧
          (n = 64 → q.act = .record d4.toNat ∧ q.cls = .copy ∧ t.my x = g.advanced x.p.entry x.words x.next) ∧
          (n = 32 → q.act = .block d3.toNat ∧ q.cls = .none ∧
            t.my x = (g.advanced x.p.entry x.words x.next).updEntry x.p.entry fun e => { e with park := some (.read q.tag) }))) ∧
    (∀ tm, Issues (.push d a k) 0 s x → s.team? x.p.team = some tm →
      (x.p.unit = 17 ∨ s.within x.p.team x.p.unit 15 0 15 15 0 = true) →
      let bs := (List.range 16).flatMap fun j => leBytes 4 (g.sget (a.toNat + j)).toNat
      let eng := if k = 0 then 16 * x.p.team else 16 * s.ctxOf x.p.team + k.toNat
      (s.engineOf tm k.toNat = none → exec (.push d a k) s = .next (s.trap 0x20 0x06)) ∧
      (∀ e, s.engineOf tm k.toNat = some e →
        (cmdOk k.toNat bs = false → exec (.push d a k) s = .next (s.trap 0x20 0x06)) ∧
        (cmdOk k.toNat bs = true → queueDepth k.toNat ≤ e.queue.length → Does (.push d a k) s x fun g => g.sput d.toNat 0) ∧
        (cmdOk k.toNat bs = true → e.queue.length < queueDepth k.toNat → ∃ t c e', exec (.push d a k) s = .next t ∧
          t.engine? eng = some e' ∧ e' = { e with next := e.next + 1, queue := e.queue ++ [c] } ∧ c.n = e.next ∧ c.bytes = bs ∧
          c.launch = tm.launch ∧ c.team = x.p.team ∧ t.mem = s.mem ∧
          t.my x = (g.sput d.toNat (BitVec.ofNat 64 e.next)).advanced x.p.entry x.words x.next)))

/-- R279, R282-R285, R289, R429, R441, R442: an engine that runs nothing takes its oldest command: a copy or a fill of records that
pass their checks runs from its start number; a valid graph is loaded into its slot and drops the held credits; a run starts the nodes
without predecessors; a seal command is issued. A record read fills its d register, a valid format block its f register, and a broken
one traps.
Where a clause rests on a choice of the model, it is that of the assumption log, entry 61. -/
def Obligations.EngineCommandsStart : Prop :=
  ∀ (s s1 : State) (eng : Nat) (e : Engine) (c : Cmd) (rest : List Cmd),
    (s.engine? eng = some e → s1.engine? eng = some e → e.running = none → e.queue = c :: rest → s.deadLaunch c.launch = false →
      (∀ i bs tm src dst, i = .copy eng ∨ i = .fill eng → eng % 16 = 0 → s.team? (eng / 16) = some tm → tm.stopCopy = false →
        s.readRecs eng c = .ok s1 bs → (s1.takeCmd eng).copyRecs (eng / 16) (field c.bytes 0 1 == 2) bs = some (src, dst) →
        c.at_ 0x20 ≤ dst.count →
        ∃ t r, exec i s = .next t ∧ (t.engine? eng).bind (·.running) = some r ∧ (t.engine? eng).map (·.queue) = some rest ∧
          r.cmd = c ∧ r.recs = bs ∧ r.next = c.at_ 0x20 ∧ r.fin = none ∧ Ev.chunkEnd eng ∈ t.ev.due ∧ t.mem = s1.mem) ∧
      (∀ s2 m m2 g, eng % 16 ≠ 0 → eng % 16 ≠ 8 → s.gather (s.engWho eng c 0) [(c.at_ 8, 32)] = .ok s2 m →
        (let n := ((getBytes m (c.at_ 8 + 2) 1).headD 0).toNat
         s2.gather (s2.engWho eng c 1) [(c.at_ 8, 32 + 32 * n)] = .ok s1 m2 ∧ graphOf (getBytes m2 (c.at_ 8) (32 + 32 * n)) = some g) →
        ∃ t e', exec (.gload eng) s = .next t ∧ t.engine? eng = some e' ∧
          e'.graphs = (c.at_ 0x10, g) :: e.graphs.filter (fun v => v.1 != c.at_ 0x10) ∧ e'.credits = [] ∧ e'.queue = rest) ∧
      (∀ g m, eng % 16 ≠ 0 → eng % 16 ≠ 8 → e.graphs.find? (fun v => v.1 == c.at_ 8) = some g →
        s.gather (s.engWho eng c 0) [(c.at_ 0x10, 128)] = .ok s1 m →
        (∀ j, j < 16 → field (getBytes m (c.at_ 0x10) 128) (8 * j) 8 < 2 ^ 56) →
        ∃ t r, exec (.grun eng) s = .next t ∧ (t.engine? eng).bind (·.running) = some r ∧ r.cmd = c ∧ r.graph = g.2 ∧
          r.nodes.length = g.2.length ∧ t.mem = s1.mem ∧
          ∀ (j : Nat) (n : Node), g.2[j]? = some n → ∃ y, r.nodes[j]? = some y ∧ (y.phase = .waiting ↔ n.dep ≠ 0))) ∧
    (s.engine? eng = some e → e.queue.find? (fun c => !s.seals.any fun j => j.cmd && j.ctx == eng / 16 && j.n == c.n) = some c →
      ∃ t j, exec (.seal eng) s = .next t ∧ t.seals = s.seals ++ [j] ∧ j.cmd = true ∧ j.ctx = eng / 16 ∧ j.n = c.n ∧
        j.launch = c.launch ∧ j.desc = c.at_ 8 ∧ Ev.sealRecord j.id ∈ t.ev.due ∧ t.mem = s.mem) ∧
    (∀ q : Pend, s.pends.find? (fun p => p.tag == q.tag) = some q → (∀ r ∈ s.reqs, r.tag ≠ q.tag) →
      s.trapImage q.team q.unit = none → (s.grp q.team q.unit).st = .live →
      let a := (q.lanes.headD (0, 0)).2
      let h := s.grp q.team q.unit
      (∀ d, q.act = .record d → ∃ t, exec (.recordReadReturn q.tag) s = .next t ∧ t.mem = s.mem ∧ (∀ p ∈ t.pends, p.tag ≠ q.tag) ∧
        sget (t.grp q.team q.unit).d d = BitVec.ofNat 512 (leNat (getBytes q.got a 64)) ∧
        (∀ k, k ≠ d → sget (t.grp q.team q.unit).d k = sget h.d k) ∧ (t.grp q.team q.unit).v = h.v ∧ (t.grp q.team q.unit).s = h.s) ∧
      (∀ d, q.act = .block d →
        let b := BitVec.ofNat 256 (leNat (getBytes q.got a 32))
        (fmtBroken b = false → fmtMisaligned b = false → ∃ t, exec (.recordReadReturn q.tag) s = .next t ∧ t.mem = s.mem ∧
          (∀ p ∈ t.pends, p.tag ≠ q.tag) ∧ sget (t.grp q.team q.unit).f d = b ∧
          (∀ k, k ≠ d → sget (t.grp q.team q.unit).f k = sget h.f k) ∧ (t.grp q.team q.unit).v = h.v ∧
          (t.grp q.team q.unit).s = h.s) ∧
        (fmtBroken b = true → exec (.recordReadReturn q.tag) s = .next ((s.dropPend q).lateTrap q 0x20 0x04 a 0)) ∧
        (fmtBroken b = false → fmtMisaligned b = true →
          exec (.recordReadReturn q.tag) s = .next ((s.dropPend q).lateTrap q 0x24 0x00 a 0))))

/-- R178, R273, R280, R281, R285, R61, R62: an engine's timeline is the largest number up to which every operation has completed; a
chunk of a group's copy moves on by at least one element, and a copy at its end leaves the engine; a join node that has started
completes; a seal whose ranges can be read and whose record can be written takes one SEQ and is over.
Where a clause rests on a choice of the model, it is that of the assumption log, entries 59, 66, 68. -/
def Obligations.EngineWorkCompletes : Prop :=
  (∀ (e : Engine) (n : Nat), let f := e.complete n
    e.timeline ≤ f.timeline ∧ (∀ m, e.timeline < m → m ≤ f.timeline → m = n ∨ m ∈ e.done) ∧ f.timeline + 1 ≠ n ∧
      f.timeline + 1 ∉ e.done ∧
      ∀ m, m ∈ f.done ↔ ((m = n ∨ m ∈ e.done) ∧ ¬(e.timeline < m ∧ m ≤ f.timeline))) ∧
  (∀ (s : State) (core : Nat) (c : GroupCopy) (D : Tensor),
    s.cores.findSome? (fun k => (k.2.copies.find? fun y => y.id == c.id).map fun y => (k.1, y)) = some (core, c) →
    (s.core core).copies.find? (fun y => y.id == c.id) = some c →
    s.ownBusy (ownerOf (16 * c.id + 1) 0) = false → s.isTurn core (16 * c.id + 1) = true → tensorReg c.dst = some D →
    (c.next = D.count → ∃ t, exec (.chunkEnd (16 * c.id + 1)) s = .next t ∧ (∀ y ∈ (t.core core).copies, y.id ≠ c.id) ∧
      t.mem = s.mem ∧ t.teams = s.teams) ∧
    (c.next < D.count → D.spad = true → s.spadRecordOk c.team D = true →
      (∀ v, c.src = some v → ∃ S, tensorReg v = some S ∧ S.spad = true ∧ S.elem = D.elem ∧ S.count = D.count ∧
        s.spadRecordOk c.team S = true) →
      ∃ t y, exec (.chunkEnd (16 * c.id + 1)) s = .next t ∧ (t.core core).copies.find? (fun y => y.id == c.id) = some y ∧
        c.next < y.next ∧ y.next ≤ D.count ∧ y.dst = c.dst ∧ t.mem = s.mem)) ∧
  (∀ (s : State) (eng i : Nat) (e : Engine) (r : Running) (n : Node) (y : NodeRun), eng % 16 ≠ 0 → eng % 16 ≠ 8 → i < 255 →
    s.engine? eng = some e → e.running = some r → r.nodes[i]? = some y → r.graph[i]? = some n → y.on = true → y.fail = none →
    n.code = 0 → s.ownBusy (ownerOf eng (i + 2)) = false →
    ∃ t r', exec (.nodeCompletion eng i) s = .next t ∧ (t.engine? eng).bind (·.running) = some r' ∧
      (∃ z, r'.nodes[i]? = some z ∧ z.phase = .ended) ∧ r'.fail = r.fail ∧ r'.ctr = r.ctr ∧ t.mem = s.mem) ∧
  (∀ (s s1 s2 s3 : State) (j : SealJob) (l : Launch) (bs : List Byte) (d : SealDesc) (m : ByteMap),
    s.seals.find? (fun k => k.id == j.id) = some j → j.cmd = false → s.sealGone j = false → s.launch? j.launch = some l →
    s.sealDescBytes j = .ok s1 bs → sealDesc l.lr bs = some d → s1.gather (s1.sealWho j 2) d.ranges = .ok s2 m →
    s2.scatter (s2.sealWho j 2) (putBytes [] d.sout
      (s2.sealRecord 0 j.ctx j.tag d.ranges.length (rangeDigest m d.ranges) d.nonce)) = .ok s3 () → s3.launch? j.launch = some l →
    ∃ t l', exec (.sealRecord j.id) s = .next t ∧ t.dev.sealSeq = s2.dev.sealSeq + 1 ∧ (∀ k ∈ t.seals, k.id ≠ j.id) ∧
      t.launch? j.launch = some l' ∧ l'.sealed = true ∧ l'.sealSeq = s2.dev.sealSeq ∧ l'.status = l.status ∧
      Ev.gridCompletion j.launch ∈ t.ev.due ∧ t.mem = s3.mem)

/-! ### The package -/

/-- R32, R33, R35, R16-R18, R95, R97: resets clear every team, launch and context, keep DRAM, and end in READY or RECOVERY; the
thermal-trip hold stays through a warm reset and ends by THERMTRIP below 90 °C; function-level reset retires its contexts and ends
their launches. The slices are zeroed, DRAM keeps its bytes. The clock level steps slower above 1,980 W or 95 °C and faster after a cool
window, the gate at level 7, at most once in 10 µs; a power window gives the teams their measured power in units of 100 mW rounded up,
at least 1, and one above 2,000 W at the last gate fraction enters the hold; a bandwidth window moves the launch's bytes to the last
window and lets go out what it held.
Where a clause rests on a choice of the model, it is that of the assumption log, entries 2, 72, 96, 111. -/
def Obligations.ResetsAndPower : Prop :=
  ∀ (s : State) (b : BringUp),
    let bare := fun (t : State) => t.teams = [] ∧ t.launches = [] ∧ t.ctxs = [] ∧ t.reqs = [] ∧ t.pends = [] ∧ t.cores = [] ∧
      t.mem = { s.mem with l2 := [] } ∧ t.clk = 0
    let brought := fun (t : State) => match b.fail with
      | none => t.dev.state = .ready ∧ t.ring.on = true ∧ t.ring.t = 0 ∧ t.dev.loads = b.later
      | some f => t.dev.state = .recovery ∧ t.dev.failSlot = f ∧ t.ring.on = false
    (∃ t, exec (.coldReset b) s = .next t ∧ bare t ∧ brought t ∧ t.dev.trip = false ∧ (∀ l ∈ t.dev.links, l.epochs = 0 ∧ l.state = 0) ∧
      (b.fail = none → ∀ i d, i < 4 → b.digests[i]? = some d → d.length = 48 → t.dev.slots[i]? = some d)) ∧
    (∃ t, exec (.warmReset b) s = .next t ∧ bare t ∧ t.dev.trip = s.dev.trip ∧
      (if s.dev.state = .tripped then t.dev.state = .tripped else brought t)) ∧
    (s.dev.state ≠ .tripped → ∃ t, exec .thermalTripHold s = .next t ∧ bare t ∧ t.dev.state = .tripped ∧ t.dev.trip = true) ∧
    (s.dev.state = .tripped → exec .thermalTripHold s = .next s) ∧
    (s.dev.state ≠ .tripped → ∀ c, exec (.thermtrip c b) s = .next { s with dev := { s.dev with trip := false } }) ∧
    (s.dev.state = .tripped → exec (.thermtrip false b) s = .next s ∧
      ∃ t, exec (.thermtrip true b) s = .next t ∧ bare t ∧ brought t ∧ t.dev.trip = false) ∧
    (∀ fn, s.dev.state ≠ .tripped → ∃ t, exec (.functionLevelReset fn) s = .next t ∧
      (∀ c ∈ s.ctxs, c.fn = fn → ∃ d ∈ t.ctxs, d.id = c.id ∧ d.retiring = true) ∧
      ∀ c ∈ s.ctxs, c.fn = fn → c.retiring = false → ∀ l ∈ t.launches, l.ctx ≠ c.id) ∧
    (∀ avg temp cool hot, s.dev.state ≠ .tripped →
      (105 ≤ temp ∨ (hot = true ∧ s.dev.gate = 3) →
        ∃ t, exec (.clockLevelStep avg temp cool hot) s = .next t ∧ bare t ∧ t.dev.state = .tripped ∧ t.dev.trip = true) ∧
      (temp < 105 → (hot = false ∨ s.dev.gate ≠ 3) → s.stepDue = false →
        exec (.clockLevelStep avg temp cool hot) s = .next s) ∧
      (s.stepDue = false ↔ ∃ u, s.dev.stepped = some u ∧ s.time < u + nanos 10000) ∧
      (temp < 105 → (hot = false ∨ s.dev.gate ≠ 3) → s.stepDue = true → ∃ t, exec (.clockLevelStep avg temp cool hot) s = .next t ∧
        t = { s with dev := { s.dev with level := t.dev.level, gate := t.dev.gate, stepped := t.dev.stepped } } ∧
        (1980 < avg ∨ 95 < temp ∨ cool = true → t.dev.stepped = some s.time) ∧
        (1980 < avg ∨ 95 < temp → if s.dev.level < 7 then t.dev.level = s.dev.level + 1 ∧ t.dev.gate = s.dev.gate
          else t.dev.level = s.dev.level ∧ t.dev.gate = min 3 (s.dev.gate + 1)) ∧
        (avg ≤ 1980 → temp ≤ 95 → cool = true → if 0 < s.dev.gate then t.dev.level = s.dev.level ∧ t.dev.gate + 1 = s.dev.gate
          else t.dev.level = s.dev.level - 1 ∧ t.dev.gate = 0) ∧
        (avg ≤ 1980 → temp ≤ 95 → cool = false → t = s))) ∧
    (∀ means, ∃ t, exec (.powerWindowEnd means false) s = .next t ∧ t = { s with teams := t.teams } ∧ t.teams.length = s.teams.length ∧
      ∀ (j : Nat) (x : Team), s.teams[j]? = some x → t.teams[j]? =
        some (match means.find? fun m => m.1 == x.launch with
          | some m => { x with power := max 1 ((m.2 + 99) / 100) }
          | none => x)) ∧
    (∀ means, s.dev.state ≠ .tripped → s.dev.gate = 3 → ∃ t, exec (.powerWindowEnd means true) s = .next t ∧ bare t ∧
      t.dev.state = .tripped ∧ t.dev.trip = true) ∧
    (∃ t, exec .bandwidthWindow s = .next t ∧ t = { s with launches := t.launches, bwWait := t.bwWait } ∧
      (∀ e ∈ t.bwWait, e.2 = true ∧ (e.1, false) ∈ s.bwWait) ∧ (∀ o, (o, false) ∈ s.bwWait → (o, true) ∈ t.bwWait) ∧
      ∀ (j : Nat) (l : Launch), s.launches[j]? = some l → t.launches[j]? = some { l with lastBytes := l.winBytes, winBytes := 0 }) ∧
    exec .pcieConfigRequest s = .next { s with out := .config (s.dev.state != .bringUp) :: s.out }

/-- R27, R37, R39, R48, R49, R78, R161: what the host writes and reads through a function: the aperture registers, the mailbox start, the
peer id and routes, CHPWR, the queue registers (QBASE only while the queue is idle), a tail offered in range, a translation request,
and the memory aperture; a link that is enabled starts to train. R39, R83, R164: an access through the aperture reads or writes the
bytes at their home, waits while its page drains, is refused where no translation has it, and a write of a retiring context is dropped.
Where a clause rests on a choice of the model, it is that of the assumption log, entries 73, 74, 104, 106. -/
def Obligations.HostAccesses : Prop :=
  ∀ (s : State) (fn q off : Nat) (val : BitVec 64),
    (s.dev.state ≠ .tripped → fn < s.fns.length → q < (s.fn fn).queues.length → q < 16 →
      (∃ t, exec (.registerWrite fn 0x18 val) s = .next t ∧ (t.fn fn).apCtx = val.toNat % 64 ∧ (t.fn fn).apOn = val.getLsbD 63 ∧
        t.mem = s.mem ∧ t.teams = s.teams) ∧
      (∃ t, exec (.registerWrite fn 0x20 val) s = .next t ∧
        (t.fn fn).apBase = val.toNat % 2 ^ 56 - val.toNat % (if fn = 0 then 2 ^ 36 else 2 ^ 32) ∧ t.mem = s.mem) ∧
      ((s.fn fn).running = true → exec (.registerWrite fn 0x1080 1) s = .next s) ∧
      ((s.fn fn).running = false → ∀ e, s.mailEvent fn = some e → ∃ t, exec (.registerWrite fn 0x1080 1) s = .next t ∧
        (t.fn fn).running = true ∧ e ∈ t.ev.now ∧ t.mem = s.mem) ∧
      (fn = 0 → exec (.registerWrite 0 0x80000 val) s = .next { s with dev := { s.dev with peerId := val.setWidth 6 } }) ∧
      (fn = 0 → ∀ p, p < 64 → ∃ t, exec (.registerWrite 0 (0x80100 + 8 * p) val) s = .next t ∧ t = { s with dev := t.dev } ∧
        t.dev = { s.dev with route := t.dev.route } ∧ sget t.dev.route p = val.setWidth 16 ∧
        ∀ k, k ≠ p → sget t.dev.route k = sget s.dev.route k) ∧
      (exec (.chpwrWrite val) s = .next { s with dev := { s.dev with
        pdt := val.setWidth 12, srt := val.extractLsb' 16 16, cuurst := s.dev.cuurst &&& ~~~(val.extractLsb' 32 16) } }) ∧
      (∃ t, exec (.queueRegisterWrite fn q 0 val) s = .next t ∧ (t.queue fn q).base =
        if (s.queue fn q).enable = false ∧ (s.queue fn q).head = (s.queue fn q).tail then val.toNat else (s.queue fn q).base) ∧
      ((s.queue fn q).enable = false → (s.queue fn q).head = (s.queue fn q).tail →
        ∃ t, exec (.queueRegisterWrite fn q 8 val) s = .next t ∧ (t.queue fn q).logn = val.toNat % 32 ∧
          ((t.queue fn q).enable = true ↔ (val.getLsbD 5 = true ∧ 4 ≤ val.toNat % 32 ∧ val.toNat % 32 ≤ 16 ∧
            (s.queue fn q).base % 4096 = 0))) ∧
      (let x := s.queue fn q
       let n := 2 ^ x.logn
       let v := val.toNat % 2 ^ 32
       (v = x.tail → exec (.doorbell fn q 0 val) s = .next s) ∧
       (v ≠ x.tail → v < n → (x.tail + n - x.head) % n ≤ (v + n - x.head) % n → ∃ t, exec (.doorbell fn q 0 val) s = .next t ∧
         (t.queue fn q).tail = v ∧ Ev.launchRecord fn q ∈ t.ev.due ∧ t.mem = s.mem) ∧
       (v ≠ x.tail → n ≤ v → ∃ t, exec (.doorbell fn q 0 val) s = .next t ∧ (t.queue fn q).err = true ∧
         (t.queue fn q).tail = x.tail ∧ t.out = .msix fn 0 :: s.out)) ∧
      (∀ c, (s.queue fn q).ctx = some c → (∀ r ∈ s.trs, r.id < s.nextId) → ∃ t r, exec (.doorbell fn q 0x800 val) s = .next t ∧
        r ∈ t.trs ∧ r.id = s.nextId ∧ r.ctx = c ∧ r.fn = fn ∧ r.q = q ∧ r.addr = val.toNat ∧ t.mem = s.mem)) ∧
    (s.dev.state = .tripped → exec (.doorbell fn q off val) s = .next { s with out := .unsupported fn :: s.out }) ∧
    (∀ n, s.aperture fn off n = none → exec (.bar4Read fn off n) s = .next { s with out := .unsupported fn :: s.out }) ∧
    (∀ data, s.aperture fn off data.length = none →
      exec (.bar4Write fn off data) s = .next { s with out := .unsupported fn :: s.out }) ∧
    (∀ n c va (wr : Option (List (BitVec 8))), s.aperture fn off n = some (c, va) → (∀ bs, wr = some bs → bs.length = n) →
      (∀ b ∈ s.bars, b.fn ≠ fn ∧ b.id ≠ s.nextId) →
      let i := match wr with
        | none => Instr.bar4Read fn off n
        | some bs => .bar4Write fn off bs
      let retires := (s.ctx? c).any (·.retiring)
      let t := { s with nextId := s.nextId + 1 }
      (retires = true → wr.isSome = true → exec i s = .next t) ∧
      (retires = false → s.lookup c va = none → exec i s = .next { t with out := .unsupported fn :: s.out }) ∧
      (∀ x, retires = false → s.lookup c va = some x →
        (x.lost = true ∨ x.va + 2 ^ x.lg < va + n ∨ (wr.isSome = true ∧ x.w = false) →
          exec i s = .next { t with out := .unsupported fn :: s.out }) ∧
        (x.lost = false → va + n ≤ x.va + 2 ^ x.lg → (wr.isSome = true → x.w = true) →
          (x.drain = true → ∃ b, exec i s = .next { t with bars := s.bars ++ [b] } ∧ b.fn = fn ∧ b.ctx = c ∧ b.va = va ∧ b.n = n ∧
            b.wr = wr ∧ b.id = s.nextId) ∧
          (∀ d cmb, x.drain = false → x.target va = .home d false cmb → s.inSlice c d n → s.lockedSpan d n = false → s.combs = [] →
            (wr = none → exec i s = .next { t with
              out := .barData fn (s.mem.homeBytes (s.keyOf c) c d n) (s.spanBad c d false n) :: s.out }) ∧
            (∀ bs, wr = some bs → ∃ u, exec i s = .next u ∧ u = { t with mem := u.mem } ∧
              u.mem.homeBytes (s.keyOf c) c d n = bs ∧ u.mem.dev = s.mem.dev ∧ u.mem.host = s.mem.host ∧
              ∀ k e a, e ≠ c ∨ a < d ∨ d + n ≤ a → u.mem.homeByte k e a = s.mem.homeByte k e a))))) ∧
    (∀ n, n < s.dev.links.length → (s.link n).state = 0 → s.dev.state = .ready → ∃ t, exec (.linkEnable n true) s = .next t ∧
      (t.link n).state = 1 ∧ (t.link n).enable = true ∧ (∀ k, k ≠ n → t.link k = s.link k) ∧ t = { s with dev := t.dev }) ∧
    (∀ n, n < s.dev.links.length → (s.link n).state ≠ 2 → ∃ t, exec (.linkEnable n false) s = .next t ∧ (t.link n).state = 0 ∧
      (t.link n).enable = false ∧ (∀ k, k ≠ n → t.link k = s.link k) ∧ t = { s with dev := t.dev })

/-- R42-R47, R65, R67, R109, R114, R115, R267: a mailbox command ends with its result and MSI-X vector 0. CTX_CREATE gives a context its id,
a fresh key and its exports; CTX_RETIRE ends its launches and starts the sweep, after which the context and its translations are gone;
QUEUE_BIND binds a queue; VF_CONFIG gives a function its share; ATTEST and CERT_READ write their buffer; PREEMPT sets PREQ in
every group of the launch; RESUME lets a parked launch go on; RING_EVICT of empty slots releases them.
Where a clause rests on a choice of the model, it is that of the assumption log, entries 85, 86, 87, 88, 89, 106, 107. -/
def Obligations.MailboxCommands : Prop :=
  ∀ (s : State) (fn : Nat), fn < s.fns.length →
    let b := s.mailCmd fn
    let ends := fun (t : State) (st b1 : Nat) => (t.fn fn).running = false ∧ field (t.fn fn).result 0 1 = st ∧
      field (t.fn fn).result 1 1 = b1 ∧ Emission.msix fn 0 ∈ t.out
    (∀ i id table exports pages, i = .ctxCreate fn ∨ i = .ctxCreateResume fn → createOk b = true → s.dev.state = .ready →
      (if field b 1 1 = 0xFF then (List.range 64).find? (fun k => (s.ctx? k).isNone) = some id
       else field b 1 1 = id ∧ s.ctx? id = none) →
      (s.holding fn).1 < (s.share fn).1 → (s.holding fn).2 + field b 6 2 ≤ (s.share fn).2 →
      (s.fn fn).root = none → rootDesc (s.hostRead (field b 16 8) 4096) = some (table, exports) →
      s.exportPages id table exports = some pages → pages.length ≤ Config.storeSize →
      s.roomFor (pages.map fun x => { x with ctx := id }) = true →
      ∃ t c, exec i s = .next t ∧ t.ctxs = s.ctxs ++ [c] ∧ c.id = id ∧ c.fn = fn ∧ c.table = table ∧ c.exports = exports ∧
        c.key = s.dev.keyNext + 1 ∧ t.dev.keyNext = s.dev.keyNext + 1 ∧ c.ccores = field b 2 2 ∧ c.cpower = field b 4 2 ∧
        c.ringq = field b 6 2 ∧ c.cbw = field b 8 4 ∧ c.retiring = false ∧ ends t 0 id ∧ t.mem = s.mem) ∧
    (∀ c, field b 1 1 < 64 → field b 8 8 % 256 = 0 → spareOk b [(2, 6), (16, 48)] = true → s.ctx? (field b 1 1) = some c →
      c.fn = fn → c.retiring = false → ∃ t d, exec (.ctxRetire fn) s = .next t ∧ t.ctx? c.id = some d ∧ d.retiring = true ∧
        (∀ l ∈ t.launches, l.ctx ≠ c.id) ∧ (∀ r ∈ t.reqs, r.ctx ≠ c.id) ∧ (∀ r ∈ t.rops, r.ctx ≠ c.id) ∧
        (∀ x ∈ t.combs, x.ctx ≠ c.id) ∧ (∀ x ∈ t.mem.l2, x.ctx ≠ c.id) ∧ Ev.retirementSweepEnd c.id ∈ t.ev.due) ∧
    (∀ k c, s.ctx? k = some c → c.retiring = true → c.sweep ≤ s.time → ∃ t, exec (.retirementSweepEnd k) s = .next t ∧
      (∀ d ∈ t.ctxs, d.id ≠ k) ∧ (∀ x ∈ t.xl, x.ctx ≠ k) ∧ (∀ y ∈ t.ring.slots, y.ctx = k → y.rel = true ∧ y.payload = 0) ∧
      (∀ j ∈ t.seals, j.ctx ≠ k) ∧ t.mem.dev = s.mem.dev) ∧
    (∀ c, field b 1 1 < 16 → field b 2 1 < 64 → spareOk b [(3, 61)] = true → s.ctx? (field b 2 1) = some c → c.fn = fn →
      c.retiring = false → (s.queue fn (field b 1 1)).enable = false → field b 1 1 < (s.fn fn).queues.length →
      (s.queue fn (field b 1 1)).head = (s.queue fn (field b 1 1)).tail →
      ∃ t, exec (.queueBind fn) s = .next t ∧ (t.queue fn (field b 1 1)).ctx = some c.id ∧ ends t 0 0 ∧ t.mem = s.mem) ∧
    (fn = 0 → ∀ vf, field b 1 1 = vf → 0 < vf → vf ≤ 32 → vf < s.fns.length → field b 2 1 ≤ 64 → field b 4 2 ≤ 2176 →
      spareOk b [(3, 1), (6, 58)] = true → (s.holding vf).1 ≤ field b 2 1 → (s.holding vf).2 ≤ field b 4 2 →
      (let f := modAt s.fns vf fun f => { f with maxCtx := field b 2 1, rings := field b 4 2 }
       (s.holding 0).1 + ((f.drop 1).map (·.maxCtx)).sum ≤ 64 ∧ (s.holding 0).2 + ((f.drop 1).map (·.rings)).sum ≤ 2176) →
      s.dev.state ≠ .recovery → ∃ t, exec (.vfConfig 0) s = .next t ∧ (t.fn vf).maxCtx = field b 2 1 ∧ (t.fn vf).rings = field b 4 2 ∧ ends t 0 0) ∧
    (field b 8 8 % 64 = 0 → spareOk b [(1, 7), (20, 12)] = true →
      (s.attestation (slice b 32 32)).length ≤ field b 16 4 → ∃ t, exec (.attest fn) s = .next t ∧
        t.hostRead (field b 8 8) (s.attestation (slice b 32 32)).length = s.attestation (slice b 32 32) ∧
        t.dev.sealSeq = s.dev.sealSeq + 1 ∧ ends t 0 0 ∧ t.mem.dev = s.mem.dev) ∧
    (field b 8 8 % 64 = 0 → spareOk b [(1, 7), (20, 44)] = true → Config.certificate.length ≤ field b 16 4 →
      ∃ t, exec (.certRead fn) s = .next t ∧ t.hostRead (field b 8 8) Config.certificate.length = Config.certificate ∧
        ends t 0 0 ∧ t.mem.dev = s.mem.dev) ∧
    (launchNamed b = true → s.namedLaunch fn = none → (∃ t, exec (.preempt fn) s = .next t ∧ ends t 0 2) ∧
      (∃ t, exec (.resume fn) s = .next t ∧ ends t 0 2) ∧ ∃ t, exec (.ringEvict fn) s = .next t ∧ ends t 0 2) ∧
    (∀ l s1 k, launchNamed b = true → s.namedLaunch fn = some l → l.phase = .running → l.pre = none →
      s.takeBlock l.id = some (s1, k) → ∃ t, exec (.preempt fn) s = .next t ∧
        ∀ x ∈ t.teams, x.launch = l.id → x.ended = false → ∀ g ∈ x.groups, g.preq = true) ∧
    (∀ l, launchNamed b = true → s.namedLaunch fn = some l → s.launch? l.id = some l → l.phase = .parked ∨ l.phase = .evicted →
      ∃ t d, exec (.resume fn) s = .next t ∧ t.launch? l.id = some d ∧ d.phase = l.resumeTo ∧ ends t 0 0 ∧ t.mem = s.mem ∧
        resumeEvent l.id l.resumeTo ∈ t.ev.due) ∧
    (∀ l, launchNamed b = true → s.namedLaunch fn = some l → s.launch? l.id = some l → l.phase = .parked → l.slots ≠ [] →
      (∀ x ∈ s.ring.slots, x.launch = l.id → x.occ = false ∧ x.evict = false) → (∀ x ∈ s.ring.alit, x.launch ≠ l.id) →
      ∃ t d, exec (.ringEvict fn) s = .next t ∧ t.launch? l.id = some d ∧ d.phase = .evicted ∧ d.slots = [] ∧ ends t 0 0 ∧
        t.mem = s.mem)

/-- R78-R82: a DRAIN marks the pages of its range and is refused where a covered page may not migrate; it and CONFIRM end with
STATUS 1 when every peer has acknowledged and nothing is on its way; CONFIRM evicts the slices' lines of the old frames, those
with a dirty sector by a write-back that it waits for, and then drops the draining translations; MIGRATE moves the page's bytes in
DRAM once both frames' lines are written back; EXPORTS takes over
the new exports. A request that is over writes STATUS and sends its vector.
Where a clause rests on a choice of the model, it is that of the assumption log, entry 90. -/
def Obligations.TranslationRequests : Prop :=
  ∀ (s : State) (t : TrReq), s.trs.find? (fun x => x.id == t.id) = some t →
    let isOver := fun (u : State) (st : BitVec 8) => (∃ x, u.tr? t.id = some x ∧ x.status = st ∧ x.phase = .final) ∧
      Ev.translationRequestDone t.id ∈ u.ev.now
    ((∀ x ∈ s.trs, x.id ≠ t.id → x.fn ≠ t.fn ∨ x.q ≠ t.q) → ∃ u, exec (.translationRequestDone t.id) s = .next u ∧
      (∀ x ∈ u.trs, x.id ≠ t.id) ∧ u.hostRead (t.addr + 3) 1 = [t.status] ∧ u.mem.dev = s.mem.dev ∧
      (t.vec ≠ 0xFF → Emission.msix t.fn t.vec ∈ u.out)) ∧
    (t.phase = .queued → s.drainRefused t = true → ∃ u, exec (.drain t.id) s = .next u ∧ isOver u 2 ∧ u.xl = s.xl) ∧
    (t.phase = .queued → s.drainRefused t = false → ∃ u, exec (.drain t.id) s = .next u ∧ (∀ x ∈ u.xl, t.meets x = true → x.drain = true) ∧
      (∀ x, t.meets x = false → (x ∈ u.xl ↔ x ∈ s.xl)) ∧ (∃ x, u.tr? t.id = some x ∧ x.phase = .acks) ∧ u.mem = s.mem) ∧
    (t.phase = .acks → t.peers = [] → ∃ u, exec (.drain t.id) s = .next u ∧ isOver u 1 ∧ u.xl = s.xl ∧ u.mem = s.mem) ∧
    (t.phase = .queued → (∀ x ∈ s.xl, t.meets x = true → x.drain = false) → ∃ u, exec (.confirm t.id) s = .next u ∧ isOver u 1 ∧ u.xl = s.xl) ∧
    (t.phase = .acks → t.peers = [] → s.rangeBusy t = false → s.combs = [] →
      let old := fun (line : Nat) => ∃ x ∈ s.xl, t.meets x = true ∧ x.drain = true ∧ x.peer = none ∧
        x.frame < (line + 1) * 128 ∧ line * 128 < x.frame + 2 ^ x.lg
      ∃ u, exec (.confirm t.id) s = .next u ∧ u.mem.dev = s.mem.dev ∧ u.mem.host = s.mem.host ∧ u.mem.poison = s.mem.poison ∧
        (∀ y ∈ s.mem.l2, ¬ old y.line → y ∈ u.mem.l2) ∧ (∀ y ∈ u.mem.l2, ¬ old y.line → y ∈ s.mem.l2) ∧
        ((∀ y ∈ s.mem.l2, old y.line → y.dirty = 0) → isOver u 1 ∧ (∀ y ∈ u.mem.l2, ¬ old y.line) ∧
          ∀ x, x ∈ u.xl ↔ x ∈ s.xl ∧ ¬(t.meets x = true ∧ x.drain = true)) ∧
        (∀ y ∈ s.mem.l2, old y.line → y.dirty ≠ 0 → u.xl = s.xl ∧ Ev.confirm t.id ∈ u.ev.due ∧ { y with out := true } ∈ u.mem.l2) ∧
        (∀ y ∈ u.mem.l2, old y.line → y.dirty ≠ 0 ∧ y.out = true)) ∧
    (∀ x, t.phase = .confirm → t.peers = [] → s.rangeBusy t = false → s.combs = [] → s.migratePage t = .inl x → s.mem.ok = true →
      0 < t.len →
      let either := fun (line : Nat) => (x.frame < (line + 1) * 128 ∧ line * 128 < x.frame + t.len) ∨
        (t.frame < (line + 1) * 128 ∧ line * 128 < t.frame + t.len)
      (∀ y, s.walkCtx t.ctx t.base = some y → y.va = t.base → y.lg = x.lg → y.frame = t.frame → y.peer = none →
        (∀ z ∈ s.mem.l2, either z.line → z.dirty = 0) → ∃ u, exec (.migrate t.id) s = .next u ∧ isOver u 1 ∧
          (∀ j, j < t.len → u.mem.byte (s.keyOf t.ctx) (t.frame + j) = s.mem.byte (s.keyOf t.ctx) (x.frame + j)) ∧
          u.mem.host = s.mem.host ∧ ∀ z ∈ u.mem.l2, ¬ either z.line) ∧
      (∀ z ∈ s.mem.l2, either z.line → z.dirty ≠ 0 → ∃ u, exec (.migrate t.id) s = .next u ∧ u.xl = s.xl ∧
        Ev.migrate t.id ∈ u.ev.due ∧ u.mem.dev = s.mem.dev ∧ { z with out := true } ∈ u.mem.l2)) ∧
    (∀ c table l pages, t.exps = none → s.ctx? t.ctx = some c → rootDesc (s.hostRead c.rootDesc 4096) = some (table, l) →
      s.exportPages c.id c.table l = some pages → pages.length ≤ Config.storeSize → s.roomFor pages = true →
      ∃ u d, exec (.exportsRequest t.id) s = .next u ∧ isOver u 1 ∧ u.ctx? t.ctx = some d ∧ d.exports = l ∧ u.mem = s.mem)

/-- R20, R21, R24, R26-R28, R30: a link that trains tells its peer id and whether it accepts the far end's; it goes into a new session
when both ends accept, with every other link to a peer that had been lost, and into state 3 otherwise; a failed link leaves the up state
with its event, its frames go out again on the link that is left, in their order, and a peer that it was the last link of is lost; a
discarded frame is counted, and replay is
asked for; a replay sends the kept frames again; a re-key starts a new epoch, in which the kept frames are sent first; an idle link
sends a heartbeat, unless its limit of frames is reached.
Where a clause rests on a choice of the model, it is that of the assumption log, entries 75, 94, 95, 114. -/
def Obligations.LinkEvents : Prop :=
  ∀ (s : State) (n : Nat), n < s.dev.links.length →
    let l := s.link n
    (∀ (far : BitVec 6) (acc : Bool), l.state = 1 → acc = true → (sget s.dev.route far.toNat).getLsbD n = true →
      let anew := fun (k : Nat) => k = n ∨ (far.toNat ∈ s.dev.lost ∧ k < 16 ∧ (s.link k).state = 2 ∧ (s.link k).farPeer = far)
      (∀ k, anew k → ∀ m ∈ (s.link k).unacked.map (·.2) ++ (s.link k).waiting, m.dst = far) →
      ∃ t, exec (.linkTraining n far acc) s = .next t ∧
        (∀ k, anew k → t.link k =
          { s.link k with state := 2, farPeer := far, heard := true, epoch := 0, sendCnt := 0, recvCnt := 0, unacked := [], waiting := [],
                          discards := [], sentAt := s.time }) ∧ (∀ k, ¬ anew k → t.link k = s.link k) ∧
        far.toNat ∉ t.dev.lost ∧ (far.toNat, s.time) ∈ t.dev.heard ∧ t = { s with dev := t.dev, out := t.out } ∧
        t.out = .training n s.dev.peerId true :: s.out) ∧
    (∀ far acc, l.state = 1 → (acc = false ∨ (sget s.dev.route far.toNat).getLsbD n = false) →
      ∃ t, exec (.linkTraining n far acc) s = .next t ∧ t.link n = { l with state := 3, farPeer := far, heard := true } ∧
        t = { s with dev := t.dev, out := t.out } ∧
        t.out = .training n s.dev.peerId ((sget s.dev.route far.toNat).getLsbD n) :: s.out) ∧
    (l.state = 2 → (∀ p, (sget s.dev.route p).getLsbD n = false) → l.unacked = [] → l.waiting = [] →
      ∃ t, exec (.linkFailure n) s = .next t ∧
      t.link n = { l with state := if l.enable then 1 else 0, downEv := true, unacked := [], waiting := [], discards := [] } ∧
      (∀ k, k ≠ n → t.link k = s.link k) ∧ t = { s with dev := t.dev }) ∧
    (let sent := l.unacked.map (·.2) ++ l.waiting
     let left := fun (p : Nat) => (s.linksTo p).filter (· != n)
     (∀ k, l.state = 2 → (∀ p, p < 64 → (sget s.dev.route p).getLsbD n = true → left p ≠ []) → (∀ m ∈ sent, left m.dst.toNat = [k]) →
       k < s.dev.links.length → (s.link k).waiting = [] → (s.link k).unacked.length + sent.length ≤ 256 →
       (((s.link k).unacked.map (·.2) ++ sent).filter msgControl).length ≤ 32 →
       ∃ t, exec (.linkFailure n) s = .next t ∧ (t.link n).state = (if l.enable then 1 else 0) ∧ (t.link n).downEv = true ∧
         (t.link n).unacked = [] ∧ (t.link n).waiting = [] ∧
         (k ≠ n → (t.link k).unacked.map (·.2) = (s.link k).unacked.map (·.2) ++ sent ∧ (t.link k).waiting = []) ∧
         t.out = (sent.map fun m => Emission.link k m).reverse ++ s.out ∧ t.dev.lost = s.dev.lost ∧ t.reqs = s.reqs ∧ t.xl = s.xl) ∧
     (∀ p, l.state = 2 → p < 64 → (sget s.dev.route p).getLsbD n = true → left p = [] → p ∉ s.dev.lost →
       ∃ t, exec (.linkFailure n) s = .next t ∧ p ∈ t.dev.lost ∧ t.peerUp p = false ∧ (∀ x ∈ t.xl, x.peer = some p → x.lost = true) ∧
         (∀ r ∈ s.reqs, r.phase = .waiting → (∃ a, r.tgt = .peer p a) → ∀ q ∈ t.reqs, q.id ≠ r.id) ∧
         ∀ k, k < s.dev.links.length → (s.link k).farPeer.toNat = p → (s.link k).heard = true → (t.link k).lostEv = true)) ∧
    (l.state = 2 → (l.discards.filter fun u => s.time < u + nanos 1000000).length < 7 → ∃ t, exec (.frameDiscard n) s = .next t ∧
      (t.link n).proto.toNat = min 65535 (l.proto.toNat + 1) ∧ (t.link n).state = 2 ∧ t = { s with dev := t.dev, out := t.out } ∧
      t.out = .replay n l.recvCnt :: s.out) ∧
    (∀ k, l.state = 2 → l.waiting = [] → let left := l.unacked.filter fun e => k ≤ e.1
      ∃ t, exec (.replayRequest n k) s = .next t ∧ (t.link n).unacked = left ∧
        t.out = (left.map fun e => Emission.link n e.2).reverse ++ s.out ∧ t = { s with dev := t.dev, out := t.out }) ∧
    (l.state = 2 → ∃ t, exec (.rekey n) s = .next t ∧ (t.link n).epoch = l.epoch + 1 ∧ (t.link n).epochs = l.epochs + 1 ∧
      (t.link n).recvCnt = 0 ∧ (t.link n).sendCnt = l.unacked.length ∧ (t.link n).unacked.map (·.2) = l.unacked.map (·.2) ∧
      (t.link n).unacked.map (·.1) = List.range l.unacked.length ∧ (t.link n).state = 2 ∧
      t.out = (l.unacked.map fun e => Emission.link n e.2).reverse ++ s.out ∧
      (∀ k, k ≠ n → t.link k = s.link k) ∧ t = { s with dev := t.dev, out := t.out }) ∧
    (l.state = 2 → l.sentAt + nanos 10000 ≤ s.time → l.controls.length < 32 → l.unacked.length < 256 → l.waiting = [] →
      ∃ t m, exec (.heartbeatTimer n) s = .next t ∧
      t.out = .link n m :: s.out ∧ m.code = 0x0F ∧ m.src = s.dev.peerId ∧ m.dst = l.farPeer ∧ (t.link n).sendCnt = l.sendCnt + 1 ∧
      (t.link n).sentAt = s.time) ∧
    ((32 ≤ l.controls.length ∨ 256 ≤ l.unacked.length) → exec (.heartbeatTimer n) s = .next s) ∧
    (∀ i, l.state ≠ 2 → i ∈ [Instr.linkFailure n, .frameDiscard n, .rekey n, .heartbeatTimer n] → exec i s = .next s)

/-- R21, R23, R28, R83, R86, R87, R208-R210, R288, R473, R509: a message that arrives on an up link and that R23 does not discard
acts by its code: reads
and writes are served where an export matches and answer LEASE_MISS elsewhere; answers complete what waits for them; a remote op of one part joins
its home's work; a credit is held; a chunk that a RECV awaits is written; DRAIN, CONFIRM and their acknowledgement mark, queue and
settle; a reset or power-down notice, and 100 µs of silence, lose the peer. A message of a lost peer changes nothing more.
R28, R87: a CONFIRM of a peer is acknowledged once no write to its range is on its way, and the marked translations of the range are
then gone; a peer of which nothing has been heard for 100 µs is lost: its translations are, and no later request reaches it.
Where a clause rests on a choice of the model, it is that of the assumption log, entries 12, 92, 93, 95, 102, 114. -/
def Obligations.PeerMessages : Prop :=
  (
    ∀ (s : State) (m : Msg) (n : Nat),
      s.inbox.contains m = false → m.src ≠ s.dev.peerId → m.dst = s.dev.peerId → s.inLink m = some n →
      let v := s.received n
      let comes := fun (c : Nat) => msgBad m c = false
      let p := m.src.toNat
      let len := max 1 (min 512 (field m.data 0 8))
      let wr := v.warmExport m len
      let ww := v.warmExport m (max 1 m.data.length)
      let wo := v.warmExport m 1
      (∀ c i, (c, i) ∈ [(1, Instr.readRequest m), (2, .writeRequest m), (3, .readResponse m), (4, .writeAcknowledgement m),
          (5, .remoteOpNoReturn m), (6, .remoteOpWithReturn m), (7, .remoteOpResponse m), (8, .collectiveChunk m), (9, .collectiveCredit m),
          (0x0A, .translationDrain m), (0x0B, .translationConfirm m), (0x0C, .translationAcknowledgement m), (0x0D, .resetNotice m),
          (0x0E, .powerDownNotice m), (0x0F, .heartbeat m)] →
        (msgBad m c = true → exec i s = .next (s.discard n)) ∧ (comes c → p ∈ s.dev.lost → exec i s = .next v)) ∧
      (p ∉ s.dev.lost → v.overtakes m = false →
        (comes 0x0F → exec (.heartbeat m) s = .next v ∧ ((s.link n).farPeer.toNat, s.time) ∈ v.dev.heard) ∧
        (∀ i, (i = .resetNotice m ∧ comes 0x0D) ∨ (i = .powerDownNotice m ∧ comes 0x0E) → ∃ t, exec i s = .next t ∧ p ∈ t.dev.lost ∧
          ∀ x ∈ t.xl, x.peer = some p → x.lost = true) ∧
        (comes 1 → wr.matchExport m len false = .none_ → exec (.readRequest m) s = .next (wr.answer m 3 0x10 [])) ∧
        (∀ c a d k, comes 1 → wr.matchExport m len false = .at_ c a (.home d false k) → wr.lockedSpan d len = false → wr.combs = [] →
          wr.inSlice c d len →
          (wr.spanBad c d false len = false →
            exec (.readRequest m) s = .next (wr.answer m 3 0 (wr.mem.homeBytes (wr.keyOf c) c d len))) ∧
          (wr.spanBad c d false len = true → exec (.readRequest m) s = .next (wr.answer m 3 0x12 []))) ∧
        (comes 2 → ww.matchExport m (max 1 m.data.length) true = .none_ → exec (.writeRequest m) s = .next (ww.answer m 4 0x10 [])) ∧
        (∀ c a d k, comes 2 → ww.matchExport m (max 1 m.data.length) true = .at_ c a (.home d false k) →
          ww.lockedSpan d (max 1 m.data.length) = false → ww.combs = [] → ww.inSlice c d (max 1 m.data.length) →
          ∃ t, ∃ u : State, exec (.writeRequest m) s = .next t ∧ t = u.answer m 4 0 [] ∧ u = { ww with mem := u.mem } ∧
            u.mem.homeBytes (ww.keyOf c) c d m.data.length = m.data ∧ u.mem.dev = ww.mem.dev ∧
            ∀ x e b, e ≠ c ∨ b < d ∨ d + m.data.length ≤ b → u.mem.homeByte x e b = ww.mem.homeByte x e b) ∧
        (∀ r, comes 3 → v.answered m = some r → r.writes = false → m.status = 0 →
          (r.isFill = true → ∃ t, exec (.readResponse m) s = .next t ∧ t.mem = v.mem ∧ Ev.mergingFillReturn r.id ∈ t.ev.due ∧
            ∀ q ∈ t.reqs, q.id = r.id → q.phase = .served ∧ q.data = slice m.data 0 r.n) ∧
          (r.isFill = false → exec (.readResponse m) s = .next (v.deliver r (slice m.data 0 r.n)))) ∧
        (∀ r, comes 4 → v.answered m = some r → r.writes = true →
          (m.status = 0 → exec (.writeAcknowledgement m) s = .next (v.performed r)) ∧
          (m.status ≠ 0 → exec (.writeAcknowledgement m) s = .next (v.failReq r m.status))) ∧
        (∀ r, comes 4 → v.answered m = some r → m.status = 0 →
          (r.kind = .acq → exec (.writeAcknowledgement m) s = .next (v.post [.acquireGrant r.id])) ∧
          (r.kind = .rel → exec (.writeAcknowledgement m) s = .next (v.post [.releaseAcknowledged r.id]))) ∧
        (∀ i ret c a t, (i = .remoteOpNoReturn m ∧ comes 5 ∧ ret = false) ∨ (i = .remoteOpWithReturn m ∧ comes 6 ∧ ret = true) →
          m.part = 0 → m.ropid.toNat < 16 → wo.matchExport m 1 true = .at_ c a t → ∃ u q, exec i s = .next u ∧
            u.peerRops = v.peerRops ++ [q] ∧ q.peer = p ∧ q.op = m.ropid.toNat ∧ q.ctx = c ∧ q.ret = ret ∧ q.txn = m.txn ∧
            q.gran.va = a ∧ q.gran.tgt = t ∧ q.gran.x = m.data ∧ Ev.remoteOpApply q.id 0 0 ∈ u.ev.due ∧ u.mem = v.mem) ∧
        (∀ i, (i = .remoteOpNoReturn m ∧ comes 5) ∨ (i = .remoteOpWithReturn m ∧ comes 6) → m.part = 0 → m.ropid.toNat < 16 →
          wo.matchExport m 1 true = .none_ → exec i s = .next (wo.answer m 7 0x10 [])) ∧
        (∀ r, comes 7 → v.rops = [] → v.answered m = some r → m.status = 0 → exec (.remoteOpResponse m) s = .next (v.performed r)) ∧
        (∀ r k g, comes 7 → v.rops = [r] → (r.waitingOn p).find? (fun j => match r.grans[j]? with
            | some h => h.txn == m.txn.toNat
            | none => false) = some k → r.grans[k]? = some g →
          exec (.remoteOpResponse m) s = .next (v.granServed r.id k m.status m.data)) ∧
        (∀ c e, comes 9 → v.ctx? (m.addr.toNat % 64) = some c → c.retiring = false → v.engine? (msgEngine m) = some e →
          ∃ t, exec (.collectiveCredit m) s = .next t ∧ (t.engine? (msgEngine m)).map (·.credits) =
            some (e.credits ++ [{ peer := p, node := m.addr.toNat / 256 % 256, ctx := m.ctx.toNat, eng := m.addr.toNat / 65536 % 4 }]) ∧
            t.mem = v.mem) ∧
        (∀ c r x y u, comes 8 → let eng := msgEngine m
          let j := m.addr.toNat / 256 % 256
          v.ctx? (engCtx eng) = some c → c.retiring = false → (v.engine? eng).bind (·.running) = some r →
          r.nodes[j]? = some x → r.graph[j]? = some y → y.code = 2 → x.phase = .started → m.txn.toNat ∉ x.open_ →
          v.ownBusy (ownerOf eng (j + 2)) = false → msgFits m y x (m.addr.toNat / 2 ^ 24) = true →
          v.scatter (v.engWho eng r.cmd (j + 2)) (putBytes [] (r.dst y + m.addr.toNat / 2 ^ 24) m.data) = .ok u () →
          u.ownBusy (ownerOf eng (j + 2)) = false → (u.engine? eng).bind (·.running) = some r →
          ∃ t r', exec (.collectiveChunk m) s = .next t ∧ (t.engine? eng).bind (·.running) = some r' ∧
            (r'.nodes[j]?).map (·.bytes) = some (x.bytes + m.data.length) ∧ t.mem = u.mem ∧ Ev.nodeCompletion eng j ∈ t.ev.due) ∧
        (comes 0x0A → ∃ t, exec (.translationDrain m) s = .next t ∧ t.mem = v.mem ∧
          (∀ x ∈ t.xl, x.onPeer p m.addr.toNat (field m.data 0 8) = true → x.drain = true) ∧
          ∀ x, x.onPeer p m.addr.toNat (field m.data 0 8) = false → (x ∈ t.xl ↔ x ∈ v.xl)) ∧
        (comes 0x0B → ∃ t c, exec (.translationConfirm m) s = .next t ∧ t.pcs = v.pcs ++ [c] ∧ c.peer = p ∧ c.base = m.addr.toNat ∧
          c.len = field m.data 0 8 ∧ c.txn = m.txn ∧ Ev.peerConfirmComplete c.id ∈ t.ev.due ∧ t.xl = v.xl) ∧
        (comes 0x0C → ∃ t, exec (.translationAcknowledgement m) s = .next t ∧
          (∀ x ∈ t.trs, x.id = m.txn.toNat → p ∉ x.peers) ∧ (∀ x, x.id ≠ m.txn.toNat → (x ∈ t.trs ↔ x ∈ v.trs)) ∧ t.mem = v.mem))) ∧
  (
    ∀ (s : State),
      (∀ c, s.pcs.find? (fun x => x.id == c.id) = some c → s.peerBusy c = false → ∃ t, exec (.peerConfirmComplete c.id) s = .next t ∧
        (∀ x ∈ t.pcs, x.id ≠ c.id) ∧ t.mem = s.mem ∧
        ∀ x, x ∈ t.xl ↔ (x ∈ s.xl ∧ ¬(x.onPeer c.peer c.base c.len = true ∧ x.drain = true))) ∧
      (∀ p, s.silent p = true → ∃ t, exec (.peerLossTimeout p) s = .next t ∧ p ∈ t.dev.lost ∧ t.peerUp p = false ∧
        ∀ x ∈ t.xl, x.peer = some p → x.lost = true) ∧
      (∀ p, s.silent p = false → exec (.peerLossTimeout p) s = .next s))

/-- R50, R55, R56, R59, R75, R93, R258: a launch record whose checks pass joins the launches and takes its lease, and one that fails completes at
once with the status of its first failed check, as soon as its tables are to be had; a lease makes its pages resident, or the launch completes with status 0x07; a launch
that asks for no slots runs at once, else it takes the lowest free slots; a slot passes the junction; a placed team starts with every group
at LANE_ENTRY; a grid at rest writes its completion record and is gone.
Where a clause rests on a choice of the model, it is that of the assumption log, entries 78, 97, 112. -/
def Obligations.LaunchesRun : Prop :=
  ∀ (s : State),
    (∀ fn q c, s.dev.state = .ready → fn < s.fns.length → q < (s.fn fn).queues.length → (s.queue fn q).enable = true →
      (s.queue fn q).head ≠ (s.queue fn q).tail → s.queueFree fn q = true → (s.queue fn q).ctx = some c →
      (s.ctx? c).any (·.retiring) = false →
      let b := s.hostRead ((s.queue fn q).base + 256 * (s.queue fn q).head) 256
      let w := s.reachTables fn q (s.ctx? c) b
      let r := w.1.launchCheck (s.ctx? c) b
      (w.2 = false → ∃ t, exec (.launchRecord fn q) s = .next t ∧ t.launches = w.1.launches ∧ t.queue fn q = s.queue fn q ∧
        Ev.launchRecord fn q ∈ t.ev.due ∧ t.mem = w.1.mem) ∧
      (w.2 = true → r.1 ≠ 0 → ∃ t, exec (.launchRecord fn q) s = .next t ∧ t.launches = w.1.launches ∧
        (t.queue fn q).head = ((s.queue fn q).head + 1) % 2 ^ (s.queue fn q).logn ∧
        t.hostRead r.2.cpl 32 = cplRecord r.2.tag r.1 (field b 2 1 % 64) 0 0 0 ∧ t.mem.dev = w.1.mem.dev) ∧
      (∀ d, w.2 = true → r.1 = 0 → s.ctx? c = some d → ∃ t l, exec (.launchRecord fn q) s = .next t ∧ t.launches = w.1.launches ++ [l] ∧
        l.lr = r.2 ∧ l.ctx = d.id ∧ l.fn = fn ∧ l.q = q ∧ l.idx = (s.queue fn q).head ∧ l.phase = .lease ∧
        Ev.takeLease l.id ∈ t.ev.due ∧ (t.queue fn q).head = ((s.queue fn q).head + 1) % 2 ^ (s.queue fn q).logn ∧ t.mem = w.1.mem) ∧
      (s.tableSpans (s.ctx? c) b = [] → w = (s, true))) ∧
    (∀ l c, s.launch? l.id = some l → s.ctx? l.ctx = some c →
      (l.phase = .lease → s.leasePages c l.lr.leases = none → ∃ t d, exec (.takeLease l.id) s = .next t ∧ t.launch? l.id = some d ∧
        d.phase = .finishing ∧ d.status = 0x07 ∧ Ev.gridCompletion l.id ∈ t.ev.due) ∧
      (∀ pages, l.phase = .lease → s.leasePages c l.lr.leases = some pages → s.leaseBlocked l pages = false → s.roomFor pages = true →
        ∃ t d, exec (.takeLease l.id) s = .next t ∧ t.launch? l.id = some d ∧ d.phase = .slots ∧
          (∀ x ∈ pages, ∃ y ∈ t.xl, y.same x = true ∧ y.lost = false ∨ (y = x)) ∧ Ev.slotAssignment l.id ∈ t.ev.due ∧ t.mem = s.mem) ∧
      (l.phase = .slots → l.lr.ring = 0 → l.ringSave = 0 → ∃ t d, exec (.slotAssignment l.id) s = .next t ∧ t.launch? l.id = some d ∧
        d.phase = .running ∧ Ev.clusterPlacement l.id ∈ t.ev.due ∧ t.mem = s.mem) ∧
      (l.phase = .slots → l.lr.ring ≠ 0 → l.slots = [] → s.slotsHeld l.ctx + l.lr.ring ≤ c.ringq →
        (s.freeSlots l.lr.ring).length = l.lr.ring → ∃ t d, exec (.slotAssignment l.id) s = .next t ∧ t.launch? l.id = some d ∧
          d.slots = s.freeSlots l.lr.ring ∧ t.mem = s.mem ∧
          ∀ k ∈ d.slots, ∃ y ∈ t.ring.slots, y.n = k ∧ y.launch = l.id ∧ y.asg = false ∧ y.occ = false ∧ y.ctx = l.ctx) ∧
      (l.phase = .finishing → s.launchBusy l = false → (l.lr.sealOn = false ∨ l.status ≠ 0 ∨ l.sealed = true) → l.block = none →
        ∃ t, exec (.gridCompletion l.id) s = .next t ∧ (∀ x ∈ t.launches, x.id ≠ l.id) ∧ (∀ x ∈ t.teams, x.launch ≠ l.id) ∧
          t.hostRead l.lr.cpl 32 = cplRecord l.lr.tag l.status l.ctx l.doneN l.info l.sealSeq ∧ t.mem.dev = s.mem.dev) ∧
      (l.phase = .finishing → s.launchBusy l = false → l.lr.sealOn = true → l.status = 0 → l.sealed = false →
        ∃ t j, exec (.gridCompletion l.id) s = .next t ∧ t.seals = s.seals ++ [j] ∧ j.launch = l.id ∧ j.cmd = false ∧
          j.desc = l.lr.sealPtr.toNat ∧ Ev.sealRecord j.id ∈ t.ev.due ∧ t.mem = s.mem)) ∧
    (∀ x : Slot, s.ring.slots.find? (fun y => y.n == x.n) = some x →
      (x.rel = true → ∃ t, exec (.junctionPass x.n) s = .next t ∧ (∀ y ∈ t.ring.slots, y.n ≠ x.n) ∧ t = { s with ring := t.ring }) ∧
      (x.rel = false → x.asg = false → ∃ t y, exec (.junctionPass x.n) s = .next t ∧
        t.ring.slots.find? (fun y => y.n == x.n) = some y ∧ y = { x with asg := true } ∧ t = { s with ring := t.ring })) ∧
    (∀ (x : Team) (l : Launch), s.team? x.uid = some x → s.launchOf x.uid = some l → x.live = false → x.ended = false →
      s.dispatchWaits x = false → x.resume = none → ∃ t y, exec (.dispatch x.uid) s = .next t ∧ t.team? x.uid = some y ∧ y.live = true ∧
        y.groups.length = l.lr.groups ∧ t.mem = s.mem ∧
        ∀ g ∈ y.groups, g.st = .live ∧ (g.entry 0).st = .active ∧ (g.entry 0).pc = l.lr.lane ∧ (g.entry 0).mask = BitVec.allOnes 64 ∧
          g.sget 0 = l.lr.args ∧ g.sget 1 = l.lr.seed ∧ (∀ r, 2 ≤ r → g.sget r = 0) ∧ (∀ r j, g.vget r j = 0) ∧ g.prio = l.lr.prio ∧
          g.wdog = l.lr.wdog ∧ g.rgnc = 1 ∧ g.rgnPc = l.lr.lane)

/-- R89-R93, R101, R109, R110, R310: a cluster that may be placed is placed on cores that have room for its teams, none of which runs yet, and
no other team changes; after 1 ms the oldest cluster holds the others back; a parallel pre-emption sets PREQ in the cluster that was
placed longest; a group whose fragments have all yielded is saved; a forced stop waits for the end of a run and lets a full barrier
complete, then stops the group, and its replay discards its loads, but for those of fragments parked at `yield`.
R102: a concurrent grid is placed whole or not at all. R110, R315: the image of a saved group holds its KIND (1 at the instruction, 2 for a
replay from the region PC), its PC, its split table and its registers.
R149: each clk zeroes 256 bytes of the unit of a core whose turn it is, until none is left; nothing else changes.
Where a clause rests on a choice of the model, it is that of the assumption log, entries 77, 79, 84. -/
def Obligations.PlacementAndSaves : Prop :=
  (
    ∀ (s : State),
      (∀ l s1, s.launch? l.id = some l → l.nextCluster.isSome = true → l.phase = .running →
        (∀ y ∈ s.launches, y.before l = true → s.placing y = none) → s.placing l = some s1 → l.lr.progress ≠ 3 →
        ∃ t, exec (.clusterPlacement l.id) s = .next t ∧ t.teams = s1.teams ∧ t.mem = s.mem ∧
          (∀ x ∈ s.teams, x ∈ t.teams) ∧
          ∀ x ∈ t.teams, x ∈ s.teams ∨ (x.launch = l.id ∧ x.live = false ∧ x.ended = false ∧ s.coreFits l.lr x.core = true ∧
            l.nextCluster.map (·.1) = some x.cluster)) ∧
      (∀ l s1, s.launch? l.id = some l → l.nextCluster.isSome = true → l.phase = .running →
        (∀ y ∈ s.launches, y.before l = true → s.placing y = none) → s.placing l = some s1 → l.lr.progress = 3 →
        ∃ t d, exec (.clusterPlacement l.id) s = .next t ∧ t.teams = s1.teams ∧ t.mem = s.mem ∧ (∀ x ∈ s.teams, x ∈ t.teams) ∧
          (∀ x ∈ t.teams, x ∈ s.teams ∨ (x.launch = l.id ∧ x.live = false ∧ x.ended = false)) ∧
          (∀ c, l.nextK ≤ c → c < l.lr.clusters → ∀ k ∈ l.lr.cluster c, ∃ x ∈ t.teams, x.launch = l.id ∧ x.cluster = c ∧ x.tid = k) ∧
          t.launch? l.id = some d ∧ d.nextCluster = none) ∧
      (∀ l, s.launch? l.id = some l → l.nextCluster.isSome = true → l.phase = .running →
        (∀ y ∈ s.launches, y.before l = true → s.placing y = none) → s.placing l = none →
        exec (.clusterPlacement l.id) s = .next (s.pendingOnce (.clusterPlacement l.id))) ∧
      (∀ l u, s.oldestWait = some (l, u) → u + nanos 1000000 ≤ s.time →
        exec .oldestClusterHold s = .next { s with dev := { s.dev with hold := some l } }) ∧
      (∀ l k s1 b, s.launch? l.id = some l → s.longestPlaced l.id = some k → s.refusedLong l = true → s.takeBlock l.id = some (s1, b) →
        ∃ t, exec (.parallelPreemption l.id) s = .next t ∧
          ∀ x ∈ t.teams, x.launch = l.id → x.cluster = k → x.ended = false → ∀ g ∈ x.groups, g.preq = true) ∧
      (∀ u k, let g := s.grp u k
        let kept := fun (s2 s3 : State) (l : Launch) (b i kind : Nat) (pc : U64) =>
          let h := s2.grp u k
          let at_ := imageBase b i + grpImageAt k
          ∀ vregs, h.Fits vregs → k < 16 →
          (∀ a c x y, at_ ≤ a → a < c → c < at_ + grpImageSize → a / 65536 ≠ c / 65536 → s2.savePage l.ctx a = some x →
            s2.savePage l.ctx c = some y → x / 65536 ≠ y / 65536) →
          ∃ img, s3.loadSpan l.ctx 3 at_ grpImageSize 0 = some img ∧ imgNat img 0 2 = 1 ∧ imgNat img 2 1 = kind ∧ imgNat img 3 1 = k ∧
            imgNat img 4 1 = h.firstActive.getD 0 ∧ imgNat img 8 8 = pc.toNat ∧ imgNat img 0x10 8 = h.rgnPc.toNat ∧
            imgNat img 0x18 8 = h.rgnc.toNat ∧ imgNat img 0x20 4 = h.batch.toNat ∧ imgNat img 0x24 1 = h.prio.toNat ∧
            imgNat img 0x28 4 = h.wdog.toNat ∧ (∀ r, r < 256 → imgNat img (0x1000 + 8 * r) 8 = (h.sget r).toNat) ∧
            (∀ r j, r < vregs → j < 64 → imgNat img (0x2000 + 256 * r + 4 * j) 4 = (h.vget r j).toNat) ∧
            (∀ m, 0 < m → m < 16 → imgNat img (0x700 + 8 * m) 8 = (sget h.m m).toNat) ∧
            (Grp.none.reload img vregs).split = h.split.map (fun e => { e with park := none }) ∧
            (Grp.none.reload img vregs).serial = h.serial
        let saves := fun (s0 : State) (l : Launch) (s1 s2 s3 : State) (b i kind : Nat) (pc : U64) =>
          s0.takeBlock l.id = some (s1, b) ∧ s1.takeIndex u b = some (s2, i) ∧
          s2.saveSpan l.ctx 3 (imageBase b i + grpImageAt k) grpImageSize ((s2.grp u k).image
            { kind := kind, gid := k, tent := (s2.grp u k).firstActive.getD 0, pc := pc, regs := FaultRegs.zero }) = some s3
        (∀ l s1 s2 s3 b i t0, s.forcingU u = true → g.st = .stopped → g.stopAt = some t0 → s.trapImage u k = none →
          g.parkedBy Park.migrates = false → s.unitRest u k = true → s.launchOf u = some l →
          saves (s.updTeam u fun t => { t with forced := true }) l s1 s2 s3 b i 1 g.firstPc → (s3.grp u k).st = .stopped →
          ∃ t, exec (.forcedSave u k) s = .next t ∧ (t.grp u k).st = .saved ∧ t.mem = s3.mem ∧ Ev.cooperativeSave u k ∈ t.ev.due ∧
            kept s2 s3 l b i 1 g.firstPc) ∧
        (∀ l s1 s2 s3 b i t0, s.forcingU u = true → g.st = .stopped → g.stopAt = some t0 → s.trapImage u k = none →
          (s.discardLoads u k).unitRest u k = true → s.launchOf u = some l →
          saves (s.discardLoads u k) l s1 s2 s3 b i 2 g.replayPc → (s3.grp u k).st = .stopped →
          ∃ t, exec (.forcedSaveReplay u k) s = .next t ∧ (t.grp u k).st = .saved ∧ t.mem = s3.mem ∧
            Ev.cooperativeSave u k ∈ t.ev.due ∧ kept s2 s3 l b i 2 g.replayPc ∧
            ((g.entry (g.firstActive.getD 0)).park ≠ some .yielded → g.replayPc = g.rgnPc)) ∧
        (∀ l s1 s2 s3 b i, g.st = .live → g.preq = true → g.allParked (· == .yielded) = true → s.idle u k = true →
          s.tideBusy u k = false → s.launchOf u = some l → s.takeBlock l.id = some (s1, b) → s1.takeIndex u b = some (s2, i) →
          s2.saveSpan l.ctx 3 (imageBase b i + grpImageAt k) grpImageSize ((s2.grp u k).image
            { kind := 0, gid := k, tent := (s2.grp u k).firstActive.getD 0, pc := g.firstPc, regs := FaultRegs.zero }) = some s3 →
          (s3.grp u k).st = .live →
          ∃ t, exec (.cooperativeSave u k) s = .next t ∧ (t.grp u k).st = .saved ∧ t.mem = s3.mem ∧ Ev.cooperativeSave u k ∈ t.ev.due ∧
            kept s2 s3 l b i 0 g.firstPc) ∧
        (s.forcingU u = true → g.st = .live → g.stopAt = none → g.run.isSome = true → ∃ t, exec (.forcedSave u k) s = .next t ∧
          t.grp u k = g ∧ t.mem = s.mem ∧ t.ev = s.ev) ∧
        (s.forcingU u = true → g.st = .live → g.stopAt = none → g.run = none → s.fullBars u k ≠ [] →
          ∃ t, exec (.forcedSave u k) s = .next t ∧ t.grp u k = g ∧ t.mem = s.mem ∧
            t.ev = { s.ev with now := s.ev.now ++ s.fullBars u k ++ [.forcedSave u k] }) ∧
        (s.forcingU u = true → g.st = .live → g.stopAt = none → g.run = none → s.fullBars u k = [] → ∃ t, exec (.forcedSave u k) s = .next t ∧
          (t.grp u k).st = .stopped ∧ (t.grp u k).stopAt = some s.clk ∧ (t.grp u k).v = g.v ∧ (t.grp u k).s = g.s ∧ t.mem = s.mem ∧
          Ev.forcedSave u k ∈ t.ev.due) ∧
        (s.forcingU u = true → g.st = .stopped → g.stopAt.isSome = true → s.trapStopped u k = false →
          ∃ t, exec (.forcedSaveReplay u k) s = .next t ∧
            ∀ q ∈ t.pends, q.replayed u k = true → (g.entry q.entry).park = some .yielded) ∧
        (s.forcingU u = false → (g.st = .live ∨ g.st = .stopped) → exec (.forcedSave u k) s = .next s ∧ exec (.forcedSaveReplay u k) s = .next s))) ∧
  (
    ∀ (s : State) (c n : Nat) (rest : List Nat), (s.core c).zeroing = n :: rest →
      ∃ t, exec (.poolZeroing c) s = .next t ∧ (t.core c).zeroing = (if n ≤ 1 then rest else (n - 1) :: rest) ∧
        t.teams = s.teams ∧ t.mem = s.mem ∧
        (Ev.poolZeroing c ∈ t.ev.later ∨ n ≤ 1 ∧ rest = []))

/-! ### Reset, decoding and the step -/

/-- R33, R34, R38, R48, R62, R161, R27, R32: what reset leaves, as the rules give it: the part is in bring-up, no trip, eight
measurement slots of 48 zero bytes, the seal counter at 1, CHPWR at its defaults, links down with no re-key, every queue register and
mailbox 0, nothing resident, no slot assigned, the ring off, no poisoned word. -/
def Obligations.ResetValues : Prop :=
  let r := State.reset
  (r.dev.state = .bringUp ∧ r.dev.trip = false ∧ r.dev.slots = List.replicate 8 (List.replicate 48 0) ∧ r.dev.sealSeq = 1 ∧
    r.dev.pdt = 16 ∧ r.dev.srt = 256 ∧ r.dev.cuurst = 0 ∧ r.dev.peerId = 0) ∧
  (r.dev.links.length = 16 ∧ ∀ k ∈ r.dev.links, k.state = 0 ∧ k.enable = false ∧ k.epochs = 0) ∧
  (∀ f ∈ r.fns, f.apOn = false ∧ f.apCtx = 0 ∧ f.apBase = 0 ∧ f.running = false ∧ f.queues.length = 16 ∧
    ∀ q ∈ f.queues, q.base = 0 ∧ q.logn = 0 ∧ q.enable = false ∧ q.head = 0 ∧ q.tail = 0 ∧ q.ctx = none) ∧
  (r.ctxs = [] ∧ r.xl = [] ∧ r.launches = [] ∧ r.teams = [] ∧ r.trs = [] ∧ r.seals = [] ∧ r.ring.on = false ∧ r.ring.slots = [] ∧
    r.mem.poison = [])

/-- The invariants that the statements below keep, and that others assume, hold after reset: memory lists nothing, and nothing
has been given a number yet (both are the model's own forms; the manual gives device memory no contents at reset).
Where a clause rests on a choice of the model, it is that of the assumption log, entries 1, 18. -/
def Obligations.ResetInvariant : Prop := State.reset.mem.ok = true ∧ Fresh State.reset

/-- Every step keeps the canonical form of memory, from every state that has it, whichever instruction or event it runs.
Where a clause rests on a choice of the model, it is that of the assumption log, entry 1. -/
def Obligations.StepKeepsMemoryForm : Prop :=
  ∀ s t : State, s.mem.ok = true → step s = .next t → t.mem.ok = true

/-- Every step keeps numbers fresh: no outstanding instruction and no request bears a number that is still to be given out.
Where a clause rests on a choice of the model, it is that of the assumption log, entry 18. -/
def Obligations.StepKeepsNumbersFresh : Prop :=
  ∀ s t : State, Fresh s → step s = .next t → Fresh t

/-- R317-R328, R347-R361: for every well-formed encoded instruction, decoding its words, whatever follows them, gives that
instruction and its length, every operand at every value that the encoding admits; and what decodes is well formed. -/
def Obligations.DecodeEncode : Prop :=
  (∀ (i : Instr) (rest : List (BitVec 16)), i.wf = true → encode i ≠ [] →
    decodeHalves (encode i ++ rest) = .ok i (encode i).length) ∧
  ∀ (hs : List (BitVec 16)) (i : Instr) (n : Nat), decodeHalves hs = .ok i n → i.wf = true ∧ n ≤ hs.length

/-- Words written out from the encoding tables decode to what they stand for: the halfword 0x0000 (R347), the 32-bit `nop` (R357),
the three words of R327's example, and words of the other formats (R320, R325, R328, R351-R360). -/
def Obligations.WordsDecodeAsTheTablesSay : Prop :=
  let d := fun w : BitVec 32 => decodeHalves (halves32 w)
  decodeHalves [0x0000#16] = .ok (.add16 Pfx.none 0 0) 1 ∧
  d 0x00000055#32 = .ok .nop 2 ∧
  decodeHalves (halves32 0x0000067D#32 ++ halves32 0x000122FD#32 ++ halves32 0xA28103A1#32) =
    .ok (.addImm ⟨true, 3, 0, 0⟩ 7 2 (.long 0x91 0x145)) 6 ∧
  d (3#9 ++ 2#8 ++ 1#8 ++ 0x20#6 ++ 1#1) = .ok (.sadd Pfx.none 1 2 3) 2 ∧
  d (1#1 ++ 0#1 ++ 2#2 ++ 5#5 ++ 4#8 ++ 9#8 ++ 0x1C#6 ++ 1#1) = .ok (.ld Pfx.none ⟨9, 4, 5, 2, false, true, none⟩) 2 ∧
  d (0x1FFFE#17 ++ 0#8 ++ 0x28#6 ++ 1#1) = .ok (.br Pfx.none (.short 0x1FFFE)) 2 ∧
  d (4#4 ++ 2#5 ++ 0#8 ++ 0#8 ++ 0x2C#6 ++ 1#1) = .ok (.fence 4) 2 ∧
  d (1#4 ++ 0#5 ++ 0x43#8 ++ 7#8 ++ 0x3D#6 ++ 1#1) = .ok (.csrr 7 0x43 1) 2 ∧
  d (0#4 ++ 3#5 ++ 3#8 ++ 0#8 ++ 0x34#6 ++ 1#1) = .bad .reserved ∧
  d (0#25 ++ 0x3F#6 ++ 1#1) = .bad .unassigned ∧
  d (0#4 ++ 10#5 ++ 0#16 ++ 0x2A#6 ++ 1#1) = .bad .unassigned

/-- R317, R327, R328, R361, R380: a selected party's step executes the instruction that stands at its PC: `exec` of what the bytes
decode to, with the address after it and the body words it takes. In an emitted run the next body word stands for them, and the
address after it is that after the `take`. What decodes to no instruction is the row UNASSIGNED_ENCODING.
Where a clause rests on a choice of the model, it is that of the assumption log, entry 10. -/
def Obligations.StepRunsTheDecodedInstruction : Prop :=
  ∀ (s : State) (p : Party) (port : Nat) (rest : List (Party × Nat)) (l : Launch),
    s.ev.now = [] → s.ev.issue = (p, port) :: rest → s.launchOf p.team = some l →
    let g := s.grp p.team p.unit
    let pc := (s.entry p).pc
    let s1 := ({ s with tick := s.tick + 1, cur := none, ev := { s.ev with issue := rest } } : State).warm l pc.toNat
    let at_ := fun (next : U64) (words : Nat) =>
      ({ s1.dropFetch p.team p.unit with cur := some { p := p, at_ := pc, next := next, words := words, port := port } } : State)
    let runs := fun (d : Decoded) (after : Nat → U64) =>
      (∀ i n, d = .ok i n → step s = exec i (at_ (after n) (wordsOf i n))) ∧
      (∀ why, d = .bad why → step s = exec (.unassignedEncoding why) (at_ (pc + 4) 1))
    g.st = .live → (g.entry p.entry).st = .active → (g.entry p.entry).park = none → g.rop = none →
      (g.run.bind (·.emitted) = none →
        runs (decode (s1.fetch p pc).bytes) fun n => pc + BitVec.ofNat 64 (2 * n)) ∧
      (∀ r x, g.run = some r → r.emitted = some x → r.idx < x.words.length →
        runs (decodeHalves (x.halves r.idx)) fun _ => pc + 4)

/-- A step runs the first of the events that follow at once before anything else.
Every event row of the step table has one meaning: what a step runs for an event that stands ready is what `exec` gives the
row of the same name.
Where a clause rests on a choice of the model, it is that of the assumption log, entries 5, 6. -/
def Obligations.StepRunsEvents : Prop :=
  (
    ∀ (s : State) (e : Ev) (rest : List Ev), s.ev.now = e :: rest →
      step s = runEvent e { s with tick := s.tick + 1, cur := none, ev := { s.ev with now := rest } }) ∧
  (
    ∀ s : State,
      (∀ (b : BringUp), runEvent (.coldReset b) s = exec (.coldReset b) s) ∧
      (∀ (b : BringUp), runEvent (.warmReset b) s = exec (.warmReset b) s) ∧
      (∀ (fn : Nat), runEvent (.functionLevelReset fn) s = exec (.functionLevelReset fn) s) ∧
      runEvent .thermalTripHold s = exec .thermalTripHold s ∧
      (∀ (below90 : Bool) (b : BringUp), runEvent (.thermtrip below90 b) s = exec (.thermtrip below90 b) s) ∧
      (∀ (avgW maxTemp : Nat) (windowCool windowHot : Bool), runEvent (.clockLevelStep avgW maxTemp windowCool windowHot) s =
        exec (.clockLevelStep avgW maxTemp windowCool windowHot) s) ∧
      (∀ (means : List (Nat × Nat)) (hot : Bool), runEvent (.powerWindowEnd means hot) s = exec (.powerWindowEnd means hot) s) ∧
      runEvent .bandwidthWindow s = exec .bandwidthWindow s ∧
      runEvent .pcieConfigRequest s = exec .pcieConfigRequest s ∧
      (∀ (fn off : Nat) (val : BitVec 64), runEvent (.registerWrite fn off val) s = exec (.registerWrite fn off val) s) ∧
      (∀ (fn off n : Nat), runEvent (.bar4Read fn off n) s = exec (.bar4Read fn off n) s) ∧
      (∀ (fn off : Nat) (data : List (BitVec 8)), runEvent (.bar4Write fn off data) s = exec (.bar4Write fn off data) s) ∧
      (∀ (fn q off : Nat) (val : BitVec 64), runEvent (.queueRegisterWrite fn q off val) s = exec (.queueRegisterWrite fn q off val) s) ∧
      (∀ (fn q off : Nat) (v : BitVec 64), runEvent (.doorbell fn q off v) s = exec (.doorbell fn q off v) s) ∧
      (∀ (val : BitVec 64), runEvent (.chpwrWrite val) s = exec (.chpwrWrite val) s) ∧
      (∀ (n : Nat) (en : Bool), runEvent (.linkEnable n en) s = exec (.linkEnable n en) s) ∧
      (∀ (fn : Nat), runEvent (.ctxCreate fn) s = exec (.ctxCreate fn) s) ∧
      (∀ (fn : Nat), runEvent (.ctxCreateResume fn) s = exec (.ctxCreateResume fn) s) ∧
      (∀ (fn : Nat), runEvent (.ctxRetire fn) s = exec (.ctxRetire fn) s) ∧
      (∀ (fn : Nat), runEvent (.queueBind fn) s = exec (.queueBind fn) s) ∧
      (∀ (fn : Nat), runEvent (.vfConfig fn) s = exec (.vfConfig fn) s) ∧
      (∀ (fn : Nat), runEvent (.attest fn) s = exec (.attest fn) s) ∧
      (∀ (fn : Nat), runEvent (.certRead fn) s = exec (.certRead fn) s) ∧
      (∀ (fn : Nat), runEvent (.preempt fn) s = exec (.preempt fn) s) ∧
      (∀ (fn : Nat), runEvent (.resume fn) s = exec (.resume fn) s) ∧
      (∀ (fn : Nat), runEvent (.ringEvict fn) s = exec (.ringEvict fn) s) ∧
      (∀ (tr : Nat), runEvent (.drain tr) s = exec (.drain tr) s) ∧
      (∀ (tr : Nat), runEvent (.confirm tr) s = exec (.confirm tr) s) ∧
      (∀ (tr : Nat), runEvent (.migrate tr) s = exec (.migrate tr) s) ∧
      (∀ (tr : Nat), runEvent (.exportsRequest tr) s = exec (.exportsRequest tr) s) ∧
      (∀ (tr : Nat), runEvent (.translationRequestDone tr) s = exec (.translationRequestDone tr) s) ∧
      (∀ (n : Nat) (farId : BitVec 6) (farAccepts : Bool), runEvent (.linkTraining n farId farAccepts) s = exec (.linkTraining n farId farAccepts) s) ∧
      (∀ (n : Nat), runEvent (.linkFailure n) s = exec (.linkFailure n) s) ∧
      (∀ (n : Nat), runEvent (.frameDiscard n) s = exec (.frameDiscard n) s) ∧
      (∀ (n fcnt : Nat), runEvent (.replayRequest n fcnt) s = exec (.replayRequest n fcnt) s) ∧
      (∀ (n : Nat), runEvent (.rekey n) s = exec (.rekey n) s) ∧
      (∀ (n : Nat), runEvent (.heartbeatTimer n) s = exec (.heartbeatTimer n) s) ∧
      (∀ (m : Msg), runEvent (.readRequest m) s = exec (.readRequest m) s) ∧
      (∀ (m : Msg), runEvent (.writeRequest m) s = exec (.writeRequest m) s) ∧
      (∀ (m : Msg), runEvent (.readResponse m) s = exec (.readResponse m) s) ∧
      (∀ (m : Msg), runEvent (.writeAcknowledgement m) s = exec (.writeAcknowledgement m) s) ∧
      (∀ (m : Msg), runEvent (.remoteOpNoReturn m) s = exec (.remoteOpNoReturn m) s) ∧
      (∀ (m : Msg), runEvent (.remoteOpWithReturn m) s = exec (.remoteOpWithReturn m) s) ∧
      (∀ (m : Msg), runEvent (.remoteOpResponse m) s = exec (.remoteOpResponse m) s) ∧
      (∀ (m : Msg), runEvent (.collectiveChunk m) s = exec (.collectiveChunk m) s) ∧
      (∀ (m : Msg), runEvent (.collectiveCredit m) s = exec (.collectiveCredit m) s) ∧
      (∀ (m : Msg), runEvent (.translationDrain m) s = exec (.translationDrain m) s) ∧
      (∀ (m : Msg), runEvent (.translationConfirm m) s = exec (.translationConfirm m) s) ∧
      (∀ (pc : Nat), runEvent (.peerConfirmComplete pc) s = exec (.peerConfirmComplete pc) s) ∧
      (∀ (m : Msg), runEvent (.translationAcknowledgement m) s = exec (.translationAcknowledgement m) s) ∧
      (∀ (m : Msg), runEvent (.resetNotice m) s = exec (.resetNotice m) s) ∧
      (∀ (m : Msg), runEvent (.powerDownNotice m) s = exec (.powerDownNotice m) s) ∧
      (∀ (m : Msg), runEvent (.heartbeat m) s = exec (.heartbeat m) s) ∧
      (∀ (peer : Nat), runEvent (.peerLossTimeout peer) s = exec (.peerLossTimeout peer) s) ∧
      (∀ (fn q : Nat), runEvent (.launchRecord fn q) s = exec (.launchRecord fn q) s) ∧
      (∀ (l : Nat), runEvent (.takeLease l) s = exec (.takeLease l) s) ∧
      (∀ (l : Nat), runEvent (.slotAssignment l) s = exec (.slotAssignment l) s) ∧
      (∀ (l : Nat), runEvent (.clusterPlacement l) s = exec (.clusterPlacement l) s) ∧
      runEvent .oldestClusterHold s = exec .oldestClusterHold s ∧
      (∀ (core : Nat), runEvent (.poolZeroing core) s = exec (.poolZeroing core) s) ∧
      (∀ (team : Nat), runEvent (.dispatch team) s = exec (.dispatch team) s) ∧
      (∀ (l : Nat), runEvent (.parallelPreemption l) s = exec (.parallelPreemption l) s) ∧
      (∀ (team g : Nat), runEvent (.cooperativeSave team g) s = exec (.cooperativeSave team g) s) ∧
      (∀ (team g : Nat), runEvent (.forcedSave team g) s = exec (.forcedSave team g) s) ∧
      (∀ (l : Nat), runEvent (.gridCompletion l) s = exec (.gridCompletion l) s) ∧
      (∀ (sl : Nat), runEvent (.sealRecord sl) s = exec (.sealRecord sl) s) ∧
      (∀ (team g : Nat), runEvent (.watchdog team g) s = exec (.watchdog team g) s) ∧
      (∀ (team g e : Nat), runEvent (.waitingEntryActivation team g e) s = exec (.waitingEntryActivation team g e) s) ∧
      (∀ (team g e : Nat), runEvent (.serialStep team g e) s = exec (.serialStep team g e) s) ∧
      (∀ (op : Nat), runEvent (.homeAccess op) s = exec (.homeAccess op) s) ∧
      (∀ (op : Nat), runEvent (.mergingFillReturn op) s = exec (.mergingFillReturn op) s) ∧
      (∀ (op : Nat), runEvent (.loadCompletion op) s = exec (.loadCompletion op) s) ∧
      (∀ (op : Nat), runEvent (.storePerformed op) s = exec (.storePerformed op) s) ∧
      (∀ (core : Nat), runEvent (.tileOpCompletion core) s = exec (.tileOpCompletion core) s) ∧
      (∀ (team g : Nat), runEvent (.migrating team g) s = exec (.migrating team g) s) ∧
      (∀ (team g : Nat), runEvent (.replay team g) s = exec (.replay team g) s) ∧
      (∀ (team g : Nat), runEvent (.softError team g) s = exec (.softError team g) s) ∧
      (∀ (l : Nat), runEvent (.memUncorrectable l) s = exec (.memUncorrectable l) s) ∧
      (∀ (l : Nat) (why : TaskEnd), runEvent (.taskEnd l why) s = exec (.taskEnd l why) s) ∧
      (∀ (op k : Nat) (resid : Nat), runEvent (.remoteOpApply op k resid) s = exec (.remoteOpApply op k resid) s) ∧
      (∀ (op k : Nat), runEvent (.ropStatusReturn op k) s = exec (.ropStatusReturn op k) s) ∧
      (∀ (e : Nat), runEvent (.combiningAgeOut e) s = exec (.combiningAgeOut e) s) ∧
      (∀ (pch : Nat), runEvent (.lockLapse pch) s = exec (.lockLapse pch) s) ∧
      (∀ (pch : Nat), runEvent (.cuuWatchdog pch) s = exec (.cuuWatchdog pch) s) ∧
      (∀ (pch : Nat), runEvent (.idleTimer pch) s = exec (.idleTimer pch) s) ∧
      (∀ (pch : Nat), runEvent (.channelPowerEntry pch) s = exec (.channelPowerEntry pch) s) ∧
      (∀ (pch : Nat), runEvent (.channelWake pch) s = exec (.channelWake pch) s) ∧
      (∀ (core : Nat), runEvent (.slotPass core) s = exec (.slotPass core) s) ∧
      (∀ (slot : Nat), runEvent (.junctionPass slot) s = exec (.junctionPass slot) s) ∧
      (∀ (core tid : Nat), runEvent (.notag core tid) s = exec (.notag core tid) s) ∧
      (∀ (eng : Nat), runEvent (.copy eng) s = exec (.copy eng) s) ∧
      (∀ (eng : Nat), runEvent (.fill eng) s = exec (.fill eng) s) ∧
      (∀ (eng : Nat), runEvent (.chunkEnd eng) s = exec (.chunkEnd eng) s) ∧
      (∀ (eng : Nat), runEvent (.gload eng) s = exec (.gload eng) s) ∧
      (∀ (eng : Nat), runEvent (.grun eng) s = exec (.grun eng) s) ∧
      (∀ (eng node : Nat), runEvent (.nodeCompletion eng node) s = exec (.nodeCompletion eng node) s) ∧
      (∀ (eng : Nat), runEvent (.seal eng) s = exec (.seal eng) s) ∧
      (∀ (op : Nat), runEvent (.acquireGrant op) s = exec (.acquireGrant op) s) ∧
      (∀ (op : Nat), runEvent (.releaseAcknowledged op) s = exec (.releaseAcknowledged op) s) ∧
      (∀ (team : Nat) (cluster : Bool), runEvent (.barrierCompletion team cluster) s = exec (.barrierCompletion team cluster) s) ∧
      (∀ (team g e : Nat), runEvent (.timelineReached team g e) s = exec (.timelineReached team g e) s) ∧
      (∀ (team g e : Nat), runEvent (.batchComplete team g e) s = exec (.batchComplete team g e) s) ∧
      (∀ (team g e : Nat), runEvent (.counterWaitEnd team g e) s = exec (.counterWaitEnd team g e) s) ∧
      (∀ (team g e : Nat), runEvent (.takeWake team g e) s = exec (.takeWake team g e) s) ∧
      (∀ (team : Nat), runEvent (.eclStallEnd team) s = exec (.eclStallEnd team) s) ∧
      (∀ (why : BadWord), runEvent (.unassignedEncoding why) s = exec (.unassignedEncoding why) s) ∧
      (∀ (team g : Nat), runEvent (.forcedSaveReplay team g) s = exec (.forcedSaveReplay team g) s) ∧
      (∀ (op : Nat), runEvent (.rdefCompletion op) s = exec (.rdefCompletion op) s) ∧
      (∀ (ctx : Nat), runEvent (.retirementSweepEnd ctx) s = exec (.retirementSweepEnd ctx) s) ∧
      (∀ (op : Nat), runEvent (.recordReadReturn op) s = exec (.recordReadReturn op) s))

/-- R103-R107: a fragment is ready only where it is live, active and not parked and issue is not gated; its key ranks it by promotion
(64 losses), PRIO, the group's age and the split-table entry, and its ports are those that no run holds, or the port of its own run.
Of the ready fragments a core's first choice is the best by rank, of the run words if there are any, on its lowest port; the second is
the best of another group that is ready for the other port, and issues there unless the two conflict; what was ready and does not issue
counts a loss, to at most 64, and what issues has none; a vector pipe is taken for 2 clk, or for 1 when a half of the mask is empty, the
SFU for 4 or 2 (R408), and the port for a second clk by an instruction that alone reads 3 registers of one bank.
Where a clause rests on a choice of the model, it is that of the assumption log, entries 6, 8, 109, 126. -/
def Obligations.SelectionFollowsTheRank : Prop :=
  (∀ (rs : List ReadyFrag) (a : ReadyFrag), bestOf rs = some a → a ∈ rs ∧ ∀ b ∈ rs, keyLt b.key a.key = false) ∧
  (∀ (s : State) (rs : List ReadyFrag), (s.selection rs).length ≤ 2 ∧ (s.selection rs = [] ↔ rs = []) ∧
    ∀ x ∈ s.selection rs, ∃ r ∈ rs, r.p = x.1) ∧
  (∀ (s : State) (rs : List ReadyFrag) (x : Party × Nat) (rest : List (Party × Nat)), s.selection rs = x :: rest →
    ∃ a ∈ rs, x = (a.p, a.ports.headD 0) ∧ ((∃ b ∈ rs, s.inRun b.p = true) → s.inRun a.p = true) ∧
      (∀ b ∈ rs, s.inRun b.p = true ∨ (∀ c ∈ rs, s.inRun c.p = false) → keyLt b.key a.key = false) ∧
      let second := fun (b : ReadyFrag) => b ∈ rs ∧ (1 - a.ports.headD 0) ∈ b.ports ∧ (b.p.team ≠ a.p.team ∨ b.p.unit ≠ a.p.unit)
      (∀ y z, rest = y :: z → z = [] ∧ ∃ b, second b ∧ y = (b.p, 1 - a.ports.headD 0) ∧ a.sig.conflicts b.sig = false ∧
        ∀ c, second c → keyLt c.key b.key = false) ∧
      (rest = [] → (∀ b, ¬ second b) ∨ ∃ b, second b ∧ a.sig.conflicts b.sig = true ∧ ∀ c, second c → keyLt c.key b.key = false)) ∧
  (∀ (a b : Sig), a.conflicts b = true ↔ a.pilotOk = false ∧ b.pilotOk = false ∧
    ((∃ k, k < 4 ∧ 2 < ((a.vr ++ b.vr).filter fun r => r % 4 == k).length) ∨ (a.unit = b.unit ∧ 2 ≤ a.unit))) ∧
  (∀ (s : State) (core : Nat) (p : Party) (r : ReadyFrag), s.ready? core p = some r →
    let g := s.grp p.team p.unit
    let e := g.entry p.entry
    r.p = p ∧ g.st = .live ∧ e.st = .active ∧ e.park = none ∧ s.clk % 8 < 8 / 2 ^ s.dev.gate ∧ r.ports ≠ [] ∧
    (∀ q ∈ r.ports, r.ports.headD 0 ≤ q ∧ s.portFree core r.sig q = true) ∧
    (∀ x, g.run = some x → x.entry = p.entry ∧ r.ports = [x.port]) ∧
    (g.run = none → ∀ q ∈ r.ports, q < 2 ∧ q ∉ s.heldPorts core)) ∧
  (∀ (s : State) (core : Nat) (p q : Party) (a b : ReadyFrag), s.ready? core p = some a → s.ready? core q = some b →
    let up := fun (x : Party) => decide ((s.entry x).loss = 64)
    let g := s.grp p.team p.unit
    let h := s.grp q.team q.unit
    (keyLt a.key b.key = true ↔ (up p = true ∧ up q = false) ∨ (up p = up q ∧ (h.prio < g.prio ∨ (g.prio = h.prio ∧
      (g.age < h.age ∨ (g.age = h.age ∧ (p.unit < q.unit ∨ (p.unit = q.unit ∧ p.entry < q.entry))))))))) ∧
  ∀ (s : State) (core : Nat) (rs : List ReadyFrag), rs.Pairwise (fun a b => a.p ≠ b.p) →
    (∀ r ∈ rs, r.p.entry < (s.grp r.p.team r.p.unit).split.length) →
    let sel := s.selection rs
    let t := s.selectOn core rs
    t.ev = { s.ev with issue := s.ev.issue ++ sel, issued := core :: s.ev.issued } ∧
    (∀ r ∈ rs, t.entry r.p = { s.entry r.p with
      loss := if r.p ∈ sel.map (·.1) then 0 else min 64 ((s.entry r.p).loss + 1) }) ∧
    (∀ p, (∀ r ∈ rs, r.p ≠ p) → t.entry p = s.entry p) ∧ t.mem = s.mem ∧
    ∀ r ∈ rs, ∀ q, (r.p, q) ∈ sel → q < 2 → (s.core core).pipes.length = 2 → (s.core core).ports.length = 2 →
      let m := (s.grp r.p.team r.p.unit).sigLanes r.p.entry r.sig
      (r.sig.unit = 1 → (t.core core).pipes.getD q 0 =
        s.clk + if m.setWidth 32 = 0#32 ∨ m.extractLsb' 32 32 = 0#32 then 1 else 2) ∧
      (r.sig.unit = 2 → (∀ v ∈ rs, v.p ∈ sel.map (·.1) → v.sig.unit = 2 → v.p = r.p) → (t.core core).sfu =
        s.clk + if m.setWidth 32 = 0#32 ∨ m.extractLsb' 32 32 = 0#32 then 2 else 4) ∧
      (r.sig.triple = true → (t.core core).ports.getD q 0 = s.clk + 2)
end

