-- ==== Sys2Proof/Laws/MemOk.lean ====
section
/-!
SUPPORT. The operations of memory keep its canonical form; what an outcome says of it.
-/

namespace Sys2Proof.Machine

/-! ### Key numbers -/

theorem risingFrom_mono {m : List (Nat × Nat)} {lo lo' : Nat} (h : risingFrom lo m = true) (hl : lo' ≤ lo) :
    risingFrom lo' m = true := by
  cases m with
  | nil => rfl
  | cons e t =>
    simp only [risingFrom, Bool.and_eq_true, decide_eq_true_eq] at h ⊢
    exact ⟨by omega, h.2⟩

theorem risingFrom_putKey {m : List (Nat × Nat)} {lo l : Nat} (k : Nat) (h : risingFrom lo m = true) (hl : lo ≤ l) :
    risingFrom lo (putKey m l k) = true := by
  induction m generalizing lo with
  | nil => simp [putKey, risingFrom, hl]
  | cons e t ih =>
    obtain ⟨a, x⟩ := e
    simp only [risingFrom, Bool.and_eq_true, decide_eq_true_eq] at h
    unfold putKey
    split
    · simp only [risingFrom, Bool.and_eq_true, decide_eq_true_eq]
      exact ⟨hl, by omega, h.2⟩
    · split
      · rename_i h1 h2
        subst h2
        simp only [risingFrom, Bool.and_eq_true, decide_eq_true_eq]
        exact ⟨hl, h.2⟩
      · simp only [risingFrom, Bool.and_eq_true, decide_eq_true_eq]
        exact ⟨h.1, ih h.2 (by omega)⟩

theorem risingFrom_filter (p : Nat × Nat → Bool) {m : List (Nat × Nat)} {lo : Nat} (h : risingFrom lo m = true) :
    risingFrom lo (m.filter p) = true := by
  induction m generalizing lo with
  | nil => rfl
  | cons e t ih =>
    simp only [risingFrom, Bool.and_eq_true, decide_eq_true_eq] at h
    simp only [List.filter_cons]
    split
    · simp only [risingFrom, Bool.and_eq_true, decide_eq_true_eq]
      exact ⟨h.1, ih h.2⟩
    · exact ih (risingFrom_mono h.2 (by omega))

/-- Entries from `hi` on, after entries below `hi`, after entries below `lo`. -/
theorem risingFrom_append {a b : List (Nat × Nat)} {lo hi : Nat} (ha : risingFrom lo a = true) (hb : risingFrom hi b = true)
    (hlt : ∀ e ∈ a, e.1 < hi) (hl : lo ≤ hi) : risingFrom lo (a ++ b) = true := by
  induction a generalizing lo with
  | nil => exact risingFrom_mono hb hl
  | cons e t ih =>
    simp only [risingFrom, Bool.and_eq_true, decide_eq_true_eq, List.cons_append] at ha ⊢
    have := hlt e (by simp)
    exact ⟨ha.1, ih ha.2 (fun x hx => hlt x (by simp [hx])) (by omega)⟩

theorem risingFrom_upto (lo n k : Nat) :
    risingFrom lo ((upto lo n).map fun l => (l, k)) = true ∧ ∀ e ∈ (upto lo n).map (fun l => (l, k)), e.1 < lo + n := by
  induction n generalizing lo with
  | zero => simp [upto, risingFrom]
  | succ n ih =>
    obtain ⟨h1, h2⟩ := ih (lo + 1)
    constructor
    · simp [upto, risingFrom, h1]
    · intro e he
      simp only [upto, List.map_cons, List.mem_cons] at he
      rcases he with rfl | he
      · simp
      · have := h2 e he
        omega

theorem risingFrom_above {m : List (Nat × Nat)} {lo hi : Nat} (h : risingFrom lo m = true) (hm : ∀ e ∈ m, hi ≤ e.1) :
    risingFrom hi m = true := by
  cases m with
  | nil => rfl
  | cons e t =>
    simp only [risingFrom, Bool.and_eq_true, decide_eq_true_eq] at h ⊢
    exact ⟨hm e (by simp), h.2⟩

theorem risingFrom_putKeys {m : List (Nat × Nat)} (lo n k : Nat) (h : risingFrom 0 m = true) :
    risingFrom 0 (putKeys m lo n k) = true := by
  have hu := risingFrom_upto lo n k
  have hb : risingFrom (lo + n) (m.filter fun e => lo + n ≤ e.1) = true :=
    risingFrom_above (risingFrom_filter _ h) fun e he => by simpa using (List.mem_filter.1 he).2
  have hub := risingFrom_append hu.1 hb hu.2 (by omega)
  unfold putKeys
  rw [List.append_assoc]
  exact risingFrom_append (risingFrom_filter _ h) hub (fun e he => by simpa using (List.mem_filter.1 he).2) (Nat.zero_le lo)

/-! ### Operations of memory -/

theorem mem_ok_iff (m : Mem) : m.ok = true ↔ (swf m.dev = true ∧ swf m.host = true) ∧ risingFrom 0 m.key = true := by
  simp [Mem.ok, Memory.wf]

theorem own_ok {m : Mem} (k line : Nat) (h : m.ok = true) : (m.own k line).ok = true := by
  rw [mem_ok_iff] at h
  unfold Mem.own
  split
  · split
    · rwa [mem_ok_iff]
    · rw [mem_ok_iff]
      dsimp only
      exact ⟨⟨swf_ssets _ h.1.1, h.1.2⟩, risingFrom_putKey k h.2 (Nat.zero_le _)⟩
  · rw [mem_ok_iff]
    exact ⟨h.1, risingFrom_putKey k h.2 (Nat.zero_le _)⟩

theorem put_ok {m : Mem} (k dpa : Nat) (b : Byte) (h : m.ok = true) : (m.put k dpa b).ok = true := by
  have h1 := (mem_ok_iff _).1 (own_ok k (dpa / 128) h)
  unfold Mem.put
  rw [mem_ok_iff]
  exact ⟨⟨swf_sset _ _ h1.1.1, h1.1.2⟩, h1.2⟩

theorem write_ok {m : Mem} (k dpa : Nat) (bs : List Byte) (h : m.ok = true) : (m.write k dpa bs).ok = true := by
  induction bs generalizing m dpa with
  | nil => exact h
  | cons b t ih => exact ih (dpa + 1) (put_ok k dpa b h)

theorem clear_ok {m : Mem} (k dpa n : Nat) (h : m.ok = true) : (m.clear k dpa n).ok = true := by
  unfold Mem.clear
  split
  · exact h
  · have h1 := (mem_ok_iff _).1 (own_ok k ((dpa + n - 1) / 128) (own_ok k (dpa / 128) h))
    rw [mem_ok_iff]
    dsimp only
    exact ⟨⟨swf_skeep _ h1.1.1, h1.1.2⟩, risingFrom_putKeys _ _ _ h1.2⟩

theorem taint_ok {m : Mem} (dpa n : Nat) (h : m.ok = true) : (m.taint dpa n).ok = true := h
theorem cure_ok {m : Mem} (dpa n : Nat) (h : m.ok = true) : (m.cure dpa n).ok = true := h

theorem movePage_ok {m : Mem} (k old new n : Nat) (h : m.ok = true) : (m.movePage k old new n).ok = true := by
  have h1 := (mem_ok_iff _).1 (cure_ok new n (clear_ok k new n h))
  unfold Mem.movePage
  rw [mem_ok_iff]
  dsimp only
  exact ⟨⟨swf_ssets _ h1.1.1, h1.1.2⟩, h1.2⟩

/-! ### The slices -/

/-- Lines of the slices are no part of the canonical form. -/
theorem setL2_ok {m : Mem} (l : List L2Line) (h : m.ok = true) : ({ m with l2 := l } : Mem).ok = true := h
theorem setPoison_ok {m : Mem} (l : List Nat) (h : m.ok = true) : ({ m with poison := l } : Mem).ok = true := h
theorem fillSec_ok {m : Mem} (k ctx line sec : Nat) (h : m.ok = true) : (m.fillSec k ctx line sec).ok = true := h

theorem foldl_ok {α : Type} (l : List α) (f : Mem → α → Mem) {m : Mem} (hf : ∀ m a, m.ok = true → (f m a).ok = true)
    (h : m.ok = true) : (l.foldl f m).ok = true := by
  induction l generalizing m with
  | nil => exact h
  | cons a t ih => exact ih (hf m a h)

theorem lineWrite_ok {m : Mem} (k ctx line launch : Nat) (bs : List (Nat × Byte)) (h : m.ok = true) :
    (m.lineWrite k ctx line launch bs).ok = true :=
  setL2_ok _ (foldl_ok _ _ (fun _ _ h => fillSec_ok _ _ _ _ h) h)

theorem backSec_ok {m : Mem} (x : L2Line) (sec : Nat) (h : m.ok = true) : (m.backSec x sec).ok = true :=
  setPoison_ok _ (write_ok _ _ _ h)

theorem backLine_ok {m : Mem} (x : L2Line) (h : m.ok = true) : (m.backLine x).ok = true :=
  foldl_ok _ _ (fun _ _ h => backSec_ok _ _ h) h

theorem flush_ok {m : Mem} (dpa n : Nat) (h : m.ok = true) : (m.flush dpa n).ok = true :=
  setL2_ok _ (foldl_ok _ _ (fun _ _ h => backLine_ok _ h) h)

/-! ### Outcomes -/

/-- What an outcome says of the memory of the next state. -/
def outOk : Out → Prop
  | .next t => t.mem.ok = true
  | _ => True

/-- What a state that may be absent says of its memory. -/
def optOk : Option State → Prop
  | some t => t.mem.ok = true
  | none => True

@[simp] theorem outOk_next (t : State) : outOk (.next t) ↔ t.mem.ok = true := Iff.rfl
@[simp] theorem outOk_fault (f : Fault) : outOk (.fault f) ↔ True := Iff.rfl
@[simp] theorem outOk_refused (f : Refusal) : outOk (.refused f) ↔ True := Iff.rfl
@[simp] theorem optOk_some (t : State) : optOk (some t) ↔ t.mem.ok = true := Iff.rfl
@[simp] theorem optOk_none : optOk none ↔ True := Iff.rfl

/-- What an access as a unit sees it says of memory, however it ends. -/
def seenOk {α : Type} : Seen α → Prop
  | .wait t => t.mem.ok = true
  | .mig t _ => t.mem.ok = true
  | .stop t _ _ => t.mem.ok = true
  | .ok t _ => t.mem.ok = true

@[simp] theorem seenOk_wait {α : Type} (t : State) : seenOk (.wait t : Seen α) ↔ t.mem.ok = true := Iff.rfl
@[simp] theorem seenOk_mig {α : Type} (t : State) (a : Nat) : seenOk (.mig t a : Seen α) ↔ t.mem.ok = true := Iff.rfl
@[simp] theorem seenOk_stop {α : Type} (t : State) (st : BitVec 8) (a : Nat) :
    seenOk (.stop t st a : Seen α) ↔ t.mem.ok = true := Iff.rfl
@[simp] theorem seenOk_ok {α : Type} (t : State) (a : α) : seenOk (.ok t a) ↔ t.mem.ok = true := Iff.rfl

@[simp] theorem seenOk_bind {α β : Type} (x : Seen α) (f : State → α → Seen β) (hx : seenOk x)
    (hf : ∀ s a, s.mem.ok = true → seenOk (f s a)) : seenOk (x.bind f) := by
  cases x with
  | wait s => exact hx
  | mig s a => exact hx
  | stop s st a => exact hx
  | ok s a => exact hf s a hx

theorem outOk_of {o : Out} (h : outOk o) (t : State) (ht : o = .next t) : t.mem.ok = true := by subst ht; exact h

theorem optOk_of {o : Option State} (h : optOk o) {t : State} (ht : o = some t) : t.mem.ok = true := by subst ht; exact h

theorem optOk_getD {o : Option State} {s : State} (ho : optOk o) (h : s.mem.ok = true) : (o.getD s).mem.ok = true := by
  cases o with
  | none => exact h
  | some t => exact ho

@[simp] theorem foldl_mem {α : Type} (l : List α) (f : State → α → State) (s : State) (hf : ∀ s a, (f s a).mem = s.mem) :
    (l.foldl f s).mem = s.mem := by
  induction l generalizing s with
  | nil => rfl
  | cons a t ih => rw [List.foldl_cons, ih, hf]

@[simp] theorem foldl_memOk {α : Type} (l : List α) (f : State → α → State) (s : State)
    (hf : ∀ s a, s.mem.ok = true → (f s a).mem.ok = true) (h : s.mem.ok = true) : (l.foldl f s).mem.ok = true := by
  induction l generalizing s with
  | nil => exact h
  | cons a t ih => exact ih _ (hf s a h)

theorem foldl_fst_mem {α β : Type} (l : List α) (f : State × β → α → State × β) (x : State × β)
    (hf : ∀ x a, (f x a).1.mem = x.1.mem) : (l.foldl f x).1.mem = x.1.mem := by
  induction l generalizing x with
  | nil => rfl
  | cons a t ih => rw [List.foldl_cons, ih, hf]

theorem foldl_fst_memOk {α β : Type} (l : List α) (f : State × β → α → State × β) (x : State × β)
    (hf : ∀ x a, x.1.mem.ok = true → (f x a).1.mem.ok = true) (h : x.1.mem.ok = true) : (l.foldl f x).1.mem.ok = true := by
  induction l generalizing x with
  | nil => exact h
  | cons a t ih => exact ih _ (hf x a h)

end Sys2Proof.Machine
end

