-- ==== Sys2Proof/Laws/KeepOps.lean ====
section
/-!
SUPPORT. The slices, traps, save images, lane instructions, control and memory instructions keep the canonical form of memory: one lemma per operation.
-/

namespace Sys2Proof.Machine

@[simp] theorem State.nextClk_mem (s : State) (es : List Ev) : (State.nextClk s es).mem = s.mem := rfl

@[simp] theorem ok_memOk (s : State) (h : s.mem.ok = true) : outOk (ok s) := by
  unfold ok
  simp [*]

@[simp] theorem State.hostWrite_memOk (s : State) (a : Nat) (bs : List Byte) (h : s.mem.ok = true) : (s.hostWrite a bs).mem.ok = true := by
  rw [mem_ok_iff] at h ⊢
  exact ⟨⟨h.1.1, swf_ssets _ h.1.2⟩, h.2⟩

@[simp] theorem State.keepXlat_mem (s : State) (x : Xlat) : (State.keepXlat s x).mem = s.mem := by
  unfold State.keepXlat
  (repeat' split) <;> simp [*]

@[simp] theorem State.warm_mem (s : State) (l : Launch) (va : Nat) : (State.warm s l va).mem = s.mem := by
  unfold State.warm
  (repeat' split) <;> simp [*]

@[simp] theorem State.chanServe_mem (s : State) (dpa : Nat) : (State.chanServe s dpa).1.mem = s.mem := by
  simp [State.chanServe]
  (repeat' split) <;> simp_all

@[simp] theorem State.chanTurn_mem (s : State) (t : Tuple) (dpa : Nat) : (State.chanTurn s t dpa).1.mem = s.mem := by
  unfold State.chanTurn
  simp [*]

@[simp] theorem State.chanAlone_mem (s : State) (who : Asker) (dpa n : Nat) : (State.chanAlone s who dpa n).1.mem = s.mem := by
  unfold State.chanAlone
  simp [*]

@[simp] theorem State.chanDone_mem (s : State) (who : Asker) (dpa : Nat) : (State.chanDone s who dpa).mem = s.mem := rfl

@[simp] theorem State.spanDone_mem (s : State) (who : Asker) (dpa n : Nat) : (State.spanDone s who dpa n).mem = s.mem :=
  foldl_mem _ _ _ fun _ _ => rfl

@[simp] theorem State.reachSpan_mem (s : State) (dpa n : Nat) : (State.reachSpan s dpa n).mem = s.mem :=
  foldl_mem _ _ _ fun _ _ => rfl

@[simp] theorem State.reachSave_mem (s : State) (ctx fuel va n : Nat) : (s.reachSave ctx fuel va n).mem = s.mem := by
  induction fuel generalizing s va n with
  | zero => rfl
  | succ fuel ih =>
    unfold State.reachSave
    (repeat' split) <;> simp [ih]

@[simp] theorem State.bwPass_mem (s : State) (l : Nat) (owner : Nat) (n : Nat) : (State.bwPass s l owner n).1.mem = s.mem := by
  unfold State.bwPass
  (repeat' split) <;> simp [*]

@[simp] theorem State.bwDone_mem (s : State) (owner : Nat) : (State.bwDone s owner).mem = s.mem := rfl

@[simp] theorem State.bwFree_mem (s : State) : (State.bwFree s).mem = s.mem := rfl

@[simp] theorem State.bwCharge_mem (s : State) (l : Nat) (n : Nat) : (State.bwCharge s l n).mem = s.mem := rfl

@[simp] theorem State.allocLine_memOk (s : State) (ctx line : Nat) (h : s.mem.ok = true) : (s.allocLine ctx line).mem.ok = true := by
  unfold State.allocLine
  split
  · exact h
  · dsimp only
    generalize Option.isSome _ = c
    cases c <;> exact h

@[simp] theorem State.fillLine_memOk (s : State) (ctx line launch : Nat) (secs : List Nat) (h : s.mem.ok = true) : (s.fillLine ctx line launch secs).mem.ok = true := by
  unfold State.fillLine
  split
  · exact h
  · exact foldl_ok _ _ (fun _ _ h => fillSec_ok _ _ _ _ h) (State.allocLine_memOk s ctx line h)

@[simp] theorem State.bring_memOk (s : State) (who : Asker) (ctx line launch : Nat) (need : List Nat) (h : s.mem.ok = true) : (s.bring who ctx line launch need).1.mem.ok = true := by
  unfold State.bring
  dsimp only
  (repeat' split) <;> simp [h]

@[simp] theorem State.writeBack_memOk (s : State) (x : L2Line) (h : s.mem.ok = true) : (s.writeBack x).mem.ok = true := by
  unfold State.writeBack
  dsimp only
  split
  · exact backLine_ok x (by simpa using h)
  · simpa using h

@[simp] theorem State.homeWrite_memOk (s : State) (ctx launch dpa : Nat) (bs : List (Nat × Byte)) (h : s.mem.ok = true) : (s.homeWrite ctx launch dpa bs).mem.ok = true := by
  unfold State.homeWrite
  exact foldl_memOk _ _ _ (fun s l h => lineWrite_ok _ _ _ _ _ (State.allocLine_memOk s ctx l h)) h

@[simp] theorem State.dramWrite_memOk (s : State) (ctx dpa : Nat) (bs : List (Nat × Byte)) (h : s.mem.ok = true) : (s.dramWrite ctx dpa bs).mem.ok = true := by
  unfold State.dramWrite
  exact foldl_ok _ _ (fun _ _ h => put_ok _ _ _ h) h

@[simp] theorem State.pointWrite_memOk (s : State) (ctx launch dpa : Nat) (uam : Bool) (bs : List (Nat × Byte)) (h : s.mem.ok = true) : (s.pointWrite ctx launch dpa uam bs).mem.ok = true := by
  unfold State.pointWrite
  split <;> simp [h]

@[simp] theorem State.mergeComb_memOk (s : State) (c : Comb) (h : s.mem.ok = true) : (s.mergeComb c).mem.ok = true := by
  unfold State.mergeComb
  dsimp only
  split <;> simp [h]

@[simp] theorem State.mergeHeld_memOk (s : State) (dpa n : Nat) (h : s.mem.ok = true) : (s.mergeHeld dpa n).mem.ok = true := by
  unfold State.mergeHeld
  exact foldl_memOk _ _ _ (fun s l h => foldl_memOk _ _ _ (fun s c h => State.mergeComb_memOk s c h) h) h

@[simp] theorem State.spanReady_memOk (s : State) (who : Asker) (ctx launch dpa n : Nat) (uam wr : Bool) (h : s.mem.ok = true) : (s.spanReady who ctx launch dpa n uam wr).1.mem.ok = true := by
  unfold State.spanReady
  apply foldl_fst_memOk
  · intro x a hx
    dsimp only
    (repeat' split) <;> simp [hx]
  · exact h

@[simp] theorem State.saveSpan_memOk (s : State) (ctx fuel va n : Nat) (img : Sparse 8) (h : s.mem.ok = true) : optOk (s.saveSpan ctx fuel va n img) := by
  induction fuel generalizing s va n img with
  | zero => simpa [State.saveSpan] using h
  | succ fuel ih =>
    unfold State.saveSpan
    split
    · simpa using h
    · split
      · simp
      · rename_i d _
        apply ih
        have hr : ∀ d, (s.reachSpan d (min n (65536 - va % 65536))).mem.ok = true := fun d => by simpa using h
        have h1 := (mem_ok_iff _).1 (clear_ok (s.keyOf ctx) d (min n (65536 - va % 65536))
          (flush_ok d (min n (65536 - va % 65536)) (State.mergeHeld_memOk _ d (min n (65536 - va % 65536)) (hr d))))
        apply cure_ok
        rw [mem_ok_iff]
        exact ⟨⟨swf_ssets _ h1.1.1, h1.1.2⟩, h1.2⟩

theorem State.takeBlock_mem (s : State) (l : Nat) {r : State × Nat} (hr : s.takeBlock l = some r) : r.1.mem = s.mem := by
  unfold State.takeBlock at hr
  (repeat' split at hr) <;> simp at hr <;> subst hr <;> simp

@[simp] theorem State.writeDir_memOk (s : State) (ctx b i tid : Nat) (valid : Bool) (kind : Nat) (held : Bool) (h : s.mem.ok = true) : optOk (s.writeDir ctx b i tid valid kind held) := by
  simp [State.writeDir, h]

theorem State.takeIndex_memOk (s : State) (u b : Nat) (h : s.mem.ok = true) {r : State × Nat} (hr : s.takeIndex u b = some r) : r.1.mem.ok = true := by
  unfold State.takeIndex at hr
  split at hr
  · simp at hr
  · split at hr
    · simp at hr; subst hr; exact h
    · split at hr
      · simp at hr
      · dsimp only at hr
        split at hr
        · simp at hr
        · rename_i hw
          simp at hr; subst hr
          simpa using optOk_of (State.writeDir_memOk s _ _ _ _ _ _ _ h) hw

@[simp] theorem State.withdrawTide_mem (s : State) (u : Nat) (unit : Nat) : (State.withdrawTide s u unit).mem = s.mem := rfl

@[simp] theorem State.mailDone_mem (s : State) (fn : Nat) (result : List Byte) : (State.mailDone s fn result).mem = s.mem := rfl

@[simp] theorem State.zeroUnits_mem (s : State) (core : Nat) (n : Nat) : (State.zeroUnits s core n).mem = s.mem := by
  simp [State.zeroUnits]
  (repeat' split) <;> simp_all

@[simp] theorem State.freeUnits_mem (s : State) (u : Nat) (n : Nat) : (State.freeUnits s u n).mem = s.mem := by
  simp [State.freeUnits]
  (repeat' split) <;> simp_all

@[simp] theorem State.freeShares_memOk (s : State) (l : Nat) (h : s.mem.ok = true) : (State.freeShares s l).mem.ok = true := by
  unfold State.freeShares
  (repeat' split) <;> grind [optOk, outOk, seenOk, seenOk_bind, foldl_mem, foldl_memOk, State.freeUnits_mem]

@[simp] theorem State.holdShares_memOk (s : State) (l : Nat) (ctx : Nat) (h : s.mem.ok = true) : (State.holdShares s l ctx).mem.ok = true := by
  unfold State.holdShares
  (repeat' split) <;> grind [optOk, outOk, seenOk, seenOk_bind, foldl_mem, foldl_memOk, State.updCore_mem]

@[simp] theorem State.zeroHeld_mem (s : State) (ctx : Nat) : (State.zeroHeld s ctx).mem = s.mem := by
  unfold State.zeroHeld
  simp [*]

@[simp] theorem State.parkCluster_mem (s : State) (l : Nat) (k : Nat) : (State.parkCluster s l k).mem = s.mem := by
  simp [State.parkCluster]
  (repeat' split) <;> simp_all

@[simp] theorem State.gridDone_mem (s : State) (id : Nat) : (State.gridDone s id).mem = s.mem := by
  unfold State.gridDone
  (repeat' split) <;> simp [*]

@[simp] theorem State.preEnd_mem (s : State) (l : Launch) (p : Preempt) : (State.preEnd s l p).mem = s.mem := by
  simp [State.preEnd]
  (repeat' split) <;> simp_all

@[simp] theorem State.gridCheck_mem (s : State) (id : Nat) : (State.gridCheck s id).mem = s.mem := by
  simp [State.gridCheck]
  (repeat' split) <;> simp_all

@[simp] theorem State.releaseKept_mem (s : State) (t : Team) : (s.releaseKept t).mem = s.mem := by
  unfold State.releaseKept
  split
  · apply foldl_mem; intro s a; split <;> simp
  · rfl

@[simp] theorem State.dropIndex_memOk (s : State) (u : Nat) (h : s.mem.ok = true) : (s.dropIndex u).mem.ok = true := by
  unfold State.dropIndex
  (repeat' split) <;> first | exact h | (apply optOk_getD <;> simp [h]) | simp [h]

@[simp] theorem State.lastExit_memOk (s : State) (u : Nat) (h : s.mem.ok = true) : (s.lastExit u).mem.ok = true := by
  unfold State.lastExit
  (repeat' split) <;> simp [h]

@[simp] theorem State.teamExit_memOk (s : State) (u : Nat) (h : s.mem.ok = true) : (s.teamExit u).mem.ok = true := by
  unfold State.teamExit
  split <;> simp [h]

@[simp] theorem State.teamCheck_memOk (s : State) (u : Nat) (h : s.mem.ok = true) : (State.teamCheck s u).mem.ok = true := by
  unfold State.teamCheck
  (repeat' split) <;> simp [*]

@[simp] theorem State.groupGone_memOk (s : State) (u : Nat) (unit : Nat) (h : s.mem.ok = true) : (State.groupGone s u unit).mem.ok = true := by
  unfold State.groupGone
  simp [*]

@[simp] theorem State.stopTeams_mem (s : State) (l : Nat) : (s.stopTeams l).mem = s.mem := by
  unfold State.stopTeams
  apply foldl_mem; intro s t; split <;> simp

@[simp] theorem State.cancelPre_mem (s : State) (l : Launch) : (State.cancelPre s l).mem = s.mem := by
  unfold State.cancelPre
  (repeat' split) <;> simp [*]

@[simp] theorem State.writeReport_memOk (s : State) (x : Launch) (status : BitVec 8) (report : Option Report) (h : s.mem.ok = true) : (s.writeReport x status report).1.mem.ok = true := by
  unfold State.writeReport
  split
  · exact h
  · split
    · exact h
    · rename_i ht
      split
      · rw [State.takeBlock_mem _ _ ht]; exact h
      · rename_i hs
        exact optOk_of (State.saveSpan_memOk _ _ _ _ _ _ (by rw [State.takeBlock_mem _ _ ht]; exact h)) hs

@[simp] theorem State.endTask_memOk (s : State) (l : Nat) (status : BitVec 8) (report : Option Report) (h : s.mem.ok = true) : (s.endTask l status report).mem.ok = true := by
  unfold State.endTask
  split
  · exact h
  · split
    · exact h
    · dsimp only
      split <;> simp [h]

@[simp] theorem State.enterHandler_mem (s : State) (u : Nat) (t : Trapped) : (State.enterHandler s u t).mem = s.mem := by
  unfold State.enterHandler
  (repeat' split) <;> simp [*]

@[simp] theorem State.doubleFault_memOk (s : State) (u : Nat) (unit : Nat) (regs : FaultRegs) (h : s.mem.ok = true) : (State.doubleFault s u unit regs).mem.ok = true := by
  unfold State.doubleFault
  (repeat' split) <;> simp [*]

@[simp] theorem State.loadTrap_memOk (s : State) (u : Nat) (t : Trapped) (n : Nat) (h : s.mem.ok = true) : (s.loadTrap u t n).mem.ok = true := by
  unfold State.loadTrap
  dsimp only
  split
  · simp [h]
  · split
    · simp [h]
    · rename_i hs
      simpa using optOk_of (State.saveSpan_memOk _ _ _ _ _ _ h) hs

@[simp] theorem State.trapIn_memOk (s : State) (u : Nat) (t : Trapped) (h : s.mem.ok = true) : (s.trapIn u t).mem.ok = true := by
  unfold State.trapIn
  dsimp only
  (repeat' split) <;> simp [h]

@[simp] theorem State.writeTrap_memOk (s : State) (l : Launch) (u : Nat) (p : Party) (i : TrapInfo) (b idx : Nat) (regs : FaultRegs) (h : s.mem.ok = true) : optOk (s.writeTrap l u p i b idx regs) := by
  unfold State.writeTrap
  (repeat' split) <;> simp [h]

@[simp] theorem State.dropFetch_mem (s : State) (u : Nat) (unit : Nat) : (State.dropFetch s u unit).mem = s.mem := rfl

@[simp] theorem State.takeTrap_memOk (s : State) (p : Party) (i : TrapInfo) (h : s.mem.ok = true) : (s.takeTrap p i).mem.ok = true := by
  unfold State.takeTrap
  split
  · dsimp only
    split
    · simp [h]
    · split
      · simp [h]
      · split
        · simp [h]
        · rename_i ht
          have h0 := State.takeBlock_mem _ _ ht
          simp at h0
          split
          · simp [h, h0]
          · rename_i hi
            have h1 := State.takeIndex_memOk _ _ _ (by rw [h0]; exact h) hi
            dsimp only at h1
            split
            · simp [h1]
            · rename_i hw
              exact State.trapIn_memOk _ _ _ (optOk_of (State.writeTrap_memOk _ _ _ _ _ _ _ _ h1) hw)
  · exact h

@[simp] theorem State.takeTrapAt_memOk (s : State) (u : Nat) (unit : Nat) (e : Nat) (i : TrapInfo) (h : s.mem.ok = true) : (State.takeTrapAt s u unit e i).mem.ok = true := by
  unfold State.takeTrapAt
  simp [*]

@[simp] theorem State.putImage_memOk (s : State) (u : Nat) (unit : Nat) (off : Nat) (bs : List Byte) (h : s.mem.ok = true) : (State.putImage s u unit off bs).mem.ok = true := by
  unfold State.putImage
  (repeat' split) <;> grind [optOk, outOk, seenOk, seenOk_bind, foldl_mem, foldl_memOk, State.saveSpan_memOk, State.doubleFault_memOk]

@[simp] theorem State.putLanes_memOk (s : State) (u unit : Nat) (l : List (Nat × Nat × Lane)) (f : Grp → Grp) (h : s.mem.ok = true) : (s.putLanes u unit l f).mem.ok = true := by
  unfold State.putLanes
  apply foldl_memOk
  · intro s a h; simp [h]
  · simp [h]

@[simp] theorem State.putUniform_memOk (s : State) (u : Nat) (unit : Nat) (r : Nat) (x : U64) (h : s.mem.ok = true) : (State.putUniform s u unit r x).mem.ok = true := by
  unfold State.putUniform
  simp [*]

@[simp] theorem State.nextTrap_memOk (s : State) (u : Nat) (h : s.mem.ok = true) : (s.nextTrap u).mem.ok = true := by
  unfold State.nextTrap
  (repeat' split) <;> simp [*]

@[simp] theorem State.tretFault_memOk (s : State) (u : Nat) (tr : Trapped) (ctx fuel n : Nat) (h : s.mem.ok = true) : (s.tretFault u tr ctx fuel n).mem.ok = true := by
  unfold State.tretFault
  (repeat' split) <;> simp [h]

@[simp] theorem State.returnFromTrap_memOk (s : State) (u : Nat) (h : s.mem.ok = true) : (State.returnFromTrap s u).mem.ok = true := by
  unfold State.returnFromTrap
  dsimp only
  (repeat' split) <;> simp [h]

@[simp] theorem State.trap_memOk (s : State) (cause : Nat) (detail : Nat) (addr : optParam Nat 0) (lanes : optParam LaneMask 0) (h : s.mem.ok = true) : (State.trap s cause detail addr lanes).mem.ok = true := by
  unfold State.trap
  (repeat' split) <;> simp [*]

@[simp] theorem State.endBy_memOk (s : State) (status : BitVec 8) (addr : optParam Nat 0) (lanes : optParam LaneMask 0) (h : s.mem.ok = true) : (State.endBy s status addr lanes).mem.ok = true := by
  unfold State.endBy
  (repeat' split) <;> simp [*]

@[simp] theorem issue_memOk (g : Sig) (mask : BitVec 4) (s : State) (body : Iss → State → Out) (hb : ∀ i s, s.mem.ok = true → outOk (body i s)) (h : s.mem.ok = true) : outOk (issue g mask s body) := by
  unfold issue
  split
  · simp
  · split
    · simp
    · split
      · simp
      · dsimp only
        generalize Sig.check _ _ _ _ _ _ _ = r
        rcases r with _ | ⟨c, d⟩
        · dsimp only; split <;> simp [h, hb]
        · simp [h]

@[simp] theorem State.l1Alloc_mem (s : State) (core : Nat) (line : Nat) : (State.l1Alloc s core line).mem = s.mem := by
  simp [State.l1Alloc]
  (repeat' split) <;> simp_all

@[simp] theorem State.l1Put_mem (s : State) (core : Nat) (key : Nat) (x : Lane) : (State.l1Put s core key x).mem = s.mem := by
  unfold State.l1Put
  simp [*]

@[simp] theorem State.markFills_mem (s : State) (core : Nat) (sel : Req → Bool) (p : Nat → Bool) : (State.markFills s core sel p).mem = s.mem := rfl

@[simp] theorem State.touchFills_mem (s : State) (core : Nat) (p : Nat → Bool) : (State.touchFills s core p).mem = s.mem := rfl

@[simp] theorem State.clearL1All_mem (s : State) (core : Nat) : (State.clearL1All s core).mem = s.mem := rfl

@[simp] theorem State.l1Store_memOk (s : State) (core : Nat) (ctx : Nat) (m : ByteMap) (h : s.mem.ok = true) : (State.l1Store s core ctx m).mem.ok = true := by
  unfold State.l1Store
  (repeat' split) <;> grind [optOk, outOk, seenOk, seenOk_bind, foldl_mem, foldl_memOk, State.l1Put_mem, State.markFills_mem, State.l1Alloc_mem]

@[simp] theorem State.spadWrite_mem (s : State) (u : Nat) (bs : List (Nat × Byte)) : (State.spadWrite s u bs).mem = s.mem := rfl

@[simp] theorem State.frame_mem (s : State) (n : Nat) (m : Msg) : (State.frame s n m).mem = s.mem := rfl

@[simp] theorem State.sendOn_mem (s : State) (n : Nat) (m : Msg) : (State.sendOn s n m).mem = s.mem := by
  simp [State.sendOn]
  (repeat' split) <;> simp_all

@[simp] theorem State.drainLink_mem (k : Nat) (s : State) (n : Nat) : (State.drainLink k s n).mem = s.mem := by
  induction k generalizing s with
  | zero => rfl
  | succ k ih =>
    unfold State.drainLink
    dsimp only
    split
    · rfl
    · rw [ih]
      rfl

@[simp] theorem State.send_memOk (s : State) (m : Msg) (h : s.mem.ok = true) : optOk (State.send s m) := by
  simp [State.send]
  (repeat' split) <;> simp_all

@[simp] theorem State.reply_memOk (s : State) (m : Msg) (h : s.mem.ok = true) : (s.reply m).mem.ok = true := by
  unfold State.reply
  split
  · exact h
  · apply optOk_getD <;> simp [h]

@[simp] theorem State.endAccess_memOk (s : State) (u : Nat) (unit : Nat) (o : Origin) (status : BitVec 8) (addr : Nat) (lanes : LaneMask) (h : s.mem.ok = true) : (State.endAccess s u unit o status addr lanes).mem.ok = true := by
  unfold State.endAccess
  (repeat' split) <;> simp [*]

@[simp] theorem laneOp_memOk (g : Sig) (p : Pfx) (d : Nat) (f : Grp → Nat → Lane) (s : State) (h : s.mem.ok = true) : outOk (laneOp g p d f s) := by
  unfold laneOp
  simp [*]

@[simp] theorem maskOp_memOk (g : Sig) (p : Pfx) (d : Nat) (f : Iss → Grp → LaneMask) (s : State) (h : s.mem.ok = true) : outOk (maskOp g p d f s) := by
  unfold maskOp
  simp [*]

@[simp] theorem lane3_memOk (g : Sig) (p : Pfx) (d : BitVec 8) (a : BitVec 8) (b : BitVec 8) (u : Bool) (f : Lane → Lane → Lane → Lane) (s : State) (h : s.mem.ok = true) : outOk (lane3 g p d a b u f s) := by
  unfold lane3
  simp [*]

@[simp] theorem laneI_memOk (g : Sig) (p : Pfx) (d : BitVec 8) (a : BitVec 8) (imm : Imm) (signed : Bool) (f : Lane → Lane → Lane) (s : State) (h : s.mem.ok = true) : outOk (laneI g p d a imm signed f s) := by
  unfold laneI
  simp [*]

@[simp] theorem lane1_memOk (g : Sig) (p : Pfx) (d : BitVec 8) (a : BitVec 8) (f : Lane → Lane) (s : State) (h : s.mem.ok = true) : outOk (lane1 g p d a f s) := by
  unfold lane1
  simp [*]

@[simp] theorem lane16_memOk (g : Sig) (p : Pfx) (vd : BitVec 6) (vb : BitVec 5) (f : Lane → Lane → Lane) (s : State) (h : s.mem.ok = true) : outOk (lane16 g p vd vb f s) := by
  unfold lane16
  simp [*]

@[simp] theorem lane16i_memOk (g : Sig) (p : Pfx) (vd : BitVec 6) (f : Lane → Lane) (s : State) (h : s.mem.ok = true) : outOk (lane16i g p vd f s) := by
  unfold lane16i
  simp [*]

@[simp] theorem execAdd16_memOk (p : Pfx) (vd : BitVec 6) (vb : BitVec 5) (s : State) (h : s.mem.ok = true) : outOk (execAdd16 p vd vb s) := by
  unfold execAdd16
  simp [*]

@[simp] theorem execAddImm16_memOk (p : Pfx) (vd : BitVec 6) (vb : BitVec 5) (s : State) (h : s.mem.ok = true) : outOk (execAddImm16 p vd vb s) := by
  unfold execAddImm16
  simp [*]

@[simp] theorem execSub16_memOk (p : Pfx) (vd : BitVec 6) (vb : BitVec 5) (s : State) (h : s.mem.ok = true) : outOk (execSub16 p vd vb s) := by
  unfold execSub16
  simp [*]

@[simp] theorem execMul16_memOk (p : Pfx) (vd : BitVec 6) (vb : BitVec 5) (s : State) (h : s.mem.ok = true) : outOk (execMul16 p vd vb s) := by
  unfold execMul16
  simp [*]

@[simp] theorem execAnd16_memOk (p : Pfx) (vd : BitVec 6) (vb : BitVec 5) (s : State) (h : s.mem.ok = true) : outOk (execAnd16 p vd vb s) := by
  unfold execAnd16
  simp [*]

@[simp] theorem execOr16_memOk (p : Pfx) (vd : BitVec 6) (vb : BitVec 5) (s : State) (h : s.mem.ok = true) : outOk (execOr16 p vd vb s) := by
  unfold execOr16
  simp [*]

@[simp] theorem execXor16_memOk (p : Pfx) (vd : BitVec 6) (vb : BitVec 5) (s : State) (h : s.mem.ok = true) : outOk (execXor16 p vd vb s) := by
  unfold execXor16
  simp [*]

@[simp] theorem execShl16_memOk (p : Pfx) (vd : BitVec 6) (vb : BitVec 5) (s : State) (h : s.mem.ok = true) : outOk (execShl16 p vd vb s) := by
  unfold execShl16
  simp [*]

@[simp] theorem execShr16_memOk (p : Pfx) (vd : BitVec 6) (vb : BitVec 5) (s : State) (h : s.mem.ok = true) : outOk (execShr16 p vd vb s) := by
  unfold execShr16
  simp [*]

@[simp] theorem execSra16_memOk (p : Pfx) (vd : BitVec 6) (vb : BitVec 5) (s : State) (h : s.mem.ok = true) : outOk (execSra16 p vd vb s) := by
  unfold execSra16
  simp [*]

@[simp] theorem execMin16_memOk (p : Pfx) (vd : BitVec 6) (vb : BitVec 5) (s : State) (h : s.mem.ok = true) : outOk (execMin16 p vd vb s) := by
  unfold execMin16
  simp [*]

@[simp] theorem execMax16_memOk (p : Pfx) (vd : BitVec 6) (vb : BitVec 5) (s : State) (h : s.mem.ok = true) : outOk (execMax16 p vd vb s) := by
  unfold execMax16
  simp [*]

@[simp] theorem execMinu16_memOk (p : Pfx) (vd : BitVec 6) (vb : BitVec 5) (s : State) (h : s.mem.ok = true) : outOk (execMinu16 p vd vb s) := by
  unfold execMinu16
  simp [*]

@[simp] theorem execMaxu16_memOk (p : Pfx) (vd : BitVec 6) (vb : BitVec 5) (s : State) (h : s.mem.ok = true) : outOk (execMaxu16 p vd vb s) := by
  unfold execMaxu16
  simp [*]

@[simp] theorem execAdd_memOk (p : Pfx) (d : BitVec 8) (a : BitVec 8) (b : BitVec 8) (u : Bool) (s : State) (h : s.mem.ok = true) : outOk (execAdd p d a b u s) := by
  unfold execAdd
  simp [*]

@[simp] theorem execSub_memOk (p : Pfx) (d : BitVec 8) (a : BitVec 8) (b : BitVec 8) (u : Bool) (s : State) (h : s.mem.ok = true) : outOk (execSub p d a b u s) := by
  unfold execSub
  simp [*]

@[simp] theorem execAnd_memOk (p : Pfx) (d : BitVec 8) (a : BitVec 8) (b : BitVec 8) (u : Bool) (s : State) (h : s.mem.ok = true) : outOk (execAnd p d a b u s) := by
  unfold execAnd
  simp [*]

@[simp] theorem execOr_memOk (p : Pfx) (d : BitVec 8) (a : BitVec 8) (b : BitVec 8) (u : Bool) (s : State) (h : s.mem.ok = true) : outOk (execOr p d a b u s) := by
  unfold execOr
  simp [*]

@[simp] theorem execXor_memOk (p : Pfx) (d : BitVec 8) (a : BitVec 8) (b : BitVec 8) (u : Bool) (s : State) (h : s.mem.ok = true) : outOk (execXor p d a b u s) := by
  unfold execXor
  simp [*]

@[simp] theorem execShl_memOk (p : Pfx) (d : BitVec 8) (a : BitVec 8) (b : BitVec 8) (u : Bool) (s : State) (h : s.mem.ok = true) : outOk (execShl p d a b u s) := by
  unfold execShl
  simp [*]

@[simp] theorem execShr_memOk (p : Pfx) (d : BitVec 8) (a : BitVec 8) (b : BitVec 8) (u : Bool) (s : State) (h : s.mem.ok = true) : outOk (execShr p d a b u s) := by
  unfold execShr
  simp [*]

@[simp] theorem execSra_memOk (p : Pfx) (d : BitVec 8) (a : BitVec 8) (b : BitVec 8) (u : Bool) (s : State) (h : s.mem.ok = true) : outOk (execSra p d a b u s) := by
  unfold execSra
  simp [*]

@[simp] theorem execMul_memOk (p : Pfx) (d : BitVec 8) (a : BitVec 8) (b : BitVec 8) (u : Bool) (s : State) (h : s.mem.ok = true) : outOk (execMul p d a b u s) := by
  unfold execMul
  simp [*]

@[simp] theorem execMad_memOk (p : Pfx) (d : BitVec 8) (a : BitVec 8) (b : BitVec 8) (u : Bool) (s : State) (h : s.mem.ok = true) : outOk (execMad p d a b u s) := by
  unfold execMad
  simp [*]

@[simp] theorem execMulh_memOk (p : Pfx) (d : BitVec 8) (a : BitVec 8) (b : BitVec 8) (u : Bool) (s : State) (h : s.mem.ok = true) : outOk (execMulh p d a b u s) := by
  unfold execMulh
  simp [*]

@[simp] theorem execMulhu_memOk (p : Pfx) (d : BitVec 8) (a : BitVec 8) (b : BitVec 8) (u : Bool) (s : State) (h : s.mem.ok = true) : outOk (execMulhu p d a b u s) := by
  unfold execMulhu
  simp [*]

@[simp] theorem execMin_memOk (p : Pfx) (d : BitVec 8) (a : BitVec 8) (b : BitVec 8) (u : Bool) (s : State) (h : s.mem.ok = true) : outOk (execMin p d a b u s) := by
  unfold execMin
  simp [*]

@[simp] theorem execMinu_memOk (p : Pfx) (d : BitVec 8) (a : BitVec 8) (b : BitVec 8) (u : Bool) (s : State) (h : s.mem.ok = true) : outOk (execMinu p d a b u s) := by
  unfold execMinu
  simp [*]

@[simp] theorem execMax_memOk (p : Pfx) (d : BitVec 8) (a : BitVec 8) (b : BitVec 8) (u : Bool) (s : State) (h : s.mem.ok = true) : outOk (execMax p d a b u s) := by
  unfold execMax
  simp [*]

@[simp] theorem execMaxu_memOk (p : Pfx) (d : BitVec 8) (a : BitVec 8) (b : BitVec 8) (u : Bool) (s : State) (h : s.mem.ok = true) : outOk (execMaxu p d a b u s) := by
  unfold execMaxu
  simp [*]

@[simp] theorem execBfx_memOk (p : Pfx) (d : BitVec 8) (a : BitVec 8) (b : BitVec 8) (u : Bool) (s : State) (h : s.mem.ok = true) : outOk (execBfx p d a b u s) := by
  unfold execBfx
  simp [*]

@[simp] theorem execBfi_memOk (p : Pfx) (d : BitVec 8) (a : BitVec 8) (b : BitVec 8) (u : Bool) (s : State) (h : s.mem.ok = true) : outOk (execBfi p d a b u s) := by
  unfold execBfi
  simp [*]

@[simp] theorem execCmp_memOk (p : Pfx) (c : BitVec 4) (m : BitVec 4) (a : BitVec 8) (b : BitVec 8) (u : Bool) (s : State) (h : s.mem.ok = true) : outOk (execCmp p c m a b u s) := by
  unfold execCmp
  simp [*]

@[simp] theorem execAddImm_memOk (p : Pfx) (d : BitVec 8) (a : BitVec 8) (imm : Imm) (s : State) (h : s.mem.ok = true) : outOk (execAddImm p d a imm s) := by
  unfold execAddImm
  simp [*]

@[simp] theorem execMulImm_memOk (p : Pfx) (d : BitVec 8) (a : BitVec 8) (imm : Imm) (s : State) (h : s.mem.ok = true) : outOk (execMulImm p d a imm s) := by
  unfold execMulImm
  simp [*]

@[simp] theorem execAndImm_memOk (p : Pfx) (d : BitVec 8) (a : BitVec 8) (imm : Imm) (s : State) (h : s.mem.ok = true) : outOk (execAndImm p d a imm s) := by
  unfold execAndImm
  simp [*]

@[simp] theorem execOrImm_memOk (p : Pfx) (d : BitVec 8) (a : BitVec 8) (imm : Imm) (s : State) (h : s.mem.ok = true) : outOk (execOrImm p d a imm s) := by
  unfold execOrImm
  simp [*]

@[simp] theorem execXorImm_memOk (p : Pfx) (d : BitVec 8) (a : BitVec 8) (imm : Imm) (s : State) (h : s.mem.ok = true) : outOk (execXorImm p d a imm s) := by
  unfold execXorImm
  simp [*]

@[simp] theorem execShlImm_memOk (p : Pfx) (d : BitVec 8) (a : BitVec 8) (imm : Imm) (s : State) (h : s.mem.ok = true) : outOk (execShlImm p d a imm s) := by
  unfold execShlImm
  simp [*]

@[simp] theorem execShrImm_memOk (p : Pfx) (d : BitVec 8) (a : BitVec 8) (imm : Imm) (s : State) (h : s.mem.ok = true) : outOk (execShrImm p d a imm s) := by
  unfold execShrImm
  simp [*]

@[simp] theorem execSraImm_memOk (p : Pfx) (d : BitVec 8) (a : BitVec 8) (imm : Imm) (s : State) (h : s.mem.ok = true) : outOk (execSraImm p d a imm s) := by
  unfold execSraImm
  simp [*]

@[simp] theorem execCmpImm_memOk (p : Pfx) (c : BitVec 4) (m : BitVec 4) (a : BitVec 8) (imm : Imm) (s : State) (h : s.mem.ok = true) : outOk (execCmpImm p c m a imm s) := by
  unfold execCmpImm
  simp [*]

@[simp] theorem execNot_memOk (p : Pfx) (d : BitVec 8) (a : BitVec 8) (s : State) (h : s.mem.ok = true) : outOk (execNot p d a s) := by
  unfold execNot
  simp [*]

@[simp] theorem execAbs_memOk (p : Pfx) (d : BitVec 8) (a : BitVec 8) (s : State) (h : s.mem.ok = true) : outOk (execAbs p d a s) := by
  unfold execAbs
  simp [*]

@[simp] theorem execNeg_memOk (p : Pfx) (d : BitVec 8) (a : BitVec 8) (s : State) (h : s.mem.ok = true) : outOk (execNeg p d a s) := by
  unfold execNeg
  simp [*]

@[simp] theorem execPop_memOk (p : Pfx) (d : BitVec 8) (a : BitVec 8) (s : State) (h : s.mem.ok = true) : outOk (execPop p d a s) := by
  unfold execPop
  simp [*]

@[simp] theorem execClz_memOk (p : Pfx) (d : BitVec 8) (a : BitVec 8) (s : State) (h : s.mem.ok = true) : outOk (execClz p d a s) := by
  unfold execClz
  simp [*]

@[simp] theorem execSel_memOk (p : Pfx) (d : BitVec 8) (a : BitVec 8) (x : BitVec 4) (s : State) (h : s.mem.ok = true) : outOk (execSel p d a x s) := by
  unfold execSel
  simp [*]

@[simp] theorem execMand_memOk (p : Pfx) (d : BitVec 4) (a : BitVec 4) (k : BitVec 4) (s : State) (h : s.mem.ok = true) : outOk (execMand p d a k s) := by
  unfold execMand
  simp [*]

@[simp] theorem execMor_memOk (p : Pfx) (d : BitVec 4) (a : BitVec 4) (k : BitVec 4) (s : State) (h : s.mem.ok = true) : outOk (execMor p d a k s) := by
  unfold execMor
  simp [*]

@[simp] theorem execMxor_memOk (p : Pfx) (d : BitVec 4) (a : BitVec 4) (k : BitVec 4) (s : State) (h : s.mem.ok = true) : outOk (execMxor p d a k s) := by
  unfold execMxor
  simp [*]

@[simp] theorem execMnot_memOk (p : Pfx) (d : BitVec 4) (a : BitVec 4) (s : State) (h : s.mem.ok = true) : outOk (execMnot p d a s) := by
  unfold execMnot
  simp [*]

@[simp] theorem execMmov_memOk (p : Pfx) (d : BitVec 4) (a : BitVec 4) (s : State) (h : s.mem.ok = true) : outOk (execMmov p d a s) := by
  unfold execMmov
  simp [*]

@[simp] theorem execMpop_memOk (p : Pfx) (d : BitVec 8) (a : BitVec 4) (s : State) (h : s.mem.ok = true) : outOk (execMpop p d a s) := by
  unfold execMpop
  simp [*]

@[simp] theorem execMfirst_memOk (p : Pfx) (d : BitVec 4) (a : BitVec 4) (s : State) (h : s.mem.ok = true) : outOk (execMfirst p d a s) := by
  unfold execMfirst
  simp [*]

@[simp] theorem execMset_memOk (p : Pfx) (d : BitVec 4) (a : BitVec 8) (s : State) (h : s.mem.ok = true) : outOk (execMset p d a s) := by
  unfold execMset
  simp [*]

@[simp] theorem float3_memOk (g : Sig) (p : Pfx) (d : BitVec 8) (a : BitVec 8) (b : BitVec 8) (u : Bool) (f : Fmt → Nat → Nat → Nat → Nat) (s : State) (h : s.mem.ok = true) : outOk (float3 g p d a b u f s) := by
  unfold float3
  simp [*]

@[simp] theorem float1_memOk (g : Sig) (p : Pfx) (d : BitVec 8) (a : BitVec 8) (f : Fmt → Nat → Nat) (s : State) (h : s.mem.ok = true) : outOk (float1 g p d a f s) := by
  unfold float1
  simp [*]

@[simp] theorem execFadd16_memOk (p : Pfx) (vd : BitVec 6) (vb : BitVec 5) (s : State) (h : s.mem.ok = true) : outOk (execFadd16 p vd vb s) := by
  unfold execFadd16
  simp [*]

@[simp] theorem execFmul16_memOk (p : Pfx) (vd : BitVec 6) (vb : BitVec 5) (s : State) (h : s.mem.ok = true) : outOk (execFmul16 p vd vb s) := by
  unfold execFmul16
  simp [*]

@[simp] theorem execFadd_memOk (p : Pfx) (d : BitVec 8) (a : BitVec 8) (b : BitVec 8) (u : Bool) (s : State) (h : s.mem.ok = true) : outOk (execFadd p d a b u s) := by
  unfold execFadd
  simp [*]

@[simp] theorem execFsub_memOk (p : Pfx) (d : BitVec 8) (a : BitVec 8) (b : BitVec 8) (u : Bool) (s : State) (h : s.mem.ok = true) : outOk (execFsub p d a b u s) := by
  unfold execFsub
  simp [*]

@[simp] theorem execFmul_memOk (p : Pfx) (d : BitVec 8) (a : BitVec 8) (b : BitVec 8) (u : Bool) (s : State) (h : s.mem.ok = true) : outOk (execFmul p d a b u s) := by
  unfold execFmul
  simp [*]

@[simp] theorem execFfma_memOk (p : Pfx) (d : BitVec 8) (a : BitVec 8) (b : BitVec 8) (u : Bool) (s : State) (h : s.mem.ok = true) : outOk (execFfma p d a b u s) := by
  unfold execFfma
  simp [*]

@[simp] theorem execFmin_memOk (p : Pfx) (d : BitVec 8) (a : BitVec 8) (b : BitVec 8) (u : Bool) (s : State) (h : s.mem.ok = true) : outOk (execFmin p d a b u s) := by
  unfold execFmin
  simp [*]

@[simp] theorem execFmax_memOk (p : Pfx) (d : BitVec 8) (a : BitVec 8) (b : BitVec 8) (u : Bool) (s : State) (h : s.mem.ok = true) : outOk (execFmax p d a b u s) := by
  unfold execFmax
  simp [*]

@[simp] theorem execFcmp_memOk (p : Pfx) (c : BitVec 4) (m : BitVec 4) (a : BitVec 8) (b : BitVec 8) (u : Bool) (s : State) (h : s.mem.ok = true) : outOk (execFcmp p c m a b u s) := by
  unfold execFcmp
  simp [*]

@[simp] theorem execFabs_memOk (p : Pfx) (d : BitVec 8) (a : BitVec 8) (s : State) (h : s.mem.ok = true) : outOk (execFabs p d a s) := by
  unfold execFabs
  simp [*]

@[simp] theorem execFneg_memOk (p : Pfx) (d : BitVec 8) (a : BitVec 8) (s : State) (h : s.mem.ok = true) : outOk (execFneg p d a s) := by
  unfold execFneg
  simp [*]

@[simp] theorem execFclass_memOk (p : Pfx) (d : BitVec 8) (a : BitVec 8) (s : State) (h : s.mem.ok = true) : outOk (execFclass p d a s) := by
  unfold execFclass
  simp [*]

@[simp] theorem execFrnd_memOk (p : Pfx) (d : BitVec 8) (a : BitVec 8) (s : State) (h : s.mem.ok = true) : outOk (execFrnd p d a s) := by
  unfold execFrnd
  simp [*]

@[simp] theorem execFcvt_memOk (p : Pfx) (d : BitVec 8) (a : BitVec 8) (x : BitVec 4) (s : State) (h : s.mem.ok = true) : outOk (execFcvt p d a x s) := by
  unfold execFcvt
  simp [*]

@[simp] theorem execRcp_memOk (p : Pfx) (d : BitVec 8) (a : BitVec 8) (s : State) (h : s.mem.ok = true) : outOk (execRcp p d a s) := by
  unfold execRcp
  simp [*]

@[simp] theorem execRsq_memOk (p : Pfx) (d : BitVec 8) (a : BitVec 8) (s : State) (h : s.mem.ok = true) : outOk (execRsq p d a s) := by
  unfold execRsq
  simp [*]

@[simp] theorem execSqrt_memOk (p : Pfx) (d : BitVec 8) (a : BitVec 8) (s : State) (h : s.mem.ok = true) : outOk (execSqrt p d a s) := by
  unfold execSqrt
  simp [*]

@[simp] theorem execExp2_memOk (p : Pfx) (d : BitVec 8) (a : BitVec 8) (s : State) (h : s.mem.ok = true) : outOk (execExp2 p d a s) := by
  unfold execExp2
  simp [*]

@[simp] theorem execLog2_memOk (p : Pfx) (d : BitVec 8) (a : BitVec 8) (s : State) (h : s.mem.ok = true) : outOk (execLog2 p d a s) := by
  unfold execLog2
  simp [*]

@[simp] theorem execSin_memOk (p : Pfx) (d : BitVec 8) (a : BitVec 8) (s : State) (h : s.mem.ok = true) : outOk (execSin p d a s) := by
  unfold execSin
  simp [*]

@[simp] theorem execCos_memOk (p : Pfx) (d : BitVec 8) (a : BitVec 8) (s : State) (h : s.mem.ok = true) : outOk (execCos p d a s) := by
  unfold execCos
  simp [*]

@[simp] theorem execTanh_memOk (p : Pfx) (d : BitVec 8) (a : BitVec 8) (s : State) (h : s.mem.ok = true) : outOk (execTanh p d a s) := by
  unfold execTanh
  simp [*]

@[simp] theorem shuffle_memOk (g : Sig) (p : Pfx) (d : BitVec 8) (a : BitVec 8) (j : Nat → Option Nat) (s : State) (h : s.mem.ok = true) : outOk (shuffle g p d a j s) := by
  unfold shuffle
  simp [*]

@[simp] theorem execShfUp_memOk (p : Pfx) (d : BitVec 8) (a : BitVec 8) (x : BitVec 4) (s : State) (h : s.mem.ok = true) : outOk (execShfUp p d a x s) := by
  unfold execShfUp
  simp [*]

@[simp] theorem execShfDn_memOk (p : Pfx) (d : BitVec 8) (a : BitVec 8) (x : BitVec 4) (s : State) (h : s.mem.ok = true) : outOk (execShfDn p d a x s) := by
  unfold execShfDn
  simp [*]

@[simp] theorem execShfXor_memOk (p : Pfx) (d : BitVec 8) (a : BitVec 8) (x : BitVec 4) (s : State) (h : s.mem.ok = true) : outOk (execShfXor p d a x s) := by
  unfold execShfXor
  simp [*]

@[simp] theorem execShfRot_memOk (p : Pfx) (d : BitVec 8) (a : BitVec 8) (x : BitVec 4) (s : State) (h : s.mem.ok = true) : outOk (execShfRot p d a x s) := by
  unfold execShfRot
  simp [*]

@[simp] theorem execShfIdx_memOk (p : Pfx) (d : BitVec 8) (a : BitVec 8) (s : State) (h : s.mem.ok = true) : outOk (execShfIdx p d a s) := by
  unfold execShfIdx
  simp [*]

@[simp] theorem execSct_memOk (p : Pfx) (d : BitVec 8) (a : BitVec 8) (s : State) (h : s.mem.ok = true) : outOk (execSct p d a s) := by
  unfold execSct
  simp [*]

@[simp] theorem execBcst_memOk (p : Pfx) (d : BitVec 8) (a : BitVec 8) (s : State) (h : s.mem.ok = true) : outOk (execBcst p d a s) := by
  unfold execBcst
  simp [*]

@[simp] theorem execLred_memOk (p : Pfx) (d : BitVec 8) (a : BitVec 8) (x : BitVec 4) (s : State) (h : s.mem.ok = true) : outOk (execLred p d a x s) := by
  unfold execLred
  simp [*]

@[simp] theorem execScan_memOk (p : Pfx) (d : BitVec 8) (a : BitVec 8) (x : BitVec 4) (s : State) (h : s.mem.ok = true) : outOk (execScan p d a x s) := by
  unfold execScan
  simp [*]

@[simp] theorem execScanEx_memOk (p : Pfx) (d : BitVec 8) (a : BitVec 8) (x : BitVec 4) (s : State) (h : s.mem.ok = true) : outOk (execScanEx p d a x s) := by
  unfold execScanEx
  simp [*]

@[simp] theorem execTbl_memOk (p : Pfx) (d : BitVec 8) (a : BitVec 8) (n : BitVec 3) (fill : BitVec 4) (s : State) (h : s.mem.ok = true) : outOk (execTbl p d a n fill s) := by
  unfold execTbl
  simp [*]

@[simp] theorem execVote_memOk (p : Pfx) (d : BitVec 8) (a : BitVec 8) (x : BitVec 4) (s : State) (h : s.mem.ok = true) : outOk (execVote p d a x s) := by
  unfold execVote
  simp [*]

@[simp] theorem execLid_memOk (p : Pfx) (d : BitVec 8) (s : State) (h : s.mem.ok = true) : outOk (execLid p d s) := by
  unfold execLid
  simp [*]

@[simp] theorem uniOp_memOk (g : Sig) (d : BitVec 8) (f : Grp → U64) (s : State) (h : s.mem.ok = true) : outOk (uniOp g d f s) := by
  unfold uniOp
  simp [*]

@[simp] theorem uni3_memOk (g : Sig) (d : BitVec 8) (a : BitVec 8) (b : BitVec 8) (f : U64 → U64 → U64) (s : State) (h : s.mem.ok = true) : outOk (uni3 g d a b f s) := by
  unfold uni3
  simp [*]

@[simp] theorem uniI_memOk (g : Sig) (d : BitVec 8) (a : BitVec 8) (imm : Imm) (signed : Bool) (f : U64 → U64 → U64) (s : State) (h : s.mem.ok = true) : outOk (uniI g d a imm signed f s) := by
  unfold uniI
  simp [*]

@[simp] theorem uni2_memOk (g : Sig) (d : BitVec 8) (a : BitVec 8) (f : U64 → U64 → U64) (s : State) (h : s.mem.ok = true) : outOk (uni2 g d a f s) := by
  unfold uni2
  simp [*]

@[simp] theorem execSadd_memOk (p : Pfx) (d : BitVec 8) (a : BitVec 8) (b : BitVec 8) (s : State) (h : s.mem.ok = true) : outOk (execSadd p d a b s) := by
  unfold execSadd
  simp [*]

@[simp] theorem execSsub_memOk (p : Pfx) (d : BitVec 8) (a : BitVec 8) (b : BitVec 8) (s : State) (h : s.mem.ok = true) : outOk (execSsub p d a b s) := by
  unfold execSsub
  simp [*]

@[simp] theorem execSmul_memOk (p : Pfx) (d : BitVec 8) (a : BitVec 8) (b : BitVec 8) (s : State) (h : s.mem.ok = true) : outOk (execSmul p d a b s) := by
  unfold execSmul
  simp [*]

@[simp] theorem execSmulh_memOk (p : Pfx) (d : BitVec 8) (a : BitVec 8) (b : BitVec 8) (s : State) (h : s.mem.ok = true) : outOk (execSmulh p d a b s) := by
  unfold execSmulh
  simp [*]

@[simp] theorem execSand_memOk (p : Pfx) (d : BitVec 8) (a : BitVec 8) (b : BitVec 8) (s : State) (h : s.mem.ok = true) : outOk (execSand p d a b s) := by
  unfold execSand
  simp [*]

@[simp] theorem execSor_memOk (p : Pfx) (d : BitVec 8) (a : BitVec 8) (b : BitVec 8) (s : State) (h : s.mem.ok = true) : outOk (execSor p d a b s) := by
  unfold execSor
  simp [*]

@[simp] theorem execSxor_memOk (p : Pfx) (d : BitVec 8) (a : BitVec 8) (b : BitVec 8) (s : State) (h : s.mem.ok = true) : outOk (execSxor p d a b s) := by
  unfold execSxor
  simp [*]

@[simp] theorem execSshl_memOk (p : Pfx) (d : BitVec 8) (a : BitVec 8) (b : BitVec 8) (s : State) (h : s.mem.ok = true) : outOk (execSshl p d a b s) := by
  unfold execSshl
  simp [*]

@[simp] theorem execSli_memOk (p : Pfx) (d : BitVec 8) (imm : Imm) (s : State) (h : s.mem.ok = true) : outOk (execSli p d imm s) := by
  unfold execSli
  simp [*]

@[simp] theorem execSlui_memOk (p : Pfx) (d : BitVec 8) (imm : Imm) (s : State) (h : s.mem.ok = true) : outOk (execSlui p d imm s) := by
  unfold execSlui
  simp [*]

@[simp] theorem execSaddImm_memOk (p : Pfx) (d : BitVec 8) (a : BitVec 8) (imm : Imm) (s : State) (h : s.mem.ok = true) : outOk (execSaddImm p d a imm s) := by
  unfold execSaddImm
  simp [*]

@[simp] theorem execSandImm_memOk (p : Pfx) (d : BitVec 8) (a : BitVec 8) (imm : Imm) (s : State) (h : s.mem.ok = true) : outOk (execSandImm p d a imm s) := by
  unfold execSandImm
  simp [*]

@[simp] theorem execSshlImm_memOk (p : Pfx) (d : BitVec 8) (a : BitVec 8) (imm : Imm) (s : State) (h : s.mem.ok = true) : outOk (execSshlImm p d a imm s) := by
  unfold execSshlImm
  simp [*]

@[simp] theorem execSshrImm_memOk (p : Pfx) (d : BitVec 8) (a : BitVec 8) (imm : Imm) (s : State) (h : s.mem.ok = true) : outOk (execSshrImm p d a imm s) := by
  unfold execSshrImm
  simp [*]

@[simp] theorem execSmov_memOk (d : BitVec 8) (a : BitVec 8) (s : State) (h : s.mem.ok = true) : outOk (execSmov d a s) := by
  unfold execSmov
  simp [*]

@[simp] theorem execSshr_memOk (d : BitVec 8) (a : BitVec 8) (s : State) (h : s.mem.ok = true) : outOk (execSshr d a s) := by
  unfold execSshr
  simp [*]

@[simp] theorem execSsra_memOk (d : BitVec 8) (a : BitVec 8) (s : State) (h : s.mem.ok = true) : outOk (execSsra d a s) := by
  unfold execSsra
  simp [*]

@[simp] theorem execSmin_memOk (d : BitVec 8) (a : BitVec 8) (s : State) (h : s.mem.ok = true) : outOk (execSmin d a s) := by
  unfold execSmin
  simp [*]

@[simp] theorem execSmax_memOk (d : BitVec 8) (a : BitVec 8) (s : State) (h : s.mem.ok = true) : outOk (execSmax d a s) := by
  unfold execSmax
  simp [*]

@[simp] theorem execSminu_memOk (d : BitVec 8) (a : BitVec 8) (s : State) (h : s.mem.ok = true) : outOk (execSminu d a s) := by
  unfold execSminu
  simp [*]

@[simp] theorem execSmaxu_memOk (d : BitVec 8) (a : BitVec 8) (s : State) (h : s.mem.ok = true) : outOk (execSmaxu d a s) := by
  unfold execSmaxu
  simp [*]

@[simp] theorem execScmp_memOk (d : BitVec 8) (a : BitVec 8) (x : BitVec 4) (s : State) (h : s.mem.ok = true) : outOk (execScmp d a x s) := by
  unfold execScmp
  simp [*]

@[simp] theorem execSsel_memOk (d : BitVec 8) (a : BitVec 8) (x : BitVec 4) (s : State) (h : s.mem.ok = true) : outOk (execSsel d a x s) := by
  unfold execSsel
  simp [*]

@[simp] theorem execBr_memOk (p : Pfx) (off : Off) (s : State) (h : s.mem.ok = true) : outOk (execBr p off s) := by
  unfold execBr
  simp [*]

@[simp] theorem execCall_memOk (p : Pfx) (l : BitVec 8) (off : Off) (s : State) (h : s.mem.ok = true) : outOk (execCall p l off s) := by
  unfold execCall
  simp [*]

@[simp] theorem execRcv_memOk (p : Pfx) (off : Off) (s : State) (h : s.mem.ok = true) : outOk (execRcv p off s) := by
  unfold execRcv
  simp [*]

@[simp] theorem execBl_memOk (p : Pfx) (m : BitVec 4) (sense : Bool) (off : Off) (s : State) (h : s.mem.ok = true) : outOk (execBl p m sense off s) := by
  unfold execBl
  (repeat' split) <;> grind [optOk, outOk, foldl_mem, foldl_memOk, issue_memOk, State.upd_mem, State.trap_memOk]

@[simp] theorem execBc_memOk (p : Pfx) (c : BitVec 8) (off : Off) (s : State) (h : s.mem.ok = true) : outOk (execBc p c off s) := by
  unfold execBc
  simp [*]

@[simp] theorem jumpReg_memOk (g : Sig) (a : BitVec 8) (s : State) (h : s.mem.ok = true) : outOk (jumpReg g a s) := by
  unfold jumpReg
  (repeat' split) <;> grind [optOk, outOk, foldl_mem, foldl_memOk, issue_memOk, State.trap_memOk, State.goto_mem]

@[simp] theorem execJmp_memOk (a : BitVec 8) (s : State) (h : s.mem.ok = true) : outOk (execJmp a s) := by
  unfold execJmp
  simp [*]

@[simp] theorem execRet_memOk (a : BitVec 8) (s : State) (h : s.mem.ok = true) : outOk (execRet a s) := by
  unfold execRet
  simp [*]

@[simp] theorem execNop_memOk (s : State) (h : s.mem.ok = true) : outOk (execNop s) := by
  unfold execNop
  simp [*]

@[simp] theorem State.lanesExit_memOk (s : State) (u : Nat) (unit : Nat) (l : LaneMask) (h : s.mem.ok = true) : (State.lanesExit s u unit l).mem.ok = true := by
  simp [State.lanesExit]
  (repeat' split) <;> simp_all

@[simp] theorem State.handlerExit_memOk (s : State) (p : Party) (h : s.mem.ok = true) : (State.handlerExit s p).mem.ok = true := by
  simp [State.handlerExit]
  (repeat' split) <;> simp_all

@[simp] theorem execExit_memOk (s : State) (h : s.mem.ok = true) : outOk (execExit s) := by
  unfold execExit
  (repeat' split) <;> grind [optOk, outOk, foldl_mem, foldl_memOk, issue_memOk, State.pilotExit_mem, State.handlerExit_memOk, State.setPark_mem, State.lanesExit_memOk]

@[simp] theorem execYield_memOk (s : State) (h : s.mem.ok = true) : outOk (execYield s) := by
  unfold execYield
  simp [*]

@[simp] theorem execRgn_memOk (s : State) (h : s.mem.ok = true) : outOk (execRgn s) := by
  unfold execRgn
  simp [*]

@[simp] theorem execBrk_memOk (a : BitVec 8) (x : BitVec 4) (s : State) (h : s.mem.ok = true) : outOk (execBrk a x s) := by
  unfold execBrk
  (repeat' split) <;> grind [optOk, outOk, foldl_mem, foldl_memOk, issue_memOk, State.takeTrap_memOk]

@[simp] theorem execRun_memOk (s : State) (h : s.mem.ok = true) : outOk (execRun s) := by
  unfold execRun
  simp [*]

@[simp] theorem execRend_memOk (n : BitVec 4) (t0 : BitVec 32) (t1 : BitVec 32) (s : State) (h : s.mem.ok = true) : outOk (execRend n t0 t1 s) := by
  unfold execRend
  (repeat' split) <;> grind [optOk, outOk, foldl_mem, foldl_memOk, issue_memOk, State.trap_memOk, State.goto_mem, State.upd_mem]

@[simp] theorem State.endTake_mem (s : State) (u : Nat) (unit : Nat) : (State.endTake s u unit).mem = s.mem := rfl

@[simp] theorem execTake_memOk (x : BitVec 4) (s : State) (h : s.mem.ok = true) : outOk (execTake x s) := by
  unfold execTake
  (repeat' split) <;> grind [optOk, outOk, foldl_mem, foldl_memOk, issue_memOk, State.upd_mem, State.updTeam_mem, State.advanceRegion_mem, State.setPark_mem]

@[simp] theorem State.unpark_mem (s : State) (u : Nat) (unit : Nat) (e : Nat) : (State.unpark s u unit e).mem = s.mem := rfl

@[simp] theorem execTakeWake_memOk (team : Nat) (g : Nat) (e : Nat) (s : State) (h : s.mem.ok = true) : outOk (execTakeWake team g e s) := by
  unfold execTakeWake
  simp [*]

@[simp] theorem execCounterWaitEnd_memOk (team : Nat) (g : Nat) (e : Nat) (s : State) (h : s.mem.ok = true) : outOk (execCounterWaitEnd team g e s) := by
  unfold execCounterWaitEnd
  simp [*]

@[simp] theorem execWaitingEntryActivation_memOk (team : Nat) (g : Nat) (e : Nat) (s : State) (h : s.mem.ok = true) : outOk (execWaitingEntryActivation team g e s) := by
  simp [execWaitingEntryActivation]
  (repeat' split) <;> simp_all

@[simp] theorem execSerialStep_memOk (team : Nat) (g : Nat) (e : Nat) (s : State) (h : s.mem.ok = true) : outOk (execSerialStep team g e s) := by
  simp [execSerialStep]
  (repeat' split) <;> simp_all

@[simp] theorem execWatchdog_memOk (team : Nat) (g : Nat) (s : State) (h : s.mem.ok = true) : outOk (execWatchdog team g s) := by
  simp [execWatchdog]
  (repeat' split) <;> simp_all

@[simp] theorem execUnassignedEncoding_memOk (why : BadWord) (s : State) (h : s.mem.ok = true) : outOk (execUnassignedEncoding why s) := by
  unfold execUnassignedEncoding
  (repeat' split) <;> simp [*]

theorem outOk_ite {c : Prop} [Decidable c] {a b : Out} (ha : outOk a) (hb : outOk b) : outOk (if c then a else b) := by
  split
  · exact ha
  · exact hb

@[simp] theorem State.access_memOk (s : State) (i : Iss) (l : List (Nat × Nat)) (wr : Bool) (keep : Bool) (k : State → List (Nat × Nat × Tgt) → Out) (hk : ∀ x0 x1, x0.mem.ok = true → outOk (k x0 x1)) (h : s.mem.ok = true) : outOk (State.access s i l wr keep k) := by
  unfold State.access
  extract_lets u s1 trs of_ stop miss lost dbl drain
  have h1 : s1.mem.ok = true := by
    simp only [s1]
    split
    · exact foldl_memOk _ _ _ (fun a b ha => by simpa using ha) h
    · exact h
  have hstop : ∀ st b, outOk (stop st b) := fun st b => by simp [stop, outOk, h1]
  refine outOk_ite (hstop _ _) (outOk_ite (hstop _ _) (outOk_ite (hstop _ _) (outOk_ite ?_ (hk _ _ h1))))
  split <;> simp [outOk, h1]

@[simp] theorem State.addRead_mem (s : State) (tag team unit core ctx : Nat) (r : LineRead) : (s.addRead tag team unit core ctx r).mem = s.mem := by
  unfold State.addRead
  dsimp only
  split <;> simp

@[simp] theorem State.readLines_memOk (s : State) (tag : Nat) (team : Nat) (unit : Nat) (core : Nat) (ctx : Nat) (l : List (Nat × Nat × Tgt)) (h : s.mem.ok = true) : (State.readLines s tag team unit core ctx l).mem.ok = true := by
  unfold State.readLines
  exact foldl_memOk _ _ _ (fun s r h => by simpa using h) h

@[simp] theorem State.readSpans_memOk (s : State) (tag : Nat) (team : Nat) (unit : Nat) (core : Nat) (ctx : Nat) (l1 : Bool) (l : List (Nat × Nat × Tgt)) (h : s.mem.ok = true) : (State.readSpans s tag team unit core ctx l1 l).mem.ok = true := by
  unfold State.readSpans
  (repeat' split) <;> grind [optOk, outOk, seenOk, seenOk_bind, foldl_mem, foldl_memOk, State.updPend_mem, State.addReq_mem, State.l1Drop_mem, State.readLines_memOk]

@[simp] theorem State.writeMap_mem (s : State) (tag team unit core ctx : Nat) (m : ByteMap) (tgt : Nat → Option Tgt) : (s.writeMap tag team unit core ctx m tgt).mem = s.mem := by
  unfold State.writeMap
  dsimp only
  apply foldl_mem
  intro s line
  split
  · rfl
  · split
    · apply foldl_mem
      intro s r
      simp
    · simp

@[simp] theorem State.failPend_memOk (s : State) (p : Pend) (h : s.mem.ok = true) : (State.failPend s p).mem.ok = true := by
  unfold State.failPend
  simp [*]

@[simp] theorem State.readsDone_memOk (s : State) (tag : Nat) (h : s.mem.ok = true) : (State.readsDone s tag).mem.ok = true := by
  unfold State.readsDone
  (repeat' split) <;> simp [*]

@[simp] theorem State.alignTrap_memOk (s : State) (bad : List (Nat × Nat × Nat)) (h : s.mem.ok = true) : (State.alignTrap s bad).mem.ok = true := by
  unfold State.alignTrap
  (repeat' split) <;> simp [*]

@[simp] theorem loadMem_memOk (sig : Sig) (p : Pfx) (m : MemArg) (l1 : Bool) (s : State) (h : s.mem.ok = true) : outOk (loadMem sig p m l1 s) := by
  unfold loadMem
  (repeat' split) <;> grind [optOk, outOk, foldl_mem, foldl_memOk, issue_memOk, State.advance_mem, State.alignTrap_memOk, State.access_memOk, State.addPend_mem, State.readSpans_memOk, State.readsDone_memOk]

@[simp] theorem storeMem_memOk (sig : Sig) (p : Pfx) (m : MemArg) (l1 : Bool) (s : State) (h : s.mem.ok = true) : outOk (storeMem sig p m l1 s) := by
  unfold storeMem
  (repeat' split) <;> grind [optOk, outOk, foldl_mem, foldl_memOk, issue_memOk, State.advance_mem, State.alignTrap_memOk, State.access_memOk, State.addPend_mem, State.l1Store_memOk, State.clearL1_mem, State.writeMap_mem]

@[simp] theorem execLd_memOk (p : Pfx) (m : MemArg) (s : State) (h : s.mem.ok = true) : outOk (execLd p m s) := by
  unfold execLd
  simp [*]

@[simp] theorem execLdc_memOk (p : Pfx) (m : MemArg) (s : State) (h : s.mem.ok = true) : outOk (execLdc p m s) := by
  unfold execLdc
  simp [*]

@[simp] theorem execSt_memOk (p : Pfx) (m : MemArg) (s : State) (h : s.mem.ok = true) : outOk (execSt p m s) := by
  unfold execSt
  simp [*]

@[simp] theorem execStc_memOk (p : Pfx) (m : MemArg) (s : State) (h : s.mem.ok = true) : outOk (execStc p m s) := by
  unfold execStc
  simp [*]

@[simp] theorem State.spadTrap_memOk (s : State) (i : Iss) (m : MemArg) (l : List (Nat × Nat)) (h : s.mem.ok = true) : optOk (State.spadTrap s i m l) := by
  simp [State.spadTrap]
  (repeat' split) <;> simp_all

@[simp] theorem State.spadSpans_memOk (s : State) (tag : Nat) (team : Nat) (unit : Nat) (l : List (Nat × Nat)) (h : s.mem.ok = true) : (State.spadSpans s tag team unit l).mem.ok = true := by
  unfold State.spadSpans
  (repeat' split) <;> simp_all

@[simp] theorem State.spadMap_memOk (s : State) (tag : Nat) (team : Nat) (unit : Nat) (m : ByteMap) (h : s.mem.ok = true) : (State.spadMap s tag team unit m).mem.ok = true := by
  unfold State.spadMap
  (repeat' split) <;> simp_all

@[simp] theorem execLds_memOk (p : Pfx) (m : MemArg) (s : State) (h : s.mem.ok = true) : outOk (execLds p m s) := by
  unfold execLds
  (repeat' split) <;> grind [optOk, outOk, foldl_mem, foldl_memOk, issue_memOk, State.advance_mem, State.spadTrap_memOk, State.addPend_mem, State.spadSpans_memOk]

@[simp] theorem execSts_memOk (p : Pfx) (m : MemArg) (s : State) (h : s.mem.ok = true) : outOk (execSts p m s) := by
  unfold execSts
  (repeat' split) <;> grind [optOk, outOk, foldl_mem, foldl_memOk, issue_memOk, State.advance_mem, State.spadTrap_memOk, State.addPend_mem, State.spadMap_memOk]

@[simp] theorem execPrf_memOk (p : Pfx) (m : MemArg) (s : State) (h : s.mem.ok = true) : outOk (execPrf p m s) := by
  unfold execPrf
  (repeat' split) <;> grind [optOk, outOk, foldl_mem, foldl_memOk, issue_memOk, State.addPend_mem, State.readSpans_memOk, State.advance_mem, State.readsDone_memOk]

@[simp] theorem execInv_memOk (p : Pfx) (m : MemArg) (s : State) (h : s.mem.ok = true) : outOk (execInv p m s) := by
  unfold execInv
  simp [*]

@[simp] theorem State.pilotWait_mem (s : State) (i : Iss) (tag : Nat) : (State.pilotWait s i tag).mem = s.mem := by
  unfold State.pilotWait
  (repeat' split) <;> simp [*]

@[simp] theorem execSld_memOk (p : Pfx) (d : BitVec 8) (a : BitVec 8) (imm : Imm) (s : State) (h : s.mem.ok = true) : outOk (execSld p d a imm s) := by
  unfold execSld
  (repeat' split) <;> grind [optOk, outOk, foldl_mem, foldl_memOk, issue_memOk, State.trap_memOk, State.access_memOk, State.addPend_mem, State.readSpans_memOk, State.pilotWait_mem, State.advance_mem, State.readsDone_memOk]

@[simp] theorem execSst_memOk (p : Pfx) (d : BitVec 8) (a : BitVec 8) (imm : Imm) (s : State) (h : s.mem.ok = true) : outOk (execSst p d a imm s) := by
  unfold execSst
  (repeat' split) <;> grind [optOk, outOk, foldl_mem, foldl_memOk, issue_memOk, State.trap_memOk, State.access_memOk, State.addPend_mem, State.l1Store_memOk, State.l1Drop_mem, State.pilotWait_mem, State.advance_mem, State.writeMap_mem]

end Sys2Proof.Machine
end

