-- ==== Sys2Proof/Laws/KeepUnits.lean ====
section
/-!
SUPPORT. The operations of remote execution, synchronisation, the Tideway, the engines' accesses and the tiles keep the memory's canonical form.
-/

namespace Sys2Proof.Machine

@[simp] theorem State.ropTrap_memOk (s : State) (i : Iss) (status : BitVec 8) (id : Nat) (gen : BitVec 8) (fpol : Nat) (addr : Nat) (lanes : LaneMask) (h : s.mem.ok = true) : (State.ropTrap s i status id gen fpol addr lanes).mem.ok = true := by
  unfold State.ropTrap
  (repeat' split) <;> simp [*]

@[simp] theorem remoteOp_memOk (sig : Sig) (p : Pfx) (d : BitVec 8) (a : BitVec 8) (id : BitVec 6) (ng : BitVec 3) (ret : Bool) (spadOp : Bool) (s : State) (h : s.mem.ok = true) : outOk (remoteOp sig p d a id ng ret spadOp s) := by
  unfold remoteOp
  (repeat' split) <;> grind [optOk, outOk, seenOk, seenOk_bind, foldl_mem, foldl_memOk, issue_memOk, State.advanceRegion_mem, State.ropTrap_memOk, State.alignTrap_memOk, State.access_memOk, State.addPend_mem, State.l1Drop_mem, State.sendRop_mem]

@[simp] theorem execRop_memOk (p : Pfx) (d : BitVec 8) (a : BitVec 8) (id : BitVec 6) (ng : BitVec 3) (s : State) (h : s.mem.ok = true) : outOk (execRop p d a id ng s) := by
  unfold execRop
  simp [*]

@[simp] theorem execRopr_memOk (p : Pfx) (d : BitVec 8) (a : BitVec 8) (id : BitVec 6) (ng : BitVec 3) (s : State) (h : s.mem.ok = true) : outOk (execRopr p d a id ng s) := by
  unfold execRopr
  simp [*]

@[simp] theorem execRopw_memOk (p : Pfx) (d : BitVec 8) (a : BitVec 8) (id : BitVec 6) (ng : BitVec 3) (s : State) (h : s.mem.ok = true) : outOk (execRopw p d a id ng s) := by
  unfold execRopw
  simp [*]

@[simp] theorem execRdef_memOk (d : BitVec 8) (a : BitVec 8) (s : State) (h : s.mem.ok = true) : outOk (execRdef d a s) := by
  unfold execRdef
  (repeat' split) <;> grind [optOk, outOk, seenOk, seenOk_bind, foldl_mem, foldl_memOk, issue_memOk, State.trap_memOk, State.access_memOk, State.addPend_mem, State.readSpans_memOk, State.setPark_mem, State.advance_mem]

@[simp] theorem execRdel_memOk (d : BitVec 8) (s : State) (h : s.mem.ok = true) : outOk (execRdel d s) := by
  unfold execRdel
  (repeat' split) <;> grind [optOk, outOk, seenOk, seenOk_bind, foldl_mem, foldl_memOk, issue_memOk, State.setOp_mem, State.addPend_mem, State.setPark_mem, State.advance_mem, State.pending_mem]

@[simp] theorem execRstat_memOk (d : BitVec 8) (a : BitVec 8) (s : State) (h : s.mem.ok = true) : outOk (execRstat d a s) := by
  unfold execRstat
  simp [*]

@[simp] theorem execRstatStat_memOk (d : BitVec 8) (s : State) (h : s.mem.ok = true) : outOk (execRstatStat d s) := by
  unfold execRstatStat
  simp [*]

@[simp] theorem State.sourceOf_memOk (s : State) (j : UnitJob) (h : s.mem.ok = true) : (State.sourceOf s j).1.mem.ok = true := by
  unfold State.sourceOf
  (repeat' split) <;> simp [*]

@[simp] theorem State.sourceReady_memOk (s : State) (who : Asker) (ctx launch n : Nat) (src : Option Tgt) (ok : Bool) (h : s.mem.ok = true) :
    (s.sourceReady who ctx launch n src ok).1.mem.ok = true := by
  unfold State.sourceReady
  split
  · dsimp only
    split <;> simp [h]
  · exact h

@[simp] theorem State.jobReady_memOk (s : State) (j : UnitJob) (h : s.mem.ok = true) : (State.jobReady s j).1.mem.ok = true := by
  unfold State.jobReady
  dsimp only
  (repeat' split) <;> simp [h]

@[simp] theorem State.mergeBefore_memOk (s : State) (j : UnitJob) (h : s.mem.ok = true) : (s.mergeBefore j).mem.ok = true := by
  unfold State.mergeBefore
  (repeat' split) <;> simp_all

@[simp] theorem State.unitApply_memOk (s : State) (j : UnitJob) (h : s.mem.ok = true) : (s.unitApply j).1.mem.ok = true := by
  unfold State.unitApply
  dsimp only
  split
  · exact h
  · split
    · simp [h]
    · split
      · simp [h]
      · split
        · exact taint_ok _ _ (by simp [h])
        · have h1 := State.sourceOf_memOk (s.mergeBefore j) j (by simp [h])
          split
          · exact h1
          · dsimp only
            split <;> simp [h1]

@[simp] theorem State.foldAt_memOk (s : State) (slice_ : Nat) (ctx : Nat) (launch : Nat) (o : Opcode) (gen : BitVec 8) (dpa : Nat) (x : List Byte) (h : s.mem.ok = true) : optOk (State.foldAt s slice_ ctx launch o gen dpa x) := by
  simp [State.foldAt]
  (repeat' split) <;> simp_all

@[simp] theorem State.mergeIn_memOk (s : State) (c : Comb) (h : s.mem.ok = true) : (State.mergeIn s c).1.mem.ok = true := by
  simp [State.mergeIn]
  (repeat' split) <;> simp_all

@[simp] theorem State.mergeAll_memOk (s : State) (l : List Comb) (h : s.mem.ok = true) : (State.mergeAll s l).1.mem.ok = true := by
  unfold State.mergeAll
  apply foldl_fst_memOk
  · intro x a hx; simp [hx]
  · exact h

@[simp] theorem State.granServed_mem (s : State) (id : Nat) (k : Nat) (st : BitVec 8) (ret : List Byte) : (State.granServed s id k st ret).mem = s.mem := rfl

@[simp] theorem State.ropOver_memOk (s : State) (id : Nat) (h : s.mem.ok = true) : (State.ropOver s id).mem.ok = true := by
  simp [State.ropOver]
  (repeat' split) <;> simp_all

@[simp] theorem State.noteRop_memOk (s : State) (u unit : Nat) (r : RopReport) (h : s.mem.ok = true) : (State.noteRop s u unit r).mem.ok = true := by
  unfold State.noteRop
  dsimp only
  split <;> simp [h]

@[simp] theorem State.ropReturned_memOk (s : State) (r : Rop) (k : Nat) (g : Gran) (h : s.mem.ok = true) : (State.ropReturned s r k g).mem.ok = true := by
  simp [State.ropReturned]
  (repeat' split) <;> simp_all

@[simp] theorem State.sendRops_mem (s : State) (r : Rop) : (State.sendRops s r).mem = s.mem := by
  simp [State.sendRops]
  (repeat' split) <;> simp_all

@[simp] theorem State.cuuArrive_mem (s : State) (dpa : Nat) : (State.cuuArrive s dpa).mem = s.mem := by
  simp [State.cuuArrive]
  (repeat' split) <;> simp_all

@[simp] theorem State.cuuStep_memOk (s : State) (j : UnitJob) (op : Nat) (k : Nat) (arr : Nat) (again : Ev) (done : State → State) (hdone : ∀ x0, x0.mem.ok = true → (done x0).mem.ok = true) (h : s.mem.ok = true) : (State.cuuStep s j op k arr again done).mem.ok = true := by
  simp [State.cuuStep]
  (repeat' split) <;> simp_all

@[simp] theorem State.ropData_memOk (s : State) (r : Rop) (g : Gran) (h : s.mem.ok = true) : (State.ropData s r g).1.mem.ok = true := by
  unfold State.ropData
  (repeat' split) <;> simp [*]

@[simp] theorem State.ropToPeer_memOk (s : State) (r : Rop) (k : Nat) (g : Gran) (p a : Nat) (h : s.mem.ok = true) : (s.ropToPeer r k g p a).mem.ok = true := by
  unfold State.ropToPeer
  have h0 := State.sourceReady_memOk s (.gran r.id k) r.ctx (s.launchIdOf r.team) g.size g.src true h
  revert h0
  generalize s.sourceReady (.gran r.id k) r.ctx (s.launchIdOf r.team) g.size g.src true = x
  intro h0
  dsimp only
  have h1 := fun (x : State) (hx : x.mem.ok = true) => State.ropData_memOk x r g hx
  (repeat' split) <;> first
    | (simp [h0]; done)
    | ((repeat' first | apply optOk_getD | apply State.send_memOk) <;> simp [h1, h0])

@[simp] theorem State.ropLocal_memOk (s : State) (r : Rop) (k : Nat) (g : Gran) (dpa : Nat) (uam : Bool) (cmb : Bool) (resid : Nat) (h : s.mem.ok = true) : (State.ropLocal s r k g dpa uam cmb resid).mem.ok = true := by
  unfold State.ropLocal
  dsimp only
  split
  · simpa using h
  · split
    · simpa using h
    · split
      · split
        · simpa using h
        · exact State.cuuStep_memOk _ _ _ _ _ _ _ (by intro x hx; simp [hx]) h
      · split
        · rename_i t ht
          obtain ⟨sl, _, hs⟩ := List.exists_of_findSome?_eq_some ht
          rw [State.granServed_mem]
          exact optOk_of (State.foldAt_memOk s sl _ _ _ _ _ _ h) hs
        · split <;> simp [h]

@[simp] theorem State.peerRopStep_memOk (s : State) (r : PeerRop) (resid : Nat) (h : s.mem.ok = true) : (State.peerRopStep s r resid).mem.ok = true := by
  unfold State.peerRopStep
  (repeat' split) <;> grind [optOk, outOk, seenOk, seenOk_bind, foldl_mem, foldl_memOk, State.reply_memOk, State.unitApply_memOk, State.pending_mem, State.cuuArrive_mem, State.bump_mem, State.cuuStep_memOk, State.jobReady_memOk]

@[simp] theorem execRemoteOpApply_memOk (op : Nat) (k : Nat) (resid : Nat) (s : State) (h : s.mem.ok = true) : outOk (execRemoteOpApply op k resid s) := by
  simp [execRemoteOpApply]
  (repeat' split) <;> simp_all

@[simp] theorem execRopStatusReturn_memOk (op : Nat) (k : Nat) (s : State) (h : s.mem.ok = true) : outOk (execRopStatusReturn op k s) := by
  unfold execRopStatusReturn
  (repeat' split) <;> simp [*]

@[simp] theorem execRdefCompletion_memOk (op : Nat) (s : State) (h : s.mem.ok = true) : outOk (execRdefCompletion op s) := by
  unfold execRdefCompletion
  split
  · exact h
  · split
    · dsimp only
      split
      · simp [h]
      · split <;> simp [h]
    · exact h

@[simp] theorem execCombiningAgeOut_memOk (e : Nat) (s : State) (h : s.mem.ok = true) : outOk (execCombiningAgeOut e s) := by
  unfold execCombiningAgeOut
  (repeat' split) <;> simp [*]

@[simp] theorem execLockLapse_memOk (pch : Nat) (s : State) (h : s.mem.ok = true) : outOk (execLockLapse pch s) := by
  unfold execLockLapse
  (repeat' split) <;> simp [*]

@[simp] theorem execCuuWatchdog_memOk (pch : Nat) (s : State) (h : s.mem.ok = true) : outOk (execCuuWatchdog pch s) := by
  unfold execCuuWatchdog
  (repeat' split) <;> grind [optOk, outOk, seenOk, seenOk_bind, foldl_mem, foldl_memOk, State.granServed_mem, State.reply_memOk, State.updChan_mem]

@[simp] theorem execIdleTimer_memOk (pch : Nat) (s : State) (h : s.mem.ok = true) : outOk (execIdleTimer pch s) := by
  unfold execIdleTimer
  (repeat' split) <;> simp [*]

@[simp] theorem execChannelPowerEntry_memOk (pch : Nat) (s : State) (h : s.mem.ok = true) : outOk (execChannelPowerEntry pch s) := by
  simp [execChannelPowerEntry]
  (repeat' split) <;> simp_all

@[simp] theorem execChannelWake_memOk (pch : Nat) (s : State) (h : s.mem.ok = true) : outOk (execChannelWake pch s) := by
  unfold execChannelWake
  (repeat' split) <;> simp [*]

@[simp] theorem syncOp_memOk (sig : Sig) (p : Pfx) (a : BitVec 8) (kind : ReqKind) (gate : Iss → State → Option State) (s : State) (hgate : ∀ x0 x1, x1.mem.ok = true → optOk (gate x0 x1)) (h : s.mem.ok = true) : outOk (syncOp sig p a kind gate s) := by
  unfold syncOp
  (repeat' split) <;> grind [optOk, outOk, seenOk, seenOk_bind, foldl_mem, foldl_memOk, issue_memOk, State.advance_mem, State.trap_memOk, State.access_memOk, State.sendSync_mem]

@[simp] theorem execAcq_memOk (p : Pfx) (a : BitVec 8) (s : State) (h : s.mem.ok = true) : outOk (execAcq p a s) := by
  unfold execAcq
  simp [*]

@[simp] theorem execRel_memOk (p : Pfx) (a : BitVec 8) (s : State) (h : s.mem.ok = true) : outOk (execRel p a s) := by
  unfold execRel
  (repeat' split) <;> grind [optOk, outOk, seenOk, seenOk_bind, foldl_mem, foldl_memOk, syncOp_memOk, State.setPark_mem]

@[simp] theorem State.syncTrap_memOk (s : State) (r : Req) (h : s.mem.ok = true) : (State.syncTrap s r).mem.ok = true := by
  unfold State.syncTrap
  (repeat' split) <;> simp [*]

@[simp] theorem State.syncFail_memOk (s : State) (r : Req) (st : BitVec 8) (h : s.mem.ok = true) : (State.syncFail s r st).mem.ok = true := by
  unfold State.syncFail
  (repeat' split) <;> simp [*]

@[simp] theorem State.syncGrant_memOk (s : State) (r : Req) (dpa : Nat) (o : SyncObj) (h : s.mem.ok = true) : (State.syncGrant s r dpa o).mem.ok = true := by
  unfold State.syncGrant
  simp [*]

@[simp] theorem State.syncQueue_mem (s : State) (r : Req) : (State.syncQueue s r).mem = s.mem := rfl

@[simp] theorem State.serveAcq_memOk (s : State) (r : Req) (dpa : Nat) (h : s.mem.ok = true) : (State.serveAcq s r dpa).mem.ok = true := by
  simp [State.serveAcq]
  (repeat' split) <;> simp_all

@[simp] theorem State.serveRel_memOk (s : State) (r : Req) (dpa : Nat) (h : s.mem.ok = true) : (State.serveRel s r dpa).mem.ok = true := by
  simp [State.serveRel]
  (repeat' split) <;> simp_all

@[simp] theorem State.resumeAt_memOk (s : State) (p : Party) (pc : U64) (h : s.mem.ok = true) : (State.resumeAt s p pc).mem.ok = true := by
  unfold State.resumeAt
  simp [*]

@[simp] theorem State.dropKept_mem (s : State) (r : Req) : (s.dropKept r).mem = s.mem := rfl

@[simp] theorem State.granted_memOk (s : State) (r : Req) (h : s.mem.ok = true) : (State.granted s r).mem.ok = true := by
  unfold State.granted
  (repeat' split) <;> simp [*]

@[simp] theorem State.released_memOk (s : State) (r : Req) (h : s.mem.ok = true) : (State.released s r).mem.ok = true := by
  unfold State.released
  (repeat' split) <;> simp [*]

@[simp] theorem State.lateGrant_memOk (s : State) (op : Nat) (h : s.mem.ok = true) : (s.lateGrant op).mem.ok = true := by
  unfold State.lateGrant
  (repeat' split) <;> simp [h]

@[simp] theorem execAcquireGrant_memOk (op : Nat) (s : State) (h : s.mem.ok = true) : outOk (execAcquireGrant op s) := by
  unfold execAcquireGrant
  (repeat' split) <;> simp [*]

@[simp] theorem execReleaseAcknowledged_memOk (op : Nat) (s : State) (h : s.mem.ok = true) : outOk (execReleaseAcknowledged op s) := by
  unfold execReleaseAcknowledged
  (repeat' split) <;> simp [*]

@[simp] theorem execFence_memOk (x : BitVec 4) (s : State) (h : s.mem.ok = true) : outOk (execFence x s) := by
  unfold execFence
  (repeat' split) <;> grind [optOk, outOk, seenOk, seenOk_bind, foldl_mem, foldl_memOk, issue_memOk, State.setPark_mem, State.clearL1Ctx_mem, State.advance_mem]

@[simp] theorem barrierOp_memOk (sig : Sig) (cluster : Bool) (s : State) (h : s.mem.ok = true) : outOk (barrierOp sig cluster s) := by
  unfold barrierOp
  (repeat' split) <;> grind [optOk, outOk, seenOk, seenOk_bind, foldl_mem, foldl_memOk, issue_memOk, State.setPark_mem]

@[simp] theorem execBar_memOk (s : State) (h : s.mem.ok = true) : outOk (execBar s) := by
  unfold execBar
  simp [*]

@[simp] theorem execCbar_memOk (s : State) (h : s.mem.ok = true) : outOk (execCbar s) := by
  unfold execCbar
  simp [*]

@[simp] theorem execBarrierCompletion_memOk (team : Nat) (cluster : Bool) (s : State) (h : s.mem.ok = true) : outOk (execBarrierCompletion team cluster s) := by
  unfold execBarrierCompletion
  (repeat' split) <;> simp_all

@[simp] theorem execTlw_memOk (a : BitVec 8) (x : BitVec 4) (s : State) (h : s.mem.ok = true) : outOk (execTlw a x s) := by
  unfold execTlw
  (repeat' split) <;> grind [optOk, outOk, seenOk, seenOk_bind, foldl_mem, foldl_memOk, issue_memOk, State.trap_memOk, State.advance_mem, State.clearL1Ctx_mem, State.setPark_mem]

@[simp] theorem execTlr_memOk (d : BitVec 8) (x : BitVec 4) (s : State) (h : s.mem.ok = true) : outOk (execTlr d x s) := by
  unfold execTlr
  (repeat' split) <;> grind [optOk, outOk, seenOk, seenOk_bind, foldl_mem, foldl_memOk, issue_memOk, State.trap_memOk, State.advance_mem, State.upd_mem]

@[simp] theorem execWait_memOk (l : BitVec 4) (st : BitVec 4) (c : BitVec 4) (t : BitVec 4) (r : BitVec 4) (s : State) (h : s.mem.ok = true) : outOk (execWait l st c t r s) := by
  unfold execWait
  (repeat' split) <;> grind [optOk, outOk, seenOk, seenOk_bind, foldl_mem, foldl_memOk, issue_memOk, State.advance_mem, State.setPark_mem]

@[simp] theorem execTimelineReached_memOk (team : Nat) (g : Nat) (e : Nat) (s : State) (h : s.mem.ok = true) : outOk (execTimelineReached team g e s) := by
  simp [execTimelineReached]
  (repeat' split) <;> simp_all

@[simp] theorem execBatchComplete_memOk (team : Nat) (g : Nat) (e : Nat) (s : State) (h : s.mem.ok = true) : outOk (execBatchComplete team g e s) := by
  simp [execBatchComplete]
  (repeat' split) <;> simp_all

@[simp] theorem State.leaveStation_mem (s : State) (core : Nat) (id : Nat) : (State.leaveStation s core id).mem = s.mem := rfl

@[simp] theorem State.setNotag_memOk (s : State) (u : Nat) (unit : Nat) (h : s.mem.ok = true) : (State.setNotag s u unit).mem.ok = true := by
  unfold State.setNotag
  simp [*]

@[simp] theorem State.endTide_memOk (s : State) (core : Nat) (o : TideOp) (flag : Nat) (ret : List Byte) (h : s.mem.ok = true) : (State.endTide s core o flag ret).mem.ok = true := by
  simp [State.endTide]
  (repeat' split) <;> simp_all

@[simp] theorem State.updSlot_mem (s : State) (n : Nat) (f : Slot → Slot) : (State.updSlot s n f).mem = s.mem := rfl

@[simp] theorem State.serveSlot_memOk (s : State) (core n : Nat) (l : List TideOp) (k : Nat) (h : s.mem.ok = true) : (s.serveSlot core n l k).mem.ok = true := by
  induction l generalizing s k with
  | nil => exact h
  | cons o t ih =>
    unfold State.serveSlot
    dsimp only
    (repeat' split) <;> simp [ih, h]

@[simp] theorem execSlotPass_memOk (core : Nat) (s : State) (h : s.mem.ok = true) : outOk (execSlotPass core s) := by
  unfold execSlotPass
  simp [*]

@[simp] theorem execNotag_memOk (core : Nat) (tid : Nat) (s : State) (h : s.mem.ok = true) : outOk (execNotag core tid s) := by
  unfold execNotag
  (repeat' split) <;> simp [*]

@[simp] theorem tideJoin_memOk (sig : Sig) (kind : TideKind) (d : Nat) (a : Nat) (n : Nat) (s : State) (h : s.mem.ok = true) : outOk (tideJoin sig kind d a n s) := by
  unfold tideJoin
  (repeat' split) <;> grind [optOk, outOk, seenOk, seenOk_bind, foldl_mem, foldl_memOk, issue_memOk, State.trap_memOk, State.advanceRegion_mem, State.upd_mem, State.updCore_mem, State.bump_mem, State.setPark_mem]

@[simp] theorem execBoard_memOk (d : BitVec 8) (a : BitVec 8) (s : State) (h : s.mem.ok = true) : outOk (execBoard d a s) := by
  unfold execBoard
  simp [*]

@[simp] theorem execAlight_memOk (d : BitVec 8) (a : BitVec 8) (s : State) (h : s.mem.ok = true) : outOk (execAlight d a s) := by
  unfold execAlight
  simp [*]

@[simp] theorem execCatch_memOk (d : BitVec 8) (a : BitVec 8) (s : State) (h : s.mem.ok = true) : outOk (execCatch d a s) := by
  unfold execCatch
  simp [*]

@[simp] theorem execRwr_memOk (d : BitVec 8) (a : BitVec 8) (x : BitVec 4) (s : State) (h : s.mem.ok = true) : outOk (execRwr d a x s) := by
  unfold execRwr
  simp [*]

@[simp] theorem execRwrR_memOk (d : BitVec 8) (a : BitVec 8) (x : BitVec 4) (s : State) (h : s.mem.ok = true) : outOk (execRwrR d a x s) := by
  unfold execRwrR
  simp [*]

@[simp] theorem execMstone_memOk (d : BitVec 8) (s : State) (h : s.mem.ok = true) : outOk (execMstone d s) := by
  unfold execMstone
  simp [*]

@[simp] theorem State.reachNow_memOk (s : State) (who : Asker) (ctx launch : Nat) (t : Tgt) (n : Nat) (wr : Bool) (h : s.mem.ok = true) :
    (s.reachNow who ctx launch t n wr).1.mem.ok = true := by
  unfold State.reachNow
  split <;> simp [h]

@[simp] theorem State.servedNow_memOk (s : State) (who : Asker) (launch : Nat) (t : Tgt) (n : Nat) (h : s.mem.ok = true) :
    (s.servedNow who launch t n).mem.ok = true := by
  unfold State.servedNow
  split <;> simp [h]

@[simp] theorem State.serveNow_memOk (s : State) (who : Asker) (ctx launch : Nat) (t : Tgt) (n : Nat) (wr : Bool) (h : s.mem.ok = true) :
    (State.serveNow s who ctx launch t n wr).1.mem.ok = true := by
  unfold State.serveNow
  dsimp only
  split <;> simp [h]

@[simp] theorem State.warmAll_mem (s : State) (w : Who) (ps : List (Nat × Nat)) : (s.warmAll w ps).mem = s.mem := by
  unfold State.warmAll
  split
  · exact foldl_mem _ _ _ (fun s a => by simp)
  · rfl

@[simp] theorem State.serveAll_memOk (s : State) (w : Who) (l : List (Nat × Nat × Tgt)) (wr : Bool) (h : s.mem.ok = true) : (s.serveAll w l wr).1.mem.ok = true := by
  unfold State.serveAll
  dsimp only
  split
  · simp [h]
  · have hr := foldl_fst_memOk l (fun (a : State × Bool) e =>
        ((a.1.reachNow (.work w.owner) w.ctx w.launch e.2.2 e.2.1 wr).1, a.2 && (a.1.reachNow (.work w.owner) w.ctx w.launch e.2.2 e.2.1 wr).2))
      (s.bwPass w.launch w.owner (s.movesAll w l wr)) (fun x e hx => by simp [hx]) (by simp [h])
    split
    · exact foldl_memOk _ _ _ (fun x e hx => by simp [hx]) hr
    · exact hr

@[simp] theorem State.nearBytes_memOk (s : State) (w : Who) (l : List (Nat × Nat × Tgt)) (m : ByteMap) (h : s.mem.ok = true) : (s.nearBytes w l m).1.mem.ok = true := by
  unfold State.nearBytes
  refine foldl_fst_memOk _ _ (s, m) ?_ h
  intro x a hx
  dsimp only
  split <;> simp [hx]

@[simp] theorem State.place_memOk (s : State) (w : Who) (spans : List (Nat × Nat)) (wr : Bool) (h : s.mem.ok = true) : seenOk (s.place w spans wr) := by
  unfold State.place
  dsimp only
  (repeat' split) <;> simp [h]

@[simp] theorem State.askPeers_memOk (s : State) (w : Who) (l : List (Nat × Nat × Tgt)) (h : s.mem.ok = true) : (State.askPeers s w l).mem.ok = true := by
  unfold State.askPeers
  simp [*]

@[simp] theorem State.gather_memOk (s : State) (w : Who) (spans : List (Nat × Nat)) (h : s.mem.ok = true) : seenOk (s.gather w spans) := by
  unfold State.gather
  apply seenOk_bind
  · simp [h]
  · intro s l h
    dsimp only
    (repeat' split) <;> simp [h]

theorem State.gatherBytes_memOk (s : State) (w : Who) (a n : Nat) (h : s.mem.ok = true) : seenOk ((s.gather w [(a, n)]).bind fun s x => .ok s (getBytes x a n)) := by
  apply seenOk_bind
  · exact State.gather_memOk _ _ _ h
  · intro s m h; rw [seenOk_ok]; exact h

@[simp] theorem State.openWrites_mem (s : State) (w : Who) : (State.openWrites s w).mem = s.mem := rfl

@[simp] theorem State.scatter_memOk (s : State) (w : Who) (m : ByteMap) (h : s.mem.ok = true) : seenOk (s.scatter w m) := by
  unfold State.scatter
  apply seenOk_bind
  · exact State.place_memOk _ _ _ _ h
  · intro s l h
    simp only [seenOk_ok]
    apply foldl_memOk
    · intro s e h
      repeat' split
      all_goals simp [h]
    · split
      · simp [h]
      · exact h

@[simp] theorem State.addHalves_memOk (s : State) (w : Who) (l : List (Nat × List Lane)) (h : s.mem.ok = true) : seenOk (s.addHalves w l) := by
  unfold State.addHalves
  apply seenOk_bind
  · exact State.place_memOk _ _ _ _ h
  · intro s l h
    dsimp only
    split
    · exact h
    · simp only [seenOk_ok]
      apply foldl_memOk
      · intro s e h
        repeat' split
        all_goals first | (simp [h]; done) | exact h | (apply foldl_memOk <;> simp +contextual [h]; done)
      · split
        · simp [h]
        · exact h

@[simp] theorem State.spadScatter_memOk (s : State) (u : Nat) (l : List (Nat × List Byte)) (h : s.mem.ok = true) : (State.spadScatter s u l).mem.ok = true := by
  unfold State.spadScatter
  (repeat' split) <;> grind [optOk, outOk, seenOk, seenOk_bind, foldl_mem, foldl_memOk, State.spadWrite_mem]

@[simp] theorem State.runDrain_memOk (s : State) (w : Who) (t code : Nat) (clr : Bool) (tr : Tensor) (origin : U64) (tbl : List Byte) (h : s.mem.ok = true) : seenOk (s.runDrain w t code clr tr origin tbl) := by
  unfold State.runDrain
  dsimp only
  repeat' split
  all_goals first
    | (simp [h]; done)
    | (apply seenOk_bind
       · simp [h]
       · intro s _ h; simp only [seenOk_ok]; (split <;> simp [h]))
    | (simp only [seenOk_ok, State.updTeam_mem]
       refine foldl_memOk _ _ _ ?_ h
       intro s e h; split <;> simp [h])

@[simp] theorem State.readWindow_memOk (s : State) (w : Who) (x : Window) (h : s.mem.ok = true) : seenOk (s.readWindow w x) := by
  unfold State.readWindow
  apply seenOk_bind
  · simp [h]
  · intro s m h; simp [h]

@[simp] theorem State.runSave_memOk (s : State) (w : Who) (obj t : Nat) (va : U64) (h : s.mem.ok = true) : seenOk (s.runSave w obj t va) := by
  unfold State.runSave
  apply seenOk_bind
  · exact State.scatter_memOk _ _ _ h
  · intro s _ h; simp [h]

@[simp] theorem State.runRest_memOk (s : State) (w : Who) (obj t : Nat) (va : U64) (h : s.mem.ok = true) : seenOk (s.runRest w obj t va) := by
  unfold State.runRest
  apply seenOk_bind
  · simp [h]
  · intro s _ h; dsimp only; split <;> simp [h]

@[simp] theorem State.runTile_memOk (s : State) (o : TileOp) (core : Nat) (h : s.mem.ok = true) : seenOk (s.runTile o core) := by
  unfold State.runTile
  dsimp only
  (repeat' split) <;> first
    | (simp [h]; done)
    | (apply seenOk_bind
       · simp [h]
       · intro s _ h; simp [h])

@[simp] theorem State.dropTile_mem (s : State) (core : Nat) (id : Nat) : (State.dropTile s core id).mem = s.mem := rfl

@[simp] theorem State.dropTiles_mem (s : State) (core : Nat) (o : TileOp) : (State.dropTiles s core o).mem = s.mem := rfl

@[simp] theorem execTileOpCompletion_memOk (core : Nat) (s : State) (h : s.mem.ok = true) : outOk (execTileOpCompletion core s) := by
  unfold execTileOpCompletion
  (repeat' split) <;> grind [optOk, outOk, seenOk, seenOk_bind, foldl_mem, foldl_memOk, State.pending_mem, State.runTile_memOk, State.setPark_mem, State.dropTiles_mem, State.endAccess_memOk, State.dropTile_mem]

@[simp] theorem matrixOp_memOk (sig : Sig) (p : Pfx) (s : State) (body : Iss → State → Out) (hbody : ∀ x0 x1, x1.mem.ok = true → outOk (body x0 x1)) (h : s.mem.ok = true) : outOk (matrixOp sig p s body) := by
  unfold matrixOp
  (repeat' split) <;> grind [optOk, outOk, seenOk, seenOk_bind, foldl_mem, foldl_memOk, issue_memOk, State.trap_memOk]

@[simp] theorem State.tileIssue_mem (s : State) (i : Iss) (kind : TileKind) : (State.tileIssue s i kind).mem = s.mem := by
  unfold State.tileIssue
  (repeat' split) <;> simp [*]

@[simp] theorem State.windowTrap_memOk (s : State) (i : Iss) (t : Option Tensor) (w : Tensor → Window) (h : s.mem.ok = true) : optOk (State.windowTrap s i t w) := by
  simp [State.windowTrap]
  (repeat' split) <;> simp_all

@[simp] theorem execMld_memOk (p : Pfx) (front : Bool) (r : BitVec 4) (f : BitVec 3) (o : BitVec 5) (s : State) (h : s.mem.ok = true) : outOk (execMld p front r f o s) := by
  unfold execMld
  (repeat' split) <;> grind [optOk, outOk, seenOk, seenOk_bind, foldl_mem, foldl_memOk, matrixOp_memOk, State.windowTrap_memOk, State.tileIssue_mem]

@[simp] theorem execMswp_memOk (p : Pfx) (s : State) (h : s.mem.ok = true) : outOk (execMswp p s) := by
  unfold execMswp
  (repeat' split) <;> grind [optOk, outOk, seenOk, seenOk_bind, foldl_mem, foldl_memOk, matrixOp_memOk, State.trap_memOk, State.tileIssue_mem]

@[simp] theorem execMmul_memOk (p : Pfx) (t : BitVec 6) (z : Bool) (r : BitVec 4) (f : BitVec 3) (o : BitVec 5) (s : State) (h : s.mem.ok = true) : outOk (execMmul p t z r f o s) := by
  unfold execMmul
  (repeat' split) <;> grind [optOk, outOk, seenOk, seenOk_bind, foldl_mem, foldl_memOk, matrixOp_memOk, State.trap_memOk, State.windowTrap_memOk, State.tileIssue_mem]

@[simp] theorem execMzero_memOk (p : Pfx) (t : BitVec 6) (s : State) (h : s.mem.ok = true) : outOk (execMzero p t s) := by
  unfold execMzero
  simp [*]

@[simp] theorem execMdrain_memOk (p : Pfx) (t : BitVec 6) (clr : Bool) (code : BitVec 3) (r : BitVec 4) (o : BitVec 5) (s : State) (h : s.mem.ok = true) : outOk (execMdrain p t clr code r o s) := by
  unfold execMdrain
  apply matrixOp_memOk _ _ _ _ _ h
  intro i s h
  dsimp only
  (repeat' split) <;> first
    | (simp [h]; done)
    | (apply State.access_memOk _ _ _ _ _ _ _ h
       intro s l h
       simp [h])

@[simp] theorem execMrsum_memOk (p : Pfx) (t : BitVec 6) (r : BitVec 4) (f : BitVec 3) (o : BitVec 5) (s : State) (h : s.mem.ok = true) : outOk (execMrsum p t r f o s) := by
  unfold execMrsum
  (repeat' split) <;> grind [optOk, outOk, seenOk, seenOk_bind, foldl_mem, foldl_memOk, matrixOp_memOk, State.trap_memOk, State.windowTrap_memOk, State.tileIssue_mem]

@[simp] theorem execMsave_memOk (p : Pfx) (obj : BitVec 2) (t : BitVec 6) (a : BitVec 8) (s : State) (h : s.mem.ok = true) : outOk (execMsave p obj t a s) := by
  unfold execMsave
  (repeat' split) <;> grind [optOk, outOk, seenOk, seenOk_bind, foldl_mem, foldl_memOk, matrixOp_memOk, State.trap_memOk, State.tileIssue_mem]

@[simp] theorem execMrest_memOk (p : Pfx) (obj : BitVec 2) (t : BitVec 6) (a : BitVec 8) (s : State) (h : s.mem.ok = true) : outOk (execMrest p obj t a s) := by
  unfold execMrest
  (repeat' split) <;> grind [optOk, outOk, seenOk, seenOk_bind, foldl_mem, foldl_memOk, matrixOp_memOk, State.trap_memOk, State.tileIssue_mem]

@[simp] theorem execMstat_memOk (p : Pfx) (d : BitVec 8) (s : State) (h : s.mem.ok = true) : outOk (execMstat p d s) := by
  unfold execMstat
  simp [*]

@[simp] theorem sumRead_memOk (inst : Instr) (sig : Sig) (p : Pfx) (n : Nat) (sp : Bool) (wr : Bool) (regs : List Nat) (s : State) (h : s.mem.ok = true) : outOk (sumRead inst sig p n sp wr regs s) := by
  unfold sumRead
  refine issue_memOk _ _ _ _ (fun i s hs => ?_) h
  dsimp only
  split
  · simpa [outOk] using hs
  · split
    · simp [outOk, hs]
    · simp [outOk, hs]
    · split
      · simp [outOk, hs]
      · refine State.access_memOk _ _ _ _ _ _ (fun s a hs => State.access_memOk _ _ _ _ _ _ (fun s b hs => ?_) hs) hs
        simp [outOk, hs]

@[simp] theorem execSkd_memOk (p : Pfx) (d : BitVec 8) (a : BitVec 8) (w : Bool) (sp : Bool) (s : State) (h : s.mem.ok = true) : outOk (execSkd p d a w sp s) := by
  unfold execSkd
  simp [*]

@[simp] theorem execSkh_memOk (p : Pfx) (d : BitVec 8) (a : BitVec 8) (w : Bool) (sp : Bool) (s : State) (h : s.mem.ok = true) : outOk (execSkh p d a w sp s) := by
  unfold execSkh
  simp [*]

@[simp] theorem execSkq_memOk (p : Pfx) (d : BitVec 8) (a : BitVec 8) (sp : Bool) (s : State) (h : s.mem.ok = true) : outOk (execSkq p d a sp s) := by
  unfold execSkq
  simp [*]

@[simp] theorem execSkm_memOk (p : Pfx) (d : BitVec 8) (a : BitVec 8) (kind : BitVec 2) (sp : Bool) (s : State) (h : s.mem.ok = true) : outOk (execSkm p d a kind sp s) := by
  unfold execSkm
  simp [*]

@[simp] theorem execSkqv_memOk (p : Pfx) (d : BitVec 8) (a : BitVec 8) (sp : Bool) (s : State) (h : s.mem.ok = true) : outOk (execSkqv p d a sp s) := by
  unfold execSkqv
  simp [*]

@[simp] theorem execSkest_memOk (p : Pfx) (d : BitVec 8) (a : BitVec 8) (sp : Bool) (s : State) (h : s.mem.ok = true) : outOk (execSkest p d a sp s) := by
  unfold execSkest
  simp [*]

@[simp] theorem execSktop_memOk (p : Pfx) (d : BitVec 8) (a : BitVec 8) (sp : Bool) (s : State) (h : s.mem.ok = true) : outOk (execSktop p d a sp s) := by
  unfold execSktop
  simp [*]

@[simp] theorem State.sumWrite_memOk (s : State) (pd : Pend) (sp : Bool) (a : Nat) (t : List (Nat × Nat × Tgt)) (bs : List Byte) (h : s.mem.ok = true) : (State.sumWrite s pd sp a t bs).mem.ok = true := by
  unfold State.sumWrite
  (repeat' split) <;> simp [*]

@[simp] theorem execSksd_memOk (p : Pfx) (d : BitVec 8) (a : BitVec 8) (kind : BitVec 2) (sp : Bool) (s : State) (h : s.mem.ok = true) : outOk (execSksd p d a kind sp s) := by
  unfold execSksd
  (repeat' split) <;> grind [optOk, outOk, seenOk, seenOk_bind, foldl_mem, foldl_memOk, issue_memOk, State.advance_mem, State.trap_memOk, State.sumWrite_memOk, State.access_memOk]

@[simp] theorem State.lateTrap_memOk (s : State) (p : Pend) (cause : Nat) (detail : Nat) (addr : Nat) (lanes : LaneMask) (h : s.mem.ok = true) : (State.lateTrap s p cause detail addr lanes).mem.ok = true := by
  unfold State.lateTrap
  simp [*]

@[simp] theorem State.wakeRead_mem (s : State) (u : Nat) (unit : Nat) (tag : Nat) : (State.wakeRead s u unit tag).mem = s.mem := rfl

@[simp] theorem State.sumDone_memOk (s : State) (p : Pend) (i : Instr) (mask : LaneMask) (again : Ev) (h : s.mem.ok = true) : (State.sumDone s p i mask again).mem.ok = true := by
  unfold State.sumDone
  dsimp only
  (repeat' split) <;> simp [h]

@[simp] theorem State.halfTrap_memOk (s : State) (i : Iss) (x : U64) (v : Bool) (sp : Bool) (h : s.mem.ok = true) : optOk (State.halfTrap s i x v sp) := by
  simp [State.halfTrap]
  (repeat' split) <;> simp_all

@[simp] theorem halfOp_memOk (sig : Sig) (p : Pfx) (a : BitVec 8) (v : Bool) (sp : Bool) (wr : Bool) (keep : Bool) (region : Bool) (cls : Cls) (act : PendAct) (req : Grp →   Nat →     Iss → State → Nat → List Nat → Tgt → State) (s : State) (hreq : ∀ x0 x1 x2 x3 x4 x5 x6, x3.mem.ok = true → (req x0 x1 x2 x3 x4 x5 x6).mem.ok = true) (h : s.mem.ok = true) : outOk (halfOp sig p a v sp wr keep region cls act req s) := by
  unfold halfOp
  (repeat' split) <;> grind [optOk, outOk, seenOk, seenOk_bind, foldl_mem, foldl_memOk, issue_memOk, State.advanceRegion_mem, State.advance_mem, State.halfTrap_memOk, State.addPend_mem, State.readsDone_memOk, State.access_memOk]

@[simp] theorem State.halfReq_mem (s : State) (i : Iss) (tag : Nat) (a : Nat) (t : Tgt) (kind : ReqKind) (drop : Bool) : (State.halfReq s i tag a t kind drop).mem = s.mem := by
  unfold State.halfReq
  (repeat' split) <;> simp [*]

@[simp] theorem execXadd_memOk (p : Pfx) (d : BitVec 8) (a : BitVec 8) (v : Bool) (sp : Bool) (s : State) (h : s.mem.ok = true) : outOk (execXadd p d a v sp s) := by
  unfold execXadd
  (repeat' split) <;> grind [optOk, outOk, seenOk, seenOk_bind, foldl_mem, foldl_memOk, halfOp_memOk, State.halfReq_mem]

@[simp] theorem execXrnd_memOk (p : Pfx) (d : BitVec 8) (a : BitVec 8) (v : Bool) (sp : Bool) (s : State) (h : s.mem.ok = true) : outOk (execXrnd p d a v sp s) := by
  unfold execXrnd
  simp [*]

@[simp] theorem execXclr_memOk (p : Pfx) (a : BitVec 8) (v : Bool) (sp : Bool) (s : State) (h : s.mem.ok = true) : outOk (execXclr p a v sp s) := by
  unfold execXclr
  simp [*]

@[simp] theorem State.updEngine_mem (s : State) (eng : Nat) (f : Engine → Engine) : (State.updEngine s eng f).mem = s.mem := by
  unfold State.updEngine
  (repeat' split) <;> simp [*]

@[simp] theorem State.accept_mem (s : State) (eng : Nat) (e : Engine) (launch : Nat) (team : Nat) (bs : List Byte) : (State.accept s eng e launch team bs).mem = s.mem := by
  simp [State.accept]
  (repeat' split) <;> simp_all

@[simp] theorem execPush_memOk (d : BitVec 8) (a : BitVec 8) (x : BitVec 4) (s : State) (h : s.mem.ok = true) : outOk (execPush d a x s) := by
  unfold execPush
  (repeat' split) <;> grind [optOk, outOk, seenOk, seenOk_bind, foldl_mem, foldl_memOk, issue_memOk, State.setPark_mem, State.trap_memOk, State.advance_mem, State.upd_mem, State.accept_mem]

@[simp] theorem State.recordTrap_memOk (s : State) (i : Iss) (l : List (Option Tensor)) (h : s.mem.ok = true) : optOk (State.recordTrap s i l) := by
  simp [State.recordTrap]
  (repeat' split) <;> simp_all

@[simp] theorem State.groupCopy_mem (s : State) (i : Iss) (src : Option (BitVec 512)) (pat : U64) (dst : BitVec 512) : (State.groupCopy s i src pat dst).mem = s.mem := rfl

@[simp] theorem execXcp_memOk (p : Pfx) (d : BitVec 4) (a : BitVec 4) (s : State) (h : s.mem.ok = true) : outOk (execXcp p d a s) := by
  unfold execXcp
  (repeat' split) <;> grind [optOk, outOk, seenOk, seenOk_bind, foldl_mem, foldl_memOk, issue_memOk, State.advance_mem, State.recordTrap_memOk, State.groupCopy_mem]

@[simp] theorem execXcpFill_memOk (p : Pfx) (d : BitVec 4) (a : BitVec 8) (s : State) (h : s.mem.ok = true) : outOk (execXcpFill p d a s) := by
  unfold execXcpFill
  (repeat' split) <;> grind [optOk, outOk, seenOk, seenOk_bind, foldl_mem, foldl_memOk, issue_memOk, State.advance_mem, State.recordTrap_memOk, State.groupCopy_mem]

@[simp] theorem execBat_memOk (p : Pfx) (d : BitVec 8) (s : State) (h : s.mem.ok = true) : outOk (execBat p d s) := by
  unfold execBat
  (repeat' split) <;> grind [optOk, outOk, seenOk, seenOk_bind, foldl_mem, foldl_memOk, issue_memOk, State.advance_mem, State.upd_mem]

@[simp] theorem execWbat_memOk (a : BitVec 8) (s : State) (h : s.mem.ok = true) : outOk (execWbat a s) := by
  unfold execWbat
  (repeat' split) <;> grind [optOk, outOk, seenOk, seenOk_bind, foldl_mem, foldl_memOk, issue_memOk, State.setPark_mem, State.advance_mem]

@[simp] theorem recordLoad_memOk (sig : Sig) (p : Pfx) (a : BitVec 8) (k : BitVec 4) (n : Nat) (cls : Cls) (act : PendAct) (hold : Bool) (s : State) (h : s.mem.ok = true) : outOk (recordLoad sig p a k n cls act hold s) := by
  unfold recordLoad
  (repeat' split) <;> grind [optOk, outOk, seenOk, seenOk_bind, foldl_mem, foldl_memOk, issue_memOk, State.advance_mem, State.trap_memOk, State.access_memOk, State.addPend_mem, State.readSpans_memOk, State.setPark_mem]

@[simp] theorem execDld_memOk (p : Pfx) (d : BitVec 4) (a : BitVec 8) (k : BitVec 4) (s : State) (h : s.mem.ok = true) : outOk (execDld p d a k s) := by
  unfold execDld
  simp [*]

@[simp] theorem execFmt_memOk (p : Pfx) (d : BitVec 3) (a : BitVec 8) (k : BitVec 4) (s : State) (h : s.mem.ok = true) : outOk (execFmt p d a k s) := by
  unfold execFmt
  simp [*]

end Sys2Proof.Machine
end

