-- ==== Sys2Proof/Laws/KeepSystem.lean ====
section
/-!
SUPPORT. The operations of the engines, the host interface, the scheduler, the mailbox and the links keep the memory's canonical form.
-/

namespace Sys2Proof.Machine

@[simp] theorem State.updRun_mem (s : State) (eng : Nat) (f : Running → Running) : (State.updRun s eng f).mem = s.mem := by
  unfold State.updRun
  simp [*]

@[simp] theorem State.endCmd_memOk (s : State) (c : Cmd) (status : BitVec 8) (addr : Nat) (h : s.mem.ok = true) : (State.endCmd s c status addr).mem.ok = true := by
  unfold State.endCmd
  simp [*]

@[simp] theorem State.cmdNext_mem (s : State) (eng : Nat) : (State.cmdNext s eng).mem = s.mem := by
  unfold State.cmdNext
  (repeat' split) <;> simp [*]

@[simp] theorem State.cmdOver_memOk (s : State) (eng : Nat) (r : Running) (status : BitVec 8) (addr : Nat) (h : s.mem.ok = true) : (State.cmdOver s eng r status addr).mem.ok = true := by
  unfold State.cmdOver
  (repeat' split) <;> simp [*]

@[simp] theorem State.finishCmd_memOk (s : State) (eng : Nat) (again : Ev) (h : s.mem.ok = true) : outOk (State.finishCmd s eng again) := by
  unfold State.finishCmd
  (repeat' split) <;> grind [optOk, outOk, seenOk, seenOk_bind, foldl_mem, foldl_memOk, State.pending_mem, State.cmdOver_memOk, State.scatter_memOk, State.updRun_mem]

@[simp] theorem State.finCmd_memOk (s : State) (eng : Nat) (status : BitVec 8) (addr : Nat) (again : Ev) (h : s.mem.ok = true) : outOk (State.finCmd s eng status addr again) := by
  unfold State.finCmd
  simp [*]

@[simp] theorem State.takeCmd_mem (s : State) (eng : Nat) : (State.takeCmd s eng).mem = s.mem := by
  unfold State.takeCmd
  simp [*]

@[simp] theorem State.killCmd_memOk (s : State) (eng : Nat) (c : Cmd) (h : s.mem.ok = true) : (State.killCmd s eng c).1.mem.ok = true := by
  unfold State.killCmd
  (repeat' split) <;> grind [optOk, outOk, seenOk, seenOk_bind, foldl_mem, foldl_memOk, State.updEngine_mem, State.scatter_memOk]

theorem seenOk_of {α : Type} {x y : Seen α} (h : seenOk x) (e : x = y) : seenOk y := e ▸ h

@[simp] theorem State.killCmds_memOk (eng : Nat) (l : List Cmd) (s : State) (h : s.mem.ok = true) : (s.killCmds eng l).1.mem.ok = true := by
  induction l generalizing s with
  | nil => exact h
  | cons c t ih =>
    have h1 : (s.killCmd eng c).1.mem.ok = true := by simp [h]
    unfold State.killCmds
    split
    · rename_i hr; rw [hr] at h1; exact ih _ h1
    · exact h1

@[simp] theorem State.readElem_memOk (s : State) (w : Who) (u : Nat) (t : Tensor) (n : Nat) (h : s.mem.ok = true) : seenOk (State.readElem s w u t n) := by
  simp [State.readElem]
  (repeat' split) <;> simp_all

@[simp] theorem State.writeElem_memOk (s : State) (w : Who) (u : Nat) (t : Tensor) (n : Nat) (bs : List Byte) (h : s.mem.ok = true) : seenOk (State.writeElem s w u t n bs) := by
  simp [State.writeElem]
  (repeat' split) <;> simp_all

@[simp] theorem State.copyElem_memOk (w : Who) (u : Nat) (src : Option Tensor) (pat : Nat) (dst : Tensor) (s : State) (n : Nat) (h : s.mem.ok = true) : seenOk (State.copyElem w u src pat dst s n) := by
  unfold State.copyElem
  (repeat' split) <;> simp_all

@[simp] theorem State.readRecs_memOk (s : State) (eng : Nat) (c : Cmd) (h : s.mem.ok = true) : seenOk (State.readRecs s eng c) := by
  unfold State.readRecs
  simp [*]

@[simp] theorem State.startCopy_memOk (s : State) (eng : Nat) (again : Ev) (h : s.mem.ok = true) : outOk (State.startCopy s eng again) := by
  unfold State.startCopy
  (repeat' split) <;> grind [optOk, outOk, seenOk, seenOk_bind, foldl_mem, foldl_memOk, State.finishCmd_memOk, State.post_mem, State.readRecs_memOk, State.pending_mem, State.finCmd_memOk, State.takeCmd_mem, State.updRun_mem, State.updCore_mem]

@[simp] theorem execCopy_memOk (eng : Nat) (s : State) (h : s.mem.ok = true) : outOk (execCopy eng s) := by
  unfold execCopy
  simp [*]

@[simp] theorem execFill_memOk (eng : Nat) (s : State) (h : s.mem.ok = true) : outOk (execFill eng s) := by
  unfold execFill
  simp [*]

@[simp] theorem State.passTurn_mem (s : State) (core : Nat) (key : Nat) : (State.passTurn s core key).mem = s.mem := rfl

@[simp] theorem State.copyCursor_memOk (s : State) (eng : Nat) (r : Running) (count : Nat) (h : s.mem.ok = true) : outOk (State.copyCursor s eng r count) := by
  unfold State.copyCursor
  (repeat' split) <;> grind [optOk, outOk, seenOk, seenOk_bind, foldl_mem, foldl_memOk, State.finCmd_memOk, State.passTurn_mem, State.updRun_mem, State.pending_mem, State.scatter_memOk]

@[simp] theorem runPieces_memOk (owner : Nat) (f : State → Nat → Seen Unit) (hf : ∀ s n, s.mem.ok = true → seenOk (f s n)) (k n : Nat) (s : State) (h : s.mem.ok = true) : (runPieces owner f k n s).1.mem.ok = true := by
  induction k generalizing n s with
  | zero => exact h
  | succ k ih =>
    have h1 := hf s n h
    unfold runPieces
    split
    all_goals (rename_i hr; have h2 := seenOk_of h1 hr)
    · exact h2
    · exact h2
    · exact h2
    · split
      · exact h2
      · exact ih _ _ h2

@[simp] theorem State.copyChunk_memOk (s : State) (eng : Nat) (r : Running) (h : s.mem.ok = true) : outOk (s.copyChunk eng r) := by
  have h1 := State.readRecs_memOk s eng r.cmd h
  unfold State.copyChunk
  dsimp only
  repeat' split
  all_goals first
    | (simp [h]; done)
    | (rename_i hr; have h2 := seenOk_of h1 hr
       simp only [seenOk_ok, seenOk_wait, seenOk_mig, seenOk_stop] at h2
       simp [h2]; done)
    | (simp only [outOk_next, State.pending_mem, State.updRun_mem]
       exact runPieces_memOk _ _ (fun s n hs => by simp [hs]) _ _ _ (by simp [h]))

@[simp] theorem State.groupChunk_memOk (s : State) (key : Nat) (core : Nat) (c : GroupCopy) (h : s.mem.ok = true) : outOk (State.groupChunk s key core c) := by
  unfold State.groupChunk
  (repeat' split) <;> grind [optOk, outOk, seenOk, seenOk_bind, foldl_mem, foldl_memOk, State.updCore_mem, State.pending_mem, runPieces_memOk, State.copyElem_memOk, State.draw_mem, State.endAccess_memOk, State.setPark_mem, State.passTurn_mem]

@[simp] theorem execChunkEnd_memOk (eng : Nat) (s : State) (h : s.mem.ok = true) : outOk (execChunkEnd eng s) := by
  unfold execChunkEnd
  dsimp only
  split
  · split <;> simp [h]
  · split
    · exact h
    · split
      · have h1 := State.killCmds_memOk eng (s.deadCmds eng ‹_›) s h
        split
        all_goals (rename_i hr; rw [hr] at h1; dsimp only at h1)
        · (repeat' split) <;> simp [h1]
        · simp [h1]
      · (repeat' split) <;> simp [h]

@[simp] theorem execGload_memOk (eng : Nat) (s : State) (h : s.mem.ok = true) : outOk (execGload eng s) := by
  unfold execGload
  (repeat' split) <;> grind [optOk, outOk, seenOk, seenOk_bind, foldl_mem, foldl_memOk, State.finishCmd_memOk, State.post_mem, State.gather_memOk, State.pending_mem, State.finCmd_memOk, State.takeCmd_mem, State.updEngine_mem]

@[simp] theorem State.updNode_mem (s : State) (eng : Nat) (i : Nat) (f : NodeRun → NodeRun) : (State.updNode s eng i f).mem = s.mem := by
  unfold State.updNode
  simp [*]

@[simp] theorem State.wakeNodes_mem (s : State) (eng : Nat) : (State.wakeNodes s eng).mem = s.mem := by
  unfold State.wakeNodes
  (repeat' split) <;> simp [*]

@[simp] theorem State.sendColl_memOk (s : State) (m : Msg) (self : Msg → Ev) (h : s.mem.ok = true) : optOk (State.sendColl s m self) := by
  unfold State.sendColl
  (repeat' split) <;> simp [*]

@[simp] theorem State.startNode_memOk (s : State) (eng : Nat) (n : Node) (i : Nat) (h : s.mem.ok = true) : (State.startNode s eng n i).mem.ok = true := by
  unfold State.startNode
  (repeat' split) <;> grind [optOk, outOk, seenOk, seenOk_bind, foldl_mem, foldl_memOk, State.updNode_mem, State.sendColl_memOk, State.pending_mem]

@[simp] theorem State.startNodes_memOk (s : State) (eng : Nat) (h : s.mem.ok = true) : (State.startNodes s eng).mem.ok = true := by
  unfold State.startNodes
  (repeat' split) <;> grind [optOk, outOk, seenOk, seenOk_bind, foldl_mem, foldl_memOk, State.startNode_memOk]

@[simp] theorem execGrun_memOk (eng : Nat) (s : State) (h : s.mem.ok = true) : outOk (execGrun eng s) := by
  unfold execGrun
  (repeat' split) <;> grind [optOk, outOk, seenOk, seenOk_bind, foldl_mem, foldl_memOk, State.finishCmd_memOk, State.post_mem, State.finCmd_memOk, State.takeCmd_mem, State.gather_memOk, State.pending_mem, State.startNodes_memOk, State.updRun_mem]

@[simp] theorem nodePiece_memOk (w : Who) (n : Node) (src : Nat) (dst : Nat) (s : State) (i : Nat) (h : s.mem.ok = true) : seenOk (nodePiece w n src dst s i) := by
  simp [nodePiece]
  (repeat' split) <;> simp_all

@[simp] theorem nodePieces_memOk (o : Nat) (w : Who) (x : Node) (a b : Nat) (k n : Nat) (s : State) (h : s.mem.ok = true) : (runPieces o (nodePiece w x a b) k n s).1.mem.ok = true :=
  runPieces_memOk _ _ (fun s n hs => by simp [hs]) _ _ _ h

@[simp] theorem State.nodeOver_memOk (s : State) (eng : Nat) (i : Nat) (n : Node) (fail : Option (BitVec 8 × Nat)) (h : s.mem.ok = true) : (State.nodeOver s eng i n fail).mem.ok = true := by
  unfold State.nodeOver
  (repeat' split) <;> simp [*]

@[simp] theorem State.sendChunk_memOk (s : State) (eng : Nat) (i : Nat) (r : Running) (n : Node) (x : NodeRun) (h : s.mem.ok = true) : outOk (State.sendChunk s eng i r n x) := by
  unfold State.sendChunk
  dsimp only
  split
  · split <;> simp [h]
  · split
    all_goals (rename_i hr; have h1 := seenOk_of (State.gather_memOk _ _ _ h) hr; simp only [seenOk_ok, seenOk_wait, seenOk_mig, seenOk_stop] at h1)
    · simp [h1]
    · simp [h1]
    · simp [h1]
    · split
      · simp [h1]
      · rename_i hs
        have h2 := optOk_of (State.sendColl_memOk _ _ _ (by simpa using h1)) hs
        split <;> simp [h2]

@[simp] theorem State.nodeStep_memOk (s : State) (eng i : Nat) (e : Engine) (r : Running) (n : Node) (x : NodeRun) (h : s.mem.ok = true) : outOk (s.nodeStep eng i e r n x) := by
  unfold State.nodeStep
  dsimp only
  repeat' split
  all_goals simp [h]

@[simp] theorem State.graphEnd_memOk (s : State) (eng : Nat) (r : Running) (h : s.mem.ok = true) : outOk (State.graphEnd s eng r) := by
  unfold State.graphEnd
  (repeat' split) <;> grind [optOk, outOk, seenOk, seenOk_bind, foldl_mem, foldl_memOk, State.finishCmd_memOk, State.finCmd_memOk, State.scatter_memOk, State.pending_mem]

@[simp] theorem execNodeCompletion_memOk (eng node : Nat) (s : State) (h : s.mem.ok = true) : outOk (execNodeCompletion eng node s) := by
  unfold execNodeCompletion
  repeat' split
  all_goals simp [h]

@[simp] theorem execSeal_memOk (eng : Nat) (s : State) (h : s.mem.ok = true) : outOk (execSeal eng s) := by
  unfold execSeal
  (repeat' split) <;> simp [*]

@[simp] theorem State.dropSeal_mem (s : State) (id : Nat) : (State.dropSeal s id).mem = s.mem := rfl

@[simp] theorem State.sealOver_memOk (s : State) (j : SealJob) (st : BitVec 8) (addr : Nat) (seq : Nat) (h : s.mem.ok = true) : outOk (State.sealOver s j st addr seq) := by
  unfold State.sealOver
  (repeat' split) <;> simp [*]

@[simp] theorem State.sealWrite_memOk (s : State) (j : SealJob) (d : SealDesc) (reason : BitVec 8) (digest : List Byte) (h : s.mem.ok = true) : outOk (State.sealWrite s j d reason digest) := by
  unfold State.sealWrite
  (repeat' split) <;> grind [optOk, outOk, seenOk, seenOk_bind, foldl_mem, foldl_memOk, State.scatter_memOk, State.pending_mem, State.sealOver_memOk]

@[simp] theorem State.sealDescBytes_memOk (s : State) (j : SealJob) (h : s.mem.ok = true) : seenOk (s.sealDescBytes j) := by
  unfold State.sealDescBytes
  apply seenOk_bind
  · apply State.gather_memOk; exact h
  · intro s m h
    generalize hn : sealDescSize (getBytes m j.desc 64) = n
    exact State.gatherBytes_memOk s (s.sealWho j 1) j.desc n h

@[simp] theorem State.sealTake_memOk (s : State) (j : SealJob) (h : s.mem.ok = true) : (s.sealTake j).mem.ok = true := by
  unfold State.sealTake
  dsimp only
  repeat' split
  all_goals simp [h]

@[simp] theorem execSealRecord_memOk (sl : Nat) (s : State) (h : s.mem.ok = true) : outOk (execSealRecord sl s) := by
  unfold execSealRecord
  dsimp only
  split
  · exact h
  · rename_i j _
    have h1 := State.sealDescBytes_memOk _ j (State.sealTake_memOk s j h)
    have h2 := fun (s : State) w r (h : s.mem.ok = true) => State.gather_memOk s w r h
    split
    · exact h
    · split
      · simp [h]
      · split
        · simp [h]
        · split
          all_goals (rename_i hr; have h3 := seenOk_of h1 hr; simp only [seenOk_ok, seenOk_wait, seenOk_mig, seenOk_stop] at h3)
          · simp [h3]
          · simp [h3]
          · simp [h3]
          · split
            · simp [h3]
            · split
              · simp [h3]
              · split
                all_goals (rename_i hr; have h4 := seenOk_of (h2 _ _ _ h3) hr; simp only [seenOk_ok, seenOk_wait, seenOk_mig, seenOk_stop] at h4)
                all_goals simp [h4]

@[simp] theorem State.fetchCame_mem (s : State) (r : Req) (bs : List Byte) (st : BitVec 8) : (State.fetchCame s r bs st).mem = s.mem := rfl

@[simp] theorem State.deliver_memOk (s : State) (r : Req) (bs : List Byte) (h : s.mem.ok = true) : (State.deliver s r bs).mem.ok = true := by
  unfold State.deliver
  have h1 : ((r.also.foldl (fun s a => s.l1Drop r.core r.ctx a r.n) (s.l1Drop r.core r.ctx r.va r.n))).mem = s.mem := by
    rw [foldl_mem _ _ _ (fun s a => by simp)]; simp
  (repeat' split) <;> simp [h1, h]

@[simp] theorem State.performed_memOk (s : State) (r : Req) (h : s.mem.ok = true) : (State.performed s r).mem.ok = true := by
  simp [State.performed]
  (repeat' split) <;> simp_all

@[simp] theorem State.workFail_mem (s : State) (eng k : Nat) (st : BitVec 8) (addr : Nat) : (s.workFail eng k st addr).mem = s.mem := by
  unfold State.workFail
  repeat' split
  all_goals simp

@[simp] theorem State.engineFail_mem (s : State) (owner : Nat) (st : BitVec 8) (addr : Nat) : (s.engineFail owner st addr).mem = s.mem :=
  s.workFail_mem _ _ st addr

@[simp] theorem State.failReq_memOk (s : State) (r : Req) (st : BitVec 8) (h : s.mem.ok = true) : (State.failReq s r st).mem.ok = true := by
  unfold State.failReq
  (repeat' split) <;> simp [*]

@[simp] theorem State.noteBad_mem (s : State) (r : Req) (l : List (Nat × Nat × BitVec 8)) : (State.noteBad s r l).mem = s.mem := rfl

@[simp] theorem State.serveHome_memOk (s : State) (r : Req) (d : Nat) (uam : Bool) (h : s.mem.ok = true) : (State.serveHome s r d uam).mem.ok = true := by
  simp [State.serveHome]
  (repeat' split) <;> simp_all

@[simp] theorem State.serveSpad_memOk (s : State) (r : Req) (t : Nat) (o : Nat) (h : s.mem.ok = true) : (State.serveSpad s r t o).mem.ok = true := by
  unfold State.serveSpad
  (repeat' split) <;> simp [*]

@[simp] theorem State.servePeer_memOk (s : State) (r : Req) (p a : Nat) (h : s.mem.ok = true) : (s.servePeer r p a).mem.ok = true := by
  unfold State.servePeer
  dsimp only
  repeat' split
  all_goals first
    | (simp [h]; done)
    | (refine optOk_getD (State.send_memOk _ _ ?_) ?_ <;> simp [h])

@[simp] theorem State.sendTag_mem (s : State) (r : Req) : (State.sendTag s r).mem = s.mem := by
  simp [State.sendTag]
  (repeat' split) <;> simp_all

@[simp] theorem State.reqTurn_mem (s : State) (r : Req) (d : Nat) : (s.reqTurn r d).1.mem = s.mem := by
  unfold State.reqTurn
  dsimp only
  split <;> simp

@[simp] theorem State.atHome_memOk (s : State) (r : Req) (d : Nat) (uam : Bool) (h : s.mem.ok = true) : outOk (State.atHome s r d uam) := by
  simp [State.atHome]
  (repeat' split) <;> simp_all

@[simp] theorem execHomeAccess_memOk (op : Nat) (s : State) (h : s.mem.ok = true) : outOk (execHomeAccess op s) := by
  unfold execHomeAccess
  repeat' first | split | dsimp only
  all_goals simp [h]

@[simp] theorem State.fillWord_mem (s : State) (r : Req) (w : Nat) : (State.fillWord s r w).mem = s.mem := by
  simp [State.fillWord]
  (repeat' split) <;> simp_all

@[simp] theorem execMergingFillReturn_memOk (op : Nat) (s : State) (h : s.mem.ok = true) : outOk (execMergingFillReturn op s) := by
  unfold execMergingFillReturn
  (repeat' split) <;> simp [*]

@[simp] theorem execStorePerformed_memOk (op : Nat) (s : State) (h : s.mem.ok = true) : outOk (execStorePerformed op s) := by
  unfold execStorePerformed
  (repeat' split) <;> simp [*]

@[simp] theorem State.tableDone_memOk (s : State) (p : Pend) (o : TileOp) (h : s.mem.ok = true) : (State.tableDone s p o).mem.ok = true := by
  simp [State.tableDone]
  (repeat' split) <;> simp_all

@[simp] theorem execLoadCompletion_memOk (op : Nat) (s : State) (h : s.mem.ok = true) : outOk (execLoadCompletion op s) := by
  unfold execLoadCompletion
  (repeat' split) <;> simp [*]

@[simp] theorem State.defineRead_memOk (s : State) (p : Pend) (d : Nat) (id : Nat) (h : s.mem.ok = true) : (State.defineRead s p d id).mem.ok = true := by
  simp [State.defineRead]
  (repeat' split) <;> simp_all

@[simp] theorem execRecordReadReturn_memOk (op : Nat) (s : State) (h : s.mem.ok = true) : outOk (execRecordReadReturn op s) := by
  simp [execRecordReadReturn]
  (repeat' split) <;> simp_all

@[simp] theorem execMigrating_memOk (team : Nat) (g : Nat) (s : State) (h : s.mem.ok = true) : outOk (execMigrating team g s) := by
  simp [execMigrating]
  (repeat' split) <;> simp_all

@[simp] theorem State.replayGroup_memOk (s : State) (u : Nat) (unit : Nat) (again : Ev) (h : s.mem.ok = true) : outOk (State.replayGroup s u unit again) := by
  simp [State.replayGroup]
  (repeat' split) <;> simp_all

@[simp] theorem execReplay_memOk (team : Nat) (g : Nat) (s : State) (h : s.mem.ok = true) : outOk (execReplay team g s) := by
  simp [execReplay]
  (repeat' split) <;> simp_all

@[simp] theorem execSoftError_memOk (team : Nat) (g : Nat) (s : State) (h : s.mem.ok = true) : outOk (execSoftError team g s) := by
  unfold execSoftError
  (repeat' split) <;> simp [*]

@[simp] theorem State.endLaunch_memOk (s : State) (l : Nat) (st : BitVec 8) (h : s.mem.ok = true) : (State.endLaunch s l st).mem.ok = true := by
  unfold State.endLaunch
  simp [*]

@[simp] theorem execMemUncorrectable_memOk (l : Nat) (s : State) (h : s.mem.ok = true) : outOk (execMemUncorrectable l s) := by
  unfold execMemUncorrectable
  (repeat' split) <;> simp [*]

@[simp] theorem execTaskEnd_memOk (l : Nat) (why : TaskEnd) (s : State) (h : s.mem.ok = true) : outOk (execTaskEnd l why s) := by
  unfold execTaskEnd
  simp [*]

@[simp] theorem execPoolZeroing_memOk (core : Nat) (s : State) (h : s.mem.ok = true) : outOk (execPoolZeroing core s) := by
  simp [execPoolZeroing]
  (repeat' split) <;> simp_all

@[simp] theorem State.notices_memOk (s : State) (code : Nat) (h : s.mem.ok = true) : (State.notices s code).mem.ok = true := by
  unfold State.notices
  refine foldl_memOk _ _ _ (fun s n h => ?_) h
  split <;> simp [h]

@[simp] theorem State.bringUp_mem (s : State) (b : BringUp) : (State.bringUp s b).mem = s.mem := by
  unfold State.bringUp
  (repeat' split) <;> simp [*]

@[simp] theorem State.firmwareLoad_mem (s : State) : (State.firmwareLoad s).mem = s.mem := by
  unfold State.firmwareLoad
  (repeat' split) <;> simp [*]

@[simp] theorem State.cleared_memOk (s : State) (trip : Bool) (epochs : List (BitVec 32)) (h : s.mem.ok = true) : (State.cleared s trip epochs).mem.ok = true := h

@[simp] theorem execColdReset_memOk (b : BringUp) (s : State) (h : s.mem.ok = true) : outOk (execColdReset b s) := by
  unfold execColdReset
  simp [*]

@[simp] theorem execWarmReset_memOk (b : BringUp) (s : State) (h : s.mem.ok = true) : outOk (execWarmReset b s) := by
  simp [execWarmReset]
  (repeat' split) <;> simp_all

@[simp] theorem State.enterHold_memOk (s : State) (h : s.mem.ok = true) : (State.enterHold s).mem.ok = true := by
  unfold State.enterHold
  simp [*]

@[simp] theorem execThermalTripHold_memOk (s : State) (h : s.mem.ok = true) : outOk (execThermalTripHold s) := by
  unfold execThermalTripHold
  (repeat' split) <;> simp [*]

@[simp] theorem execThermtrip_memOk (below90 : Bool) (b : BringUp) (s : State) (h : s.mem.ok = true) : outOk (execThermtrip below90 b s) := by
  unfold execThermtrip
  (repeat' split) <;> simp [*]

@[simp] theorem State.stepClock_mem (s : State) (f : Dev → Dev) : (State.stepClock s f).mem = s.mem := rfl

@[simp] theorem execClockLevelStep_memOk (avgW : Nat) (maxTemp : Nat) (windowCool : Bool) (windowHot : Bool) (s : State) (h : s.mem.ok = true) : outOk (execClockLevelStep avgW maxTemp windowCool windowHot s) := by
  unfold execClockLevelStep
  (repeat' split) <;> simp [*]

@[simp] theorem execPowerWindowEnd_memOk (means : List (Nat × Nat)) (hot : Bool) (s : State) (h : s.mem.ok = true) : outOk (execPowerWindowEnd means hot s) := by
  unfold execPowerWindowEnd
  (repeat' split) <;> simp [*]

@[simp] theorem execBandwidthWindow_memOk (s : State) (h : s.mem.ok = true) : outOk (execBandwidthWindow s) := by
  unfold execBandwidthWindow
  simp [*]

@[simp] theorem execPcieConfigRequest_memOk (s : State) (h : s.mem.ok = true) : outOk (execPcieConfigRequest s) := by
  unfold execPcieConfigRequest
  simp [*]

@[simp] theorem State.mailStart_mem (s : State) (fn : Nat) : (State.mailStart s fn).mem = s.mem := by
  unfold State.mailStart
  (repeat' split) <;> simp [*]

@[simp] theorem State.linkWrite_mem (s : State) (n : Nat) (v : BitVec 64) : (State.linkWrite s n v).mem = s.mem := by
  simp [State.linkWrite]
  (repeat' split) <;> simp_all

@[simp] theorem execRegisterWrite_memOk (fn off : Nat) (val : BitVec 64) (s : State) (h : s.mem.ok = true) : outOk (execRegisterWrite fn off val s) := by
  unfold execRegisterWrite
  repeat' apply outOk_ite
  all_goals first
    | (simp [h]; done)
    | (simp only [outOk_next]; split <;> simp [h])

@[simp] theorem execChpwrWrite_memOk (val : BitVec 64) (s : State) (h : s.mem.ok = true) : outOk (execChpwrWrite val s) := by
  unfold execChpwrWrite
  (repeat' split) <;> simp [*]

@[simp] theorem execQueueRegisterWrite_memOk (fn : Nat) (q : Nat) (off : Nat) (val : BitVec 64) (s : State) (h : s.mem.ok = true) : outOk (execQueueRegisterWrite fn q off val s) := by
  simp [execQueueRegisterWrite]
  (repeat' split) <;> simp_all

@[simp] theorem State.offerTail_mem (s : State) (fn : Nat) (q : Nat) (v : Nat) : (State.offerTail s fn q v).mem = s.mem := by
  simp [State.offerTail]
  (repeat' split) <;> simp_all

@[simp] theorem State.trReport_memOk (s : State) (fn : Nat) (addr : Nat) (vec : Nat) (st : BitVec 8) (h : s.mem.ok = true) : (State.trReport s fn addr vec st).mem.ok = true := by
  unfold State.trReport
  (repeat' split) <;> simp [*]

@[simp] theorem State.trStart_mem (s : State) (t : TrReq) : (State.trStart s t).mem = s.mem := by
  simp [State.trStart]
  (repeat' split) <;> simp_all

@[simp] theorem State.trArrive_mem (s : State) (fn : Nat) (q : Nat) (addr : Nat) : (State.trArrive s fn q addr).mem = s.mem := by
  simp [State.trArrive]
  (repeat' split) <;> simp_all

@[simp] theorem execDoorbell_memOk (fn : Nat) (q : Nat) (off : Nat) (v : BitVec 64) (s : State) (h : s.mem.ok = true) : outOk (execDoorbell fn q off v s) := by
  unfold execDoorbell
  (repeat' split) <;> simp [*]

@[simp] theorem State.dropBar_mem (s : State) (id : Nat) : (State.dropBar s id).mem = s.mem := rfl

@[simp] theorem State.barRead_mem (s : State) (b : BarReq) (bs : List Byte) (ep : Bool) : (State.barRead s b bs ep).mem = s.mem := rfl

@[simp] theorem State.barRefused_mem (s : State) (b : BarReq) : (State.barRefused s b).mem = s.mem := rfl

@[simp] theorem State.barPeer_memOk (s : State) (b : BarReq) (t : Tgt) (h : s.mem.ok = true) : (State.barPeer s b t).mem.ok = true := by
  unfold State.barPeer
  (repeat' split) <;> simp [*]

@[simp] theorem State.serveBar_memOk (s : State) (b : BarReq) (h : s.mem.ok = true) : (State.serveBar s b).mem.ok = true := by
  unfold State.serveBar
  (repeat' split) <;> grind [optOk, outOk, seenOk, seenOk_bind, foldl_mem, foldl_memOk, State.dropBar_mem, State.barRefused_mem, State.serveNow_memOk, State.mergeHeld_memOk, State.barRead_mem, State.pointWrite_memOk, State.barPeer_memOk, State.addReq_mem, State.openWrites_mem]

@[simp] theorem State.stepBar_memOk (s : State) (id : Nat) (h : s.mem.ok = true) : (State.stepBar s id).mem.ok = true := by
  unfold State.stepBar
  (repeat' split) <;> simp [*]

@[simp] theorem State.barArrive_memOk (s : State) (fn : Nat) (off : Nat) (n : Nat) (wr : Option (List Byte)) (h : s.mem.ok = true) : (State.barArrive s fn off n wr).mem.ok = true := by
  unfold State.barArrive
  (repeat' split) <;> simp [*]

@[simp] theorem execBar4Read_memOk (fn : Nat) (off : Nat) (n : Nat) (s : State) (h : s.mem.ok = true) : outOk (execBar4Read fn off n s) := by
  simp [execBar4Read]
  (repeat' split) <;> simp_all

@[simp] theorem execBar4Write_memOk (fn : Nat) (off : Nat) (data : List (BitVec 8)) (s : State) (h : s.mem.ok = true) : outOk (execBar4Write fn off data s) := by
  simp [execBar4Write]
  (repeat' split) <;> simp_all

@[simp] theorem State.cplWrite_memOk (s : State) (fn : Nat) (cpl : Nat) (vec : Nat) (rec_ : List Byte) (h : s.mem.ok = true) : (State.cplWrite s fn cpl vec rec_).mem.ok = true := by
  unfold State.cplWrite
  (repeat' split) <;> simp [*]

@[simp] theorem State.pendingOnce_mem (s : State) (e : Ev) : (State.pendingOnce s e).mem = s.mem := by
  unfold State.pendingOnce
  (repeat' split) <;> simp [*]

@[simp] theorem State.trimStore_mem (s : State) : (State.trimStore s).mem = s.mem := rfl

theorem optOk_bind {o : Option State} {f : State → Option State} (ho : optOk o) (hf : ∀ s, s.mem.ok = true → optOk (f s)) : optOk (o.bind f) := by
  cases o with
  | none => exact trivial
  | some s => exact hf s ho

theorem optOk_bindAny {α : Type} {o : Option α} {f : α → Option State} (hf : ∀ a, optOk (f a)) : optOk (o.bind f) := by
  cases o with
  | none => exact trivial
  | some s => exact hf s

@[simp] theorem State.closeBlock_memOk (s : State) (l : Launch) (h : s.mem.ok = true) : (s.closeBlock l).mem.ok = true := by
  unfold State.closeBlock
  split
  · exact h
  · apply foldl_memOk
    · intro s a h
      refine optOk_getD ?_ h
      simp [h]
    · exact h

@[simp] theorem State.evictDone_mem (s : State) (l : Nat) (ack : Nat) : (State.evictDone s l ack).mem = s.mem := by
  unfold State.evictDone
  (repeat' split) <;> simp [*]

@[simp] theorem State.complete_memOk (s : State) (l : Launch) (h : s.mem.ok = true) : (State.complete s l).mem.ok = true := by
  unfold State.complete
  (repeat' split) <;> grind [optOk, outOk, seenOk, seenOk_bind, foldl_mem, foldl_memOk, State.freeShares_memOk, State.closeBlock_memOk, State.cplWrite_memOk, State.pendingOnce_mem, State.evictDone_mem, State.trimStore_mem]

@[simp] theorem State.spansReady_memOk (s : State) (who : Asker) (ctx : Nat) (l : List (Nat × Nat × Bool)) (h : s.mem.ok = true) :
    (s.spansReady who ctx l).1.mem.ok = true :=
  foldl_fst_memOk _ _ _ (fun x e hx => by simp [hx]) h

@[simp] theorem State.spansRead_memOk (s : State) (who : Asker) (l : List (Nat × Nat × Bool)) (h : s.mem.ok = true) :
    (s.spansRead who l).mem.ok = true := by
  refine foldl_memOk _ _ _ (fun s e hs => ?_) h
  split <;> simp [hs]

@[simp] theorem State.reachTables_memOk (s : State) (fn q : Nat) (c : Option Ctx) (b : List Byte) (h : s.mem.ok = true) :
    (s.reachTables fn q c b).1.mem.ok = true := by
  unfold State.reachTables
  dsimp only
  split <;> simp [h]

@[simp] theorem execLaunchRecord_memOk (fn : Nat) (q : Nat) (s : State) (h : s.mem.ok = true) : outOk (execLaunchRecord fn q s) := by
  unfold execLaunchRecord
  dsimp only
  split
  · exact h
  · split
    · simp [h]
    · generalize hc : (s.queue fn q).ctx.bind s.ctx? = c
      generalize hb : s.hostRead ((s.queue fn q).base + 256 * (s.queue fn q).head) 256 = b
      have h1 := State.reachTables_memOk s fn q c b h
      revert h1
      generalize s.reachTables fn q c b = w
      intro h1
      split
      · simp [h1]
      · split
        · simp [h1]
        · split <;> simp [h1]

@[simp] theorem State.addPages_mem (s : State) (pages : List Xlat) : (State.addPages s pages).mem = s.mem := rfl

@[simp] theorem execTakeLease_memOk (l : Nat) (s : State) (h : s.mem.ok = true) : outOk (execTakeLease l s) := by
  unfold execTakeLease
  (repeat' split) <;> simp [*]

@[simp] theorem State.boardSaved_memOk (l : Launch) (b : Nat) (xs : List (Nat × Nat)) (s : State) (h : s.mem.ok = true) : optOk (s.boardSaved l b xs) := by
  induction xs generalizing s with
  | nil => exact h
  | cons x t ih =>
    unfold State.boardSaved
    split
    · exact trivial
    · exact ih _ h

@[simp] theorem State.slotsReady_memOk (s : State) (l : Launch) (h : s.mem.ok = true) : (s.slotsReady l).mem.ok = true := by
  unfold State.slotsReady
  dsimp only
  split
  · simp [h]
  · split
    · simp [h]
    · split
      · rename_i hr
        simp only [State.pendingOnce_mem, State.updLaunch_mem]
        refine optOk_of (State.boardSaved_memOk _ _ _ _ ?_) hr
        exact foldl_memOk _ _ _ (fun s i hs => by simp [hs]) h
      · split <;> simp [h]

@[simp] theorem execSlotAssignment_memOk (l : Nat) (s : State) (h : s.mem.ok = true) : outOk (execSlotAssignment l s) := by
  unfold execSlotAssignment
  repeat' first | split | dsimp only
  all_goals simp [h]

@[simp] theorem State.writeEntries_memOk (s : State) (l : Launch) (b i : Nat) (xs : List Slot) (h : s.mem.ok = true) : optOk (s.writeEntries l b i xs) := by
  induction xs generalizing s i with
  | nil => exact h
  | cons x t ih =>
    unfold State.writeEntries
    split
    · rename_i hs
      exact ih _ _ (optOk_of (State.saveSpan_memOk _ _ _ _ _ _ h) hs)
    · trivial

@[simp] theorem State.evictCheck_memOk (s : State) (l : Nat) (h : s.mem.ok = true) : (State.evictCheck s l).mem.ok = true := by
  unfold State.evictCheck
  split
  · exact h
  · split
    · exact h
    · rename_i x _
      dsimp only
      have key : ∀ o : Option State, (o = (match x.block with
          | some b => s.writeEntries x b 0 (s.ring.saved l)
          | none => if (s.ring.saved l).isEmpty then some s else none)) → optOk o := by
        rintro o rfl
        split
        · simp [h]
        · split <;> simp [h]
      split
      · simp [h]
      · rename_i hs
        have h1 := key _ hs.symm
        simpa using h1

@[simp] theorem State.alightSlot_mem (s : State) (x : Slot) : (State.alightSlot s x).mem = s.mem := by
  unfold State.alightSlot
  (repeat' split) <;> simp [*]

@[simp] theorem execJunctionPass_memOk (slot : Nat) (s : State) (h : s.mem.ok = true) : outOk (execJunctionPass slot s) := by
  unfold execJunctionPass
  (repeat' split) <;> simp [*]

@[simp] theorem State.placeOn_memOk (s : State) (l : Launch) (k : Nat) (saved : Option SavedCluster) (die : Nat) (row : Nat) (col : Nat) (h : s.mem.ok = true) : (State.placeOn s l k saved die row col).mem.ok = true := by
  unfold State.placeOn
  (repeat' split) <;> simp_all

@[simp] theorem State.tryPlace_memOk (s : State) (id : Nat) (h : s.mem.ok = true) : optOk (State.tryPlace s id) := by
  simp [State.tryPlace]
  (repeat' split) <;> simp_all

@[simp] theorem State.placeAll_memOk (id n : Nat) (s : State) (h : s.mem.ok = true) : optOk (s.placeAll id n) := by
  induction n generalizing s with
  | zero => exact h
  | succ n ih =>
    unfold State.placeAll
    split
    · rename_i hr; exact ih _ (optOk_of (State.tryPlace_memOk _ _ h) hr)
    · exact trivial

@[simp] theorem State.placing_memOk (s : State) (l : Launch) (h : s.mem.ok = true) : optOk (s.placing l) := by
  unfold State.placing
  dsimp only
  repeat' split
  all_goals simp [h]

@[simp] theorem execClusterPlacement_memOk (l : Nat) (s : State) (h : s.mem.ok = true) : outOk (execClusterPlacement l s) := by
  unfold execClusterPlacement
  split
  · exact h
  · repeat' split
    all_goals first
      | (simp [h]; done)
      | (rename_i hr; simp [optOk_of (State.placing_memOk _ _ h) hr])

@[simp] theorem execOldestClusterHold_memOk (s : State) (h : s.mem.ok = true) : outOk (execOldestClusterHold s) := by
  unfold execOldestClusterHold
  (repeat' split) <;> simp [*]

@[simp] theorem execGridCompletion_memOk (l : Nat) (s : State) (h : s.mem.ok = true) : outOk (execGridCompletion l s) := by
  unfold execGridCompletion
  repeat' first | split | dsimp only
  all_goals simp [h]

@[simp] theorem State.savePlane_memOk (s : State) (ctx : Nat) (u : Nat) (a : Nat) (p : Plane) (h : s.mem.ok = true) : optOk (State.savePlane s ctx u a p) := by
  unfold State.savePlane
  (repeat' split) <;> simp [*]

@[simp] theorem State.saveHead_memOk (s : State) (ctx : Nat) (t : Team) (a : Nat) (regs : Option FaultRegs) (h : s.mem.ok = true) : optOk (s.saveHead ctx t a regs) := by
  unfold State.saveHead
  dsimp only
  split
  · simp [h]
  · refine optOk_bindAny fun old => ?_
    simp [h]

@[simp] theorem State.saveTeamParts_memOk (s : State) (ctx : Nat) (t : Team) (a : Nat) (regs : Option FaultRegs) (h : s.mem.ok = true) : optOk (s.saveTeamParts ctx t a regs) := by
  unfold State.saveTeamParts
  refine optOk_bind (State.saveHead_memOk _ _ _ _ _ h) fun s h => ?_
  refine optOk_bind (State.saveSpan_memOk _ _ _ _ _ _ h) fun s h => ?_
  refine optOk_bind (State.savePlane_memOk _ _ _ _ _ h) fun s h => ?_
  refine optOk_bind (State.savePlane_memOk _ _ _ _ _ h) fun s h => ?_
  refine optOk_bind (State.saveSpan_memOk _ _ _ _ _ _ h) fun s h => ?_
  exact State.saveSpan_memOk _ _ _ _ _ _ h

@[simp] theorem State.saveFault_memOk (s : State) (u : Nat) (unit : Nat) (h : s.mem.ok = true) : (State.saveFault s u unit).mem.ok = true := by
  unfold State.saveFault
  simp [*]

@[simp] theorem State.stopHandler_mem (s : State) (u : Nat) : (State.stopHandler s u).mem = s.mem := rfl

@[simp] theorem State.stopTeam_mem (s : State) (t : Team) : (State.stopTeam s t).mem = s.mem := by
  unfold State.stopTeam
  (repeat' split) <;> simp [*]

@[simp] theorem State.teamSaved_mem (s : State) (l : Launch) (t : Team) (i : Nat) : (State.teamSaved s l t i).mem = s.mem := by
  unfold State.teamSaved
  simp [*]

@[simp] theorem State.settleSwap_mem (s : State) (core : Nat) : (s.settleSwap core).mem = s.mem := by
  unfold State.settleSwap
  split <;> simp

@[simp] theorem State.saveTeam_memOk (s : State) (u : Nat) (again : Ev) (h : s.mem.ok = true) : outOk (s.saveTeam u again) := by
  unfold State.saveTeam
  split
  · split
    · exact h
    · dsimp only
      split
      · split
        · simp [h]
        · have h0 : ∀ s c, s.mem.ok = true → (State.settleSwap s c).mem.ok = true := fun s c h => by simp [h]
          split
          · split <;> simp [h]
          · rename_i hr
            have h1 := optOk_of (optOk_bind (State.saveTeamParts_memOk _ _ _ _ _ (h0 _ _ (by simp [h]))) fun s h => State.writeDir_memOk s _ _ _ _ _ _ _ h) hr
            simp [h1]
      · simp [h]
  · exact h

@[simp] theorem State.saveGroup_memOk (s : State) (u g kind : Nat) (pc : U64) (h : s.mem.ok = true) : (s.saveGroup u g kind pc).mem.ok = true := by
  unfold State.saveGroup
  split
  · exact h
  · split
    · simp [h]
    · rename_i hb
      have h1 := State.takeBlock_mem _ _ hb
      have h1 : (_ : State × Nat).1.mem.ok = true := h1 ▸ h
      dsimp only at h1
      split
      · simp [h1]
      · rename_i hi
        have h2 := State.takeIndex_memOk _ _ _ h1 hi
        dsimp only at h2
        dsimp only
        split
        · simp [h2]
        · rename_i hr
          have h3 := optOk_of (State.saveSpan_memOk _ _ _ _ _ _ h2) hr
          simp [h3]

@[simp] theorem execCooperativeSave_memOk (team g : Nat) (s : State) (h : s.mem.ok = true) : outOk (execCooperativeSave team g s) := by
  unfold execCooperativeSave
  repeat' first | split | dsimp only
  all_goals simp [h]

@[simp] theorem State.withdrawSync_mem (s : State) (u : Nat) (unit : Nat) : (State.withdrawSync s u unit).mem = s.mem := rfl

@[simp] theorem State.forceStop_mem (s : State) (u : Nat) (g : Nat) : (State.forceStop s u g).mem = s.mem := rfl

@[simp] theorem execForcedSave_memOk (team g : Nat) (s : State) (h : s.mem.ok = true) : outOk (execForcedSave team g s) := by
  unfold execForcedSave
  repeat' first | split | dsimp only
  all_goals simp [h]

@[simp] theorem State.discardLoads_mem (s : State) (u : Nat) (g : Nat) : (State.discardLoads s u g).mem = s.mem := rfl

@[simp] theorem execForcedSaveReplay_memOk (team g : Nat) (s : State) (h : s.mem.ok = true) : outOk (execForcedSaveReplay team g s) := by
  unfold execForcedSaveReplay
  repeat' first | split | dsimp only
  all_goals simp [h]

theorem State.retrap_memOk (ctx u a : Nat) (x : TeamImage) (l : List Nat) (s : State) (h : s.mem.ok = true) {r : State × List Trapped} (hr : s.retrap ctx u a x l = some r) : r.1.mem.ok = true := by
  induction l generalizing s r with
  | nil => simp only [State.retrap, Option.some.injEq] at hr; subst hr; exact h
  | cons n t ih =>
    simp only [State.retrap, bind, Option.bind_eq_some_iff] at hr
    obtain ⟨s1, h1, r1, h2, h3⟩ := hr
    have h4 := ih s1 (optOk_of (State.saveSpan_memOk _ _ _ _ _ _ h) h1) h2
    cases h3
    exact h4

@[simp] theorem State.reenter_memOk (s : State) (l : Launch) (u b : Nat) (x : TeamImage) (order : List Nat) (h : s.mem.ok = true) : optOk (s.reenter l u b x order) := by
  unfold State.reenter
  split
  · exact h
  · split
    · exact trivial
    · rename_i hi
      have h1 := State.takeIndex_memOk _ _ _ h hi
      dsimp only at h1
      split
      · exact trivial
      · rename_i hr; exact State.retrap_memOk _ _ _ _ _ _ h1 hr
      · rename_i hr
        have h2 := State.retrap_memOk _ _ _ _ _ _ h1 hr
        dsimp only at h2
        simp [h2]

@[simp] theorem State.copyGoesOn_mem (s : State) (u : Nat) : (State.copyGoesOn s u).mem = s.mem := by
  unfold State.copyGoesOn
  (repeat' split) <;> simp [*]

@[simp] theorem State.resumeTeam_memOk (s : State) (l : Launch) (t : Team) (i age : Nat) (preq : Bool) (h : s.mem.ok = true) : optOk (s.resumeTeam l t i age preq) := by
  unfold State.resumeTeam
  refine optOk_bindAny fun b => optOk_bindAny fun x => ?_
  refine optOk_bind (State.writeDir_memOk _ _ _ _ _ _ _ _ (foldl_memOk _ _ _ (fun s e hs => by simp [hs]) h)) fun s h => ?_
  refine optOk_bind (State.reenter_memOk _ _ _ _ _ _ (by simp [h])) fun s h => ?_
  simp [h]

@[simp] theorem State.resumeFault_memOk (s : State) (l : Launch) (t : Team) (i : Nat) (h : s.mem.ok = true) : (s.resumeFault l t i).mem.ok = true := by
  unfold State.resumeFault
  (repeat' split) <;> simp [h]

@[simp] theorem execDispatch_memOk (team : Nat) (s : State) (h : s.mem.ok = true) : outOk (execDispatch team s) := by
  unfold execDispatch
  dsimp only
  split
  · split
    · exact h
    · split
      · simp [h]
      · split
        · simp [h]
        · split
          · rename_i hr
            exact optOk_of (State.resumeTeam_memOk _ _ _ _ _ _ (by simp [h])) hr
          · simp [h]
  · exact h

@[simp] theorem State.preStart_mem (s : State) (l : Nat) (host : Option Nat) (target : List Nat) : (State.preStart s l host target).mem = s.mem := by
  unfold State.preStart
  simp [*]

@[simp] theorem execParallelPreemption_memOk (l : Nat) (s : State) (h : s.mem.ok = true) : outOk (execParallelPreemption l s) := by
  unfold execParallelPreemption
  split
  · split
    · exact h
    · split
      · exact h
      · rename_i hb
        have h1 := State.takeBlock_mem _ _ hb
        dsimp only at h1
        simp [h1, h]
  · exact h

@[simp] theorem State.createAt_memOk (s : State) (fn : Nat) (id : Nat) (again : Ev) (h : s.mem.ok = true) : outOk (State.createAt s fn id again) := by
  simp [State.createAt]
  (repeat' split) <;> simp_all

@[simp] theorem State.create_memOk (s : State) (fn : Nat) (again : Ev) (h : s.mem.ok = true) : outOk (State.create s fn again) := by
  simp [State.create]
  (repeat' split) <;> simp_all

@[simp] theorem execCtxCreate_memOk (fn : Nat) (s : State) (h : s.mem.ok = true) : outOk (execCtxCreate fn s) := by
  unfold execCtxCreate
  simp [*]

@[simp] theorem execCtxCreateResume_memOk (fn : Nat) (s : State) (h : s.mem.ok = true) : outOk (execCtxCreateResume fn s) := by
  unfold execCtxCreateResume
  simp [*]

@[simp] theorem State.killRecords_memOk (fn ctx base size : Nat) (n : Nat) (i : Nat) (s : State) (h : s.mem.ok = true) : (s.killRecords fn ctx base size i n).mem.ok = true := by
  induction n generalizing i s with
  | zero => unfold State.killRecords; exact h
  | succ n ih =>
    unfold State.killRecords
    exact ih _ _ (by simp [h])

@[simp] theorem State.stopQueues_memOk (s : State) (c : Ctx) (h : s.mem.ok = true) : (s.stopQueues c).mem.ok = true := by
  unfold State.stopQueues
  refine foldl_memOk _ _ _ ?_ h
  intro s q h
  dsimp only
  split
  · exact h
  · exact State.killRecords_memOk _ _ _ _ _ _ _ (by simp [h])

@[simp] theorem State.killLaunch_memOk (s : State) (l : Launch) (h : s.mem.ok = true) : (s.killLaunch l).mem.ok = true := by
  unfold State.killLaunch
  dsimp only
  split <;> simp [h]

theorem State.sealHeads_mem (s : State) (c : Ctx) : (s.sealHeads c).mem = s.mem := rfl

@[simp] theorem State.dropWork_memOk (s : State) (c : Ctx) (us : List Nat) (h : s.mem.ok = true) : (State.dropWork s c us).mem.ok = true := h

@[simp] theorem State.retire_memOk (s : State) (c : Ctx) (byMail : Bool) (voidBuf : Nat) (h : s.mem.ok = true) : (State.retire s c byMail voidBuf).mem.ok = true := by
  unfold State.retire
  dsimp only
  rw [State.pending_mem, State.updCtx_mem]
  refine State.dropWork_memOk _ _ _ ?_
  refine foldl_memOk _ _ _ (fun s l hs => State.killLaunch_memOk _ _ hs) ?_
  rw [State.sealHeads_mem]
  exact State.stopQueues_memOk _ _ h

@[simp] theorem execCtxRetire_memOk (fn : Nat) (s : State) (h : s.mem.ok = true) : outOk (execCtxRetire fn s) := by
  unfold execCtxRetire
  dsimp only
  split
  · simp [h]
  · split
    · simp [h]
    · split
      · simp [h]
      · split <;> simp [h]

@[simp] theorem execFunctionLevelReset_memOk (fn : Nat) (s : State) (h : s.mem.ok = true) : outOk (execFunctionLevelReset fn s) := by
  unfold execFunctionLevelReset
  split
  · exact h
  · exact foldl_memOk _ _ _ (fun s c h => by simp [h]) h

@[simp] theorem State.voidSeal_memOk (s : State) (c : Ctx) (j : SealJob) (h : s.mem.ok = true) : (State.voidSeal s c j).mem.ok = true := by
  simp [State.voidSeal]
  (repeat' split) <;> simp_all

@[simp] theorem execRetirementSweepEnd_memOk (ctx : Nat) (s : State) (h : s.mem.ok = true) : outOk (execRetirementSweepEnd ctx s) := by
  unfold execRetirementSweepEnd
  (repeat' split) <;> simp_all

@[simp] theorem execQueueBind_memOk (fn : Nat) (s : State) (h : s.mem.ok = true) : outOk (execQueueBind fn s) := by
  simp [execQueueBind]
  (repeat' split) <;> simp_all

@[simp] theorem execVfConfig_memOk (fn : Nat) (s : State) (h : s.mem.ok = true) : outOk (execVfConfig fn s) := by
  simp [execVfConfig]
  (repeat' split) <;> simp_all

@[simp] theorem State.mailBuf_memOk (s : State) (fn : Nat) (bs : List Byte) (h : s.mem.ok = true) : optOk (State.mailBuf s fn bs) := by
  simp [State.mailBuf]
  (repeat' split) <;> simp_all

@[simp] theorem execAttest_memOk (fn : Nat) (s : State) (h : s.mem.ok = true) : outOk (execAttest fn s) := by
  unfold execAttest
  (repeat' split) <;> grind [optOk, outOk, seenOk, seenOk_bind, foldl_mem, foldl_memOk, State.mailDone_mem, State.mailBuf_memOk, State.updDev_mem]

@[simp] theorem execCertRead_memOk (fn : Nat) (s : State) (h : s.mem.ok = true) : outOk (execCertRead fn s) := by
  unfold execCertRead
  dsimp only
  split
  · simp [h]
  · refine optOk_getD (State.mailBuf_memOk _ _ _ h) ?_
    simp [h]

@[simp] theorem execPreempt_memOk (fn : Nat) (s : State) (h : s.mem.ok = true) : outOk (execPreempt fn s) := by
  unfold execPreempt
  split
  · simp [h]
  · split
    · simp [h]
    · dsimp only
      have key : ∀ l : Launch, (match s.takeBlock l.id with
        | none => s.mailDone fn (failResult 2)
        | some (s, _) => (s.updLaunch l.id fun x => { x with phase := .parked, resumeTo := x.phase }).mailDone fn l.heldAck).mem.ok = true := by
        intro l
        split
        · simp [h]
        · rename_i hb; have h1 := State.takeBlock_mem _ _ hb; dsimp only at h1; simp [h1, h]
      split
      · simp [h]
      · simp [h]
      · simp [h]
      · simp [h]
      · exact key _
      · exact key _
      · split
        · simp [h]
        · split
          · simp [h]
          · rename_i hb; have h1 := State.takeBlock_mem _ _ hb; dsimp only at h1; simp [h1, h]

@[simp] theorem execResume_memOk (fn : Nat) (s : State) (h : s.mem.ok = true) : outOk (execResume fn s) := by
  unfold execResume
  (repeat' split) <;> simp [*]

@[simp] theorem execRingEvict_memOk (fn : Nat) (s : State) (h : s.mem.ok = true) : outOk (execRingEvict fn s) := by
  unfold execRingEvict
  (repeat' split) <;> simp [*]

@[simp] theorem State.trFinish_memOk (s : State) (id : Nat) (st : BitVec 8) (h : s.mem.ok = true) : outOk (State.trFinish s id st) := by
  unfold State.trFinish
  simp [*]

@[simp] theorem execTranslationRequestDone_memOk (tr : Nat) (s : State) (h : s.mem.ok = true) : outOk (execTranslationRequestDone tr s) := by
  simp [execTranslationRequestDone]
  (repeat' split) <;> simp_all

@[simp] theorem State.tellPeers_memOk (code : Nat) (t : TrReq) (ps : List Nat) (s : State) (h : s.mem.ok = true) : (s.tellPeers code t ps).1.mem.ok = true := by
  induction ps generalizing s with
  | nil => exact h
  | cons p rest ih =>
    unfold State.tellPeers
    split
    · rename_i hr
      split at hr
      · exact ih _ (optOk_of (State.send_memOk _ _ h) hr)
      · cases hr
    · exact ih _ h

@[simp] theorem State.drainL1_memOk (s : State) (ctx : Nat) (base : Nat) (len : Nat) (h : s.mem.ok = true) : (State.drainL1 s ctx base len).mem.ok = true := by
  unfold State.drainL1
  (repeat' split) <;> simp_all

@[simp] theorem State.drainStart_memOk (s : State) (t : TrReq) (h : s.mem.ok = true) : (s.drainStart t).mem.ok = true := by
  simp [State.drainStart, h]

@[simp] theorem execDrain_memOk (tr : Nat) (s : State) (h : s.mem.ok = true) : outOk (execDrain tr s) := by
  unfold execDrain
  repeat' split
  all_goals simp [h]

theorem evict_ok {m : Mem} (l : List (Nat × Nat)) (h : m.ok = true) : (m.evict l).ok = true := setL2_ok _ h

@[simp] theorem State.sweepFrames_memOk (s : State) (l : List (Nat × Nat)) (h : s.mem.ok = true) : (s.sweepFrames l).1.mem.ok = true := by
  unfold State.sweepFrames
  dsimp only
  split
  · simp [h]
  · exact evict_ok _ (State.mergeAll_memOk _ _ h)

@[simp] theorem State.moveAcquires_mem (s old : State) (t : TrReq) : (State.moveAcquires s old t).mem = s.mem := rfl

@[simp] theorem State.dropDraining_mem (s : State) (t : TrReq) : (State.dropDraining s t).mem = s.mem := rfl

@[simp] theorem execConfirm_memOk (tr : Nat) (s : State) (h : s.mem.ok = true) : outOk (execConfirm tr s) := by
  unfold execConfirm
  repeat' first | split | dsimp only
  all_goals simp [h]

@[simp] theorem State.migrateEnd_memOk (s : State) (t : TrReq) (x : Xlat) (h : s.mem.ok = true) : outOk (s.migrateEnd t x) := by
  unfold State.migrateEnd
  dsimp only
  generalize hs : (s.reachSpan x.frame t.len).reachSpan t.frame t.len = s'
  have h0 : s'.mem.ok = true := by rw [← hs]; simp [h]
  have h1 := movePage_ok (s'.keyOf t.ctx) x.frame t.frame t.len h0
  repeat' split
  all_goals simp [h1]

@[simp] theorem execMigrate_memOk (tr : Nat) (s : State) (h : s.mem.ok = true) : outOk (execMigrate tr s) := by
  unfold execMigrate
  repeat' first | split | dsimp only
  all_goals simp [h]

@[simp] theorem execExportsRequest_memOk (tr : Nat) (s : State) (h : s.mem.ok = true) : outOk (execExportsRequest tr s) := by
  unfold execExportsRequest
  (repeat' split) <;> simp [*]

@[simp] theorem State.loseReqs_memOk (s : State) (p : Nat) (h : s.mem.ok = true) : (State.loseReqs s p).mem.ok = true := by
  unfold State.loseReqs
  (repeat' split) <;> simp_all

@[simp] theorem State.loseRops_memOk (s : State) (p : Nat) (h : s.mem.ok = true) : (State.loseRops s p).mem.ok = true := by
  unfold State.loseRops
  (repeat' split) <;> simp_all

@[simp] theorem State.loseColl_mem (s : State) (p : Nat) : (State.loseColl s p).mem = s.mem := by
  unfold State.loseColl
  simp [*]

@[simp] theorem State.peerLost_memOk (s : State) (p : Nat) (h : s.mem.ok = true) : (State.peerLost s p).mem.ok = true := by
  unfold State.peerLost
  (repeat' split) <;> simp [*]

@[simp] theorem State.routeLosses_memOk (s : State) (n : Nat) (h : s.mem.ok = true) : (State.routeLosses s n).mem.ok = true := by
  unfold State.routeLosses
  (repeat' split) <;> simp_all

@[simp] theorem State.noRoute_memOk (s : State) (m : Msg) (h : s.mem.ok = true) : (State.noRoute s m).mem.ok = true := by
  unfold State.noRoute
  (repeat' split) <;> simp [*]

@[simp] theorem State.sendAgain_memOk (s : State) (m : Msg) (h : s.mem.ok = true) : (s.sendAgain m).mem.ok = true := by
  unfold State.sendAgain
  split
  · rename_i hr; exact optOk_of (State.send_memOk _ _ h) hr
  · split
    · exact h
    · simp [h]

@[simp] theorem State.newSession_memOk (s : State) (farId : BitVec 6) (n : Nat) (h : s.mem.ok = true) : (s.newSession farId n).mem.ok = true := by
  unfold State.newSession
  exact foldl_memOk _ _ _ (fun s m h => by simp [h]) (by simp [h])

@[simp] theorem State.linkDown_memOk (s : State) (n : Nat) (st : BitVec 2) (h : s.mem.ok = true) : (s.linkDown n st).mem.ok = true := by
  unfold State.linkDown
  dsimp only
  split
  · simp [h]
  · apply State.routeLosses_memOk
    exact foldl_memOk _ _ _ (fun s e h => by simp [h]) (by simp [h])

@[simp] theorem execLinkFailure_memOk (n : Nat) (s : State) (h : s.mem.ok = true) : outOk (execLinkFailure n s) := by
  unfold execLinkFailure
  rw [outOk_next]
  split
  · exact State.linkDown_memOk _ _ _ h
  · exact h

@[simp] theorem execLinkEnable_memOk (n : Nat) (en : Bool) (s : State) (h : s.mem.ok = true) : outOk (execLinkEnable n en s) := by
  unfold execLinkEnable
  dsimp only
  repeat' split
  all_goals simp [h]

@[simp] theorem execLinkTraining_memOk (n : Nat) (farId : BitVec 6) (farAccepts : Bool) (s : State) (h : s.mem.ok = true) : outOk (execLinkTraining n farId farAccepts s) := by
  unfold execLinkTraining
  dsimp only
  (repeat' split) <;> first
    | (simp [h]; done)
    | (rw [outOk_next, State.updDev_mem]
       exact foldl_memOk _ _ _ (fun s k h => by simp [h]) (by simp [h]))

@[simp] theorem State.discard_memOk (s : State) (n : Nat) (h : s.mem.ok = true) : (s.discard n).mem.ok = true := by
  unfold State.discard
  dsimp only
  split
  · exact State.linkDown_memOk _ _ _ (by simp [h])
  · simp [h]

@[simp] theorem execFrameDiscard_memOk (n : Nat) (s : State) (h : s.mem.ok = true) : outOk (execFrameDiscard n s) := by
  unfold execFrameDiscard
  rw [outOk_next]
  split <;> simp [h]

@[simp] theorem State.linkGoesOn_mem (s : State) (n : Nat) : (State.linkGoesOn s n).mem = s.mem := by
  unfold State.linkGoesOn
  simp [*]

@[simp] theorem execReplayRequest_memOk (n : Nat) (fcnt : Nat) (s : State) (h : s.mem.ok = true) : outOk (execReplayRequest n fcnt s) := by
  unfold execReplayRequest
  (repeat' split) <;> simp_all

@[simp] theorem execRekey_memOk (n : Nat) (s : State) (h : s.mem.ok = true) : outOk (execRekey n s) := by
  unfold execRekey
  split
  · exact h
  · rw [outOk_next, foldl_mem _ _ _ (fun s m => State.frame_mem s n m)]
    exact h

@[simp] theorem execHeartbeatTimer_memOk (n : Nat) (s : State) (h : s.mem.ok = true) : outOk (execHeartbeatTimer n s) := by
  unfold execHeartbeatTimer
  (repeat' split) <;> simp [*]

@[simp] theorem execPeerLossTimeout_memOk (peer : Nat) (s : State) (h : s.mem.ok = true) : outOk (execPeerLossTimeout peer s) := by
  unfold execPeerLossTimeout
  (repeat' split) <;> simp [*]

@[simp] theorem State.received_mem (s : State) (n : Nat) : (State.received s n).mem = s.mem := by
  unfold State.received
  simp [*]

@[simp] theorem State.takeUp_memOk (s : State) (m : Msg) (f : State → Out) (hf : ∀ x0, x0.mem.ok = true → outOk (f x0)) (h : s.mem.ok = true) : outOk (State.takeUp s m f) := by
  unfold State.takeUp
  (repeat' split) <;> grind [optOk, outOk, seenOk, seenOk_bind, foldl_mem, foldl_memOk, State.pending_mem]

@[simp] theorem State.inbound_memOk (s : State) (m : Msg) (code : Nat) (f : State → Out) (hf : ∀ s, s.mem.ok = true → outOk (f s)) (h : s.mem.ok = true) : outOk (s.inbound m code f) := by
  unfold State.inbound
  split
  · exact State.takeUp_memOk _ _ _ hf h
  · split
    · exact h
    · split
      · simp [h]
      · dsimp only
        split
        · rw [outOk_next]
          exact optOk_getD (State.send_memOk _ _ (by simp [h])) (by simp [h])
        · split
          · simp [h]
          · exact State.takeUp_memOk _ _ _ hf (by simp [h])

@[simp] theorem State.hold_memOk (s : State) (m : Msg) (again : Ev) (h : s.mem.ok = true) : outOk (State.hold s m again) := by
  unfold State.hold
  simp [*]

@[simp] theorem State.answer_memOk (s : State) (m : Msg) (code : Nat) (status : BitVec 8) (data : List Byte) (h : s.mem.ok = true) : (State.answer s m code status data).mem.ok = true := by
  unfold State.answer
  (repeat' split) <;> simp [*]

@[simp] theorem State.warmExport_mem (s : State) (m : Msg) (n : Nat) : (State.warmExport s m n).mem = s.mem := by
  unfold State.warmExport
  (repeat' split) <;> simp [*]

@[simp] theorem execReadRequest_memOk (m : Msg) (s : State) (h : s.mem.ok = true) : outOk (execReadRequest m s) := by
  unfold execReadRequest
  (repeat' split) <;> grind [optOk, outOk, seenOk, seenOk_bind, foldl_mem, foldl_memOk, State.inbound_memOk, State.warmExport_mem, State.answer_memOk, State.hold_memOk, State.serveNow_memOk, State.mergeHeld_memOk]

@[simp] theorem execWriteRequest_memOk (m : Msg) (s : State) (h : s.mem.ok = true) : outOk (execWriteRequest m s) := by
  unfold execWriteRequest
  (repeat' split) <;> grind [optOk, outOk, seenOk, seenOk_bind, foldl_mem, foldl_memOk, State.inbound_memOk, State.warmExport_mem, State.answer_memOk, State.hold_memOk, State.serveNow_memOk, State.pointWrite_memOk, State.mergeHeld_memOk]

@[simp] theorem State.peerOp_memOk (s : State) (m : Msg) (data : List Byte) (again : Ev) (h : s.mem.ok = true) : outOk (State.peerOp s m data again) := by
  simp [State.peerOp]
  (repeat' split) <;> simp_all

@[simp] theorem State.peerOpPart_memOk (s : State) (m : Msg) (again : Ev) (h : s.mem.ok = true) : outOk (State.peerOpPart s m again) := by
  unfold State.peerOpPart
  (repeat' split) <;> grind [optOk, outOk, seenOk, seenOk_bind, foldl_mem, foldl_memOk, State.peerOp_memOk]

@[simp] theorem execRemoteOpNoReturn_memOk (m : Msg) (s : State) (h : s.mem.ok = true) : outOk (execRemoteOpNoReturn m s) :=
  State.inbound_memOk _ _ _ _ (fun s h => by simp [h]) h

@[simp] theorem execRemoteOpWithReturn_memOk (m : Msg) (s : State) (h : s.mem.ok = true) : outOk (execRemoteOpWithReturn m s) :=
  State.inbound_memOk _ _ _ _ (fun s h => by simp [h]) h

@[simp] theorem execReadResponse_memOk (m : Msg) (s : State) (h : s.mem.ok = true) : outOk (execReadResponse m s) := by
  refine State.inbound_memOk _ _ _ _ (fun s h => ?_) h
  dsimp only
  repeat' first | split | dsimp only
  all_goals simp [h]

@[simp] theorem State.syncAnswer_memOk (s : State) (r : Req) (m : Msg) (h : s.mem.ok = true) : outOk (State.syncAnswer s r m) := by
  unfold State.syncAnswer
  (repeat' split) <;> simp [*]

@[simp] theorem execWriteAcknowledgement_memOk (m : Msg) (s : State) (h : s.mem.ok = true) : outOk (execWriteAcknowledgement m s) := by
  refine State.inbound_memOk _ _ _ _ (fun s h => ?_) h
  dsimp only
  repeat' first | split | dsimp only
  all_goals simp [h]

@[simp] theorem execRemoteOpResponse_memOk (m : Msg) (s : State) (h : s.mem.ok = true) : outOk (execRemoteOpResponse m s) := by
  refine State.inbound_memOk _ _ _ _ (fun s h => ?_) h
  dsimp only
  generalize List.findSome? _ _ = hit
  repeat' split
  all_goals simp [h]

@[simp] theorem execCollectiveCredit_memOk (m : Msg) (s : State) (h : s.mem.ok = true) : outOk (execCollectiveCredit m s) := by
  refine State.inbound_memOk _ _ _ _ (fun s h => ?_) h
  dsimp only
  repeat' split
  all_goals simp [h]

@[simp] theorem State.takeChunk_memOk (s : State) (m : Msg) (eng : Nat) (i : Nat) (r : Running) (n : Node) (x : NodeRun) (h : s.mem.ok = true) : outOk (State.takeChunk s m eng i r n x) := by
  unfold State.takeChunk
  dsimp only
  split
  · simp [h]
  · split
    · simp [h]
    · split
      · split <;> simp [h]
      · split
        · simp [h]
        · split
          all_goals (rename_i hr; have h1 := seenOk_of (State.scatter_memOk _ _ _ h) hr; simp only [seenOk_ok, seenOk_wait, seenOk_mig, seenOk_stop] at h1)
          · simp [h1]
          · simp [h1]
          · simp [h1]
          · (repeat' split) <;> simp [h1]

@[simp] theorem execCollectiveChunk_memOk (m : Msg) (s : State) (h : s.mem.ok = true) : outOk (execCollectiveChunk m s) := by
  unfold execCollectiveChunk
  dsimp only
  refine State.inbound_memOk _ _ _ _ (fun s h => ?_) h
  repeat' split
  all_goals simp [h]

@[simp] theorem execTranslationDrain_memOk (m : Msg) (s : State) (h : s.mem.ok = true) : outOk (execTranslationDrain m s) :=
  State.inbound_memOk _ _ _ _ (fun s h => by simp [h]) h

@[simp] theorem execTranslationConfirm_memOk (m : Msg) (s : State) (h : s.mem.ok = true) : outOk (execTranslationConfirm m s) :=
  State.inbound_memOk _ _ _ _ (fun s h => by simp [h]) h

@[simp] theorem execPeerConfirmComplete_memOk (pc : Nat) (s : State) (h : s.mem.ok = true) : outOk (execPeerConfirmComplete pc s) := by
  unfold execPeerConfirmComplete
  (repeat' split) <;> simp [*]

@[simp] theorem execTranslationAcknowledgement_memOk (m : Msg) (s : State) (h : s.mem.ok = true) : outOk (execTranslationAcknowledgement m s) :=
  State.inbound_memOk _ _ _ _ (fun s h => by simp [h]) h

@[simp] theorem execResetNotice_memOk (m : Msg) (s : State) (h : s.mem.ok = true) : outOk (execResetNotice m s) :=
  State.inbound_memOk _ _ _ _ (fun s h => by simp [h]) h

@[simp] theorem execPowerDownNotice_memOk (m : Msg) (s : State) (h : s.mem.ok = true) : outOk (execPowerDownNotice m s) :=
  State.inbound_memOk _ _ _ _ (fun s h => by simp [h]) h

@[simp] theorem execHeartbeat_memOk (m : Msg) (s : State) (h : s.mem.ok = true) : outOk (execHeartbeat m s) :=
  State.inbound_memOk _ _ _ _ (fun s h => by simp [h]) h

@[simp] theorem State.clkEdge_mem (s : State) : (State.clkEdge s).mem = s.mem := rfl

@[simp] theorem execEmit_memOk (a : BitVec 8) (s : State) (h : s.mem.ok = true) : outOk (execEmit a s) := by
  unfold execEmit
  simp [*]

@[simp] theorem execEmitx_memOk (d : BitVec 8) (a : BitVec 8) (x : BitVec 4) (s : State) (h : s.mem.ok = true) : outOk (execEmitx d a x s) := by
  unfold execEmitx
  (repeat' split) <;> grind [optOk, outOk, seenOk, seenOk_bind, foldl_mem, foldl_memOk, issue_memOk, State.trap_memOk, State.advance_mem, State.updTeam_mem]

@[simp] theorem closeRun_memOk (g : Sig) (d : Option (BitVec 8)) (a : BitVec 8) (q : BitVec 2) (s : State) (h : s.mem.ok = true) : outOk (closeRun g d a q s) := by
  unfold closeRun
  (repeat' split) <;> grind [optOk, outOk, seenOk, seenOk_bind, foldl_mem, foldl_memOk, issue_memOk, State.updTeam_mem, State.takeTrap_memOk, State.setPark_mem, State.advance_mem, State.upd_mem]

@[simp] theorem execEcl_memOk (a : BitVec 8) (q : BitVec 2) (s : State) (h : s.mem.ok = true) : outOk (execEcl a q s) := by
  unfold execEcl
  simp [*]

@[simp] theorem execEcln_memOk (d : BitVec 8) (a : BitVec 8) (q : BitVec 2) (s : State) (h : s.mem.ok = true) : outOk (execEcln d a q s) := by
  unfold execEcln
  simp [*]

@[simp] theorem execEqfree_memOk (d : BitVec 8) (q : BitVec 2) (s : State) (h : s.mem.ok = true) : outOk (execEqfree d q s) := by
  unfold execEqfree
  (repeat' split) <;> grind [optOk, outOk, seenOk, seenOk_bind, foldl_mem, foldl_memOk, issue_memOk, State.advance_mem, State.upd_mem]

@[simp] theorem execEclStallEnd_memOk (team : Nat) (s : State) (h : s.mem.ok = true) : outOk (execEclStallEnd team s) := by
  unfold execEclStallEnd
  simp [*]

@[simp] theorem execCsrr_memOk (d : BitVec 8) (a : BitVec 8) (x : BitVec 4) (s : State) (h : s.mem.ok = true) : outOk (execCsrr d a x s) := by
  unfold execCsrr
  (repeat' split) <;> grind [optOk, outOk, seenOk, seenOk_bind, foldl_mem, foldl_memOk, issue_memOk, State.advance_mem, State.upd_mem, State.trap_memOk]

@[simp] theorem State.csrImage_memOk (s : State) (u n : Nat) (x : U64) (h : s.mem.ok = true) : optOk (s.csrImage u n x) := by
  unfold State.csrImage
  dsimp only
  repeat' split
  all_goals first
    | (simp [h]; done)
    | (refine optOk_getD (State.saveSpan_memOk _ _ _ _ _ _ ?_) ?_ <;> simp [h])

@[simp] theorem execCsrw_memOk (d a : BitVec 8) (x : BitVec 4) (s : State) (h : s.mem.ok = true) : outOk (execCsrw d a x s) := by
  unfold execCsrw
  apply issue_memOk _ _ _ _ _ h
  intro i s h
  dsimp only
  repeat' split
  all_goals first
    | (simp [h]; done)
    | (rename_i hr; have h2 := optOk_of (State.csrImage_memOk _ _ _ _ h) hr; simp [h2])

@[simp] theorem execTret_memOk (s : State) (h : s.mem.ok = true) : outOk (execTret s) := by
  unfold execTret
  (repeat' split) <;> grind [optOk, outOk, seenOk, seenOk_bind, foldl_mem, foldl_memOk, issue_memOk, State.returnFromTrap_memOk, State.setPark_mem]

@[simp] theorem execPrio_memOk (x : BitVec 4) (s : State) (h : s.mem.ok = true) : outOk (execPrio x s) := by
  unfold execPrio
  (repeat' split) <;> grind [optOk, outOk, seenOk, seenOk_bind, foldl_mem, foldl_memOk, issue_memOk, State.trap_memOk, State.advance_mem, State.upd_mem]

@[simp] theorem execHint_memOk (x : BitVec 4) (s : State) (h : s.mem.ok = true) : outOk (execHint x s) := by
  unfold execHint
  (repeat' split) <;> grind [optOk, outOk, seenOk, seenOk_bind, foldl_mem, foldl_memOk, issue_memOk, State.advance_mem, State.setPark_mem]

@[simp] theorem runEvent_memOk (e : Ev) (s : State) (h : s.mem.ok = true) : outOk (runEvent e s) := by
  unfold runEvent
  (repeat' split) <;> simp [*]

@[simp] theorem State.fetchAsk_mem (s : State) (p : Party) (va : Nat) (peer : Nat) (addr : Nat) : (State.fetchAsk s p va peer addr).mem = s.mem := rfl

@[simp] theorem State.fetched_mem (s : State) (p : Party) (va : Nat) (bs : List Byte) : (s.fetched p va bs).mem = s.mem := rfl

@[simp] theorem State.fetchStep_memOk (s : State) (p : Party) (h : s.mem.ok = true) : (State.fetchStep s p).mem.ok = true := by
  unfold State.fetchStep
  dsimp only
  (repeat' split) <;> simp [h]

@[simp] theorem State.occupy_memOk (s : State) (core : Nat) (rs : List ReadyFrag) (sel : List (Party × Nat)) (h : s.mem.ok = true) : (State.occupy s core rs sel).mem.ok = true := by
  unfold State.occupy
  (repeat' split) <;> grind [optOk, outOk, seenOk, seenOk_bind, foldl_mem, foldl_memOk, State.updCore_mem]

@[simp] theorem State.selectOn_memOk (s : State) (core : Nat) (rs : List ReadyFrag) (h : s.mem.ok = true) : (State.selectOn s core rs).mem.ok = true := by
  unfold State.selectOn
  (repeat' split) <;> simp_all

end Sys2Proof.Machine
end

