-- ==== Sys2Proof/Laws/PerInstr.lean ====
section
/-!
SUPPORT. Per instruction: its words fit in the 12 bytes that a fetch brings (R317, R327, R328). The host's case split over
`Instr` takes one lemma for each constructor.
-/

namespace Sys2Proof

theorem halves32_length (w : BitVec 32) : (halves32 w).length = 2 := rfl

theorem enc0_length (p : Pfx) (mod : Bool) (w : BitVec 32) : (enc0 p mod w).length ≤ 6 := by
  unfold enc0; split <;> simp [halves32]

theorem enc01_length (p : Pfx) (mod : Bool) (h : Option (BitVec 23)) (w : BitVec 32) : (enc01 p mod h w).length ≤ 6 := by
  unfold enc01; split <;> cases h <;> simp [halves32]

theorem enc16_length (p : Pfx) (mod : Bool) (h : BitVec 16) :
    ((if p.pk0 then halves32 (encPk0 p mod) else []) ++ [h]).length ≤ 6 := by
  split <;> simp [halves32]

theorem rend_length (n : BitVec 4) (t0 t1 : BitVec 32) : (encode (.rend n t0 t1)).length ≤ 6 := by
  show (halves32 _ ++ (if _ then [] else if _ then halves32 t0 else halves32 t0 ++ halves32 t1)).length ≤ 6
  rw [List.length_append, halves32_length]
  split
  · simp
  · split
    · simp [halves32_length]
    · simp [halves32_length]

end Sys2Proof

namespace Sys2Proof.Laws.Fits

/-- The words of an instruction are at most six halfwords. -/
def Statement (i : Instr) : Prop := (encode i).length ≤ 6

theorem add16 (x0 : Pfx) (x1 : BitVec 6) (x2 : BitVec 5) : Statement (.add16 x0 x1 x2) := enc16_length _ _ _
theorem addImm16 (x0 : Pfx) (x1 : BitVec 6) (x2 : BitVec 5) : Statement (.addImm16 x0 x1 x2) := enc16_length _ _ _
theorem sub16 (x0 : Pfx) (x1 : BitVec 6) (x2 : BitVec 5) : Statement (.sub16 x0 x1 x2) := enc16_length _ _ _
theorem mul16 (x0 : Pfx) (x1 : BitVec 6) (x2 : BitVec 5) : Statement (.mul16 x0 x1 x2) := enc16_length _ _ _
theorem and16 (x0 : Pfx) (x1 : BitVec 6) (x2 : BitVec 5) : Statement (.and16 x0 x1 x2) := enc16_length _ _ _
theorem or16 (x0 : Pfx) (x1 : BitVec 6) (x2 : BitVec 5) : Statement (.or16 x0 x1 x2) := enc16_length _ _ _
theorem xor16 (x0 : Pfx) (x1 : BitVec 6) (x2 : BitVec 5) : Statement (.xor16 x0 x1 x2) := enc16_length _ _ _
theorem shl16 (x0 : Pfx) (x1 : BitVec 6) (x2 : BitVec 5) : Statement (.shl16 x0 x1 x2) := enc16_length _ _ _
theorem shr16 (x0 : Pfx) (x1 : BitVec 6) (x2 : BitVec 5) : Statement (.shr16 x0 x1 x2) := enc16_length _ _ _
theorem sra16 (x0 : Pfx) (x1 : BitVec 6) (x2 : BitVec 5) : Statement (.sra16 x0 x1 x2) := enc16_length _ _ _
theorem min16 (x0 : Pfx) (x1 : BitVec 6) (x2 : BitVec 5) : Statement (.min16 x0 x1 x2) := enc16_length _ _ _
theorem max16 (x0 : Pfx) (x1 : BitVec 6) (x2 : BitVec 5) : Statement (.max16 x0 x1 x2) := enc16_length _ _ _
theorem minu16 (x0 : Pfx) (x1 : BitVec 6) (x2 : BitVec 5) : Statement (.minu16 x0 x1 x2) := enc16_length _ _ _
theorem maxu16 (x0 : Pfx) (x1 : BitVec 6) (x2 : BitVec 5) : Statement (.maxu16 x0 x1 x2) := enc16_length _ _ _
theorem fadd16 (x0 : Pfx) (x1 : BitVec 6) (x2 : BitVec 5) : Statement (.fadd16 x0 x1 x2) := enc16_length _ _ _
theorem fmul16 (x0 : Pfx) (x1 : BitVec 6) (x2 : BitVec 5) : Statement (.fmul16 x0 x1 x2) := enc16_length _ _ _
theorem add (x0 : Pfx) (x1 : BitVec 8) (x2 : BitVec 8) (x3 : BitVec 8) (x4 : Bool) : Statement (.add x0 x1 x2 x3 x4) := enc0_length _ _ _
theorem sub (x0 : Pfx) (x1 : BitVec 8) (x2 : BitVec 8) (x3 : BitVec 8) (x4 : Bool) : Statement (.sub x0 x1 x2 x3 x4) := enc0_length _ _ _
theorem and (x0 : Pfx) (x1 : BitVec 8) (x2 : BitVec 8) (x3 : BitVec 8) (x4 : Bool) : Statement (.and x0 x1 x2 x3 x4) := enc0_length _ _ _
theorem or (x0 : Pfx) (x1 : BitVec 8) (x2 : BitVec 8) (x3 : BitVec 8) (x4 : Bool) : Statement (.or x0 x1 x2 x3 x4) := enc0_length _ _ _
theorem xor (x0 : Pfx) (x1 : BitVec 8) (x2 : BitVec 8) (x3 : BitVec 8) (x4 : Bool) : Statement (.xor x0 x1 x2 x3 x4) := enc0_length _ _ _
theorem shl (x0 : Pfx) (x1 : BitVec 8) (x2 : BitVec 8) (x3 : BitVec 8) (x4 : Bool) : Statement (.shl x0 x1 x2 x3 x4) := enc0_length _ _ _
theorem shr (x0 : Pfx) (x1 : BitVec 8) (x2 : BitVec 8) (x3 : BitVec 8) (x4 : Bool) : Statement (.shr x0 x1 x2 x3 x4) := enc0_length _ _ _
theorem sra (x0 : Pfx) (x1 : BitVec 8) (x2 : BitVec 8) (x3 : BitVec 8) (x4 : Bool) : Statement (.sra x0 x1 x2 x3 x4) := enc0_length _ _ _
theorem mul (x0 : Pfx) (x1 : BitVec 8) (x2 : BitVec 8) (x3 : BitVec 8) (x4 : Bool) : Statement (.mul x0 x1 x2 x3 x4) := enc0_length _ _ _
theorem mad (x0 : Pfx) (x1 : BitVec 8) (x2 : BitVec 8) (x3 : BitVec 8) (x4 : Bool) : Statement (.mad x0 x1 x2 x3 x4) := enc0_length _ _ _
theorem mulh (x0 : Pfx) (x1 : BitVec 8) (x2 : BitVec 8) (x3 : BitVec 8) (x4 : Bool) : Statement (.mulh x0 x1 x2 x3 x4) := enc0_length _ _ _
theorem mulhu (x0 : Pfx) (x1 : BitVec 8) (x2 : BitVec 8) (x3 : BitVec 8) (x4 : Bool) : Statement (.mulhu x0 x1 x2 x3 x4) := enc0_length _ _ _
theorem min (x0 : Pfx) (x1 : BitVec 8) (x2 : BitVec 8) (x3 : BitVec 8) (x4 : Bool) : Statement (.min x0 x1 x2 x3 x4) := enc0_length _ _ _
theorem minu (x0 : Pfx) (x1 : BitVec 8) (x2 : BitVec 8) (x3 : BitVec 8) (x4 : Bool) : Statement (.minu x0 x1 x2 x3 x4) := enc0_length _ _ _
theorem max (x0 : Pfx) (x1 : BitVec 8) (x2 : BitVec 8) (x3 : BitVec 8) (x4 : Bool) : Statement (.max x0 x1 x2 x3 x4) := enc0_length _ _ _
theorem maxu (x0 : Pfx) (x1 : BitVec 8) (x2 : BitVec 8) (x3 : BitVec 8) (x4 : Bool) : Statement (.maxu x0 x1 x2 x3 x4) := enc0_length _ _ _
theorem bfx (x0 : Pfx) (x1 : BitVec 8) (x2 : BitVec 8) (x3 : BitVec 8) (x4 : Bool) : Statement (.bfx x0 x1 x2 x3 x4) := enc0_length _ _ _
theorem bfi (x0 : Pfx) (x1 : BitVec 8) (x2 : BitVec 8) (x3 : BitVec 8) (x4 : Bool) : Statement (.bfi x0 x1 x2 x3 x4) := enc0_length _ _ _
theorem cmp (x0 : Pfx) (x1 : BitVec 4) (x2 : BitVec 4) (x3 : BitVec 8) (x4 : BitVec 8) (x5 : Bool) : Statement (.cmp x0 x1 x2 x3 x4 x5) := enc0_length _ _ _
theorem fcmp (x0 : Pfx) (x1 : BitVec 4) (x2 : BitVec 4) (x3 : BitVec 8) (x4 : BitVec 8) (x5 : Bool) : Statement (.fcmp x0 x1 x2 x3 x4 x5) := enc0_length _ _ _
theorem fadd (x0 : Pfx) (x1 : BitVec 8) (x2 : BitVec 8) (x3 : BitVec 8) (x4 : Bool) : Statement (.fadd x0 x1 x2 x3 x4) := enc0_length _ _ _
theorem fsub (x0 : Pfx) (x1 : BitVec 8) (x2 : BitVec 8) (x3 : BitVec 8) (x4 : Bool) : Statement (.fsub x0 x1 x2 x3 x4) := enc0_length _ _ _
theorem fmul (x0 : Pfx) (x1 : BitVec 8) (x2 : BitVec 8) (x3 : BitVec 8) (x4 : Bool) : Statement (.fmul x0 x1 x2 x3 x4) := enc0_length _ _ _
theorem ffma (x0 : Pfx) (x1 : BitVec 8) (x2 : BitVec 8) (x3 : BitVec 8) (x4 : Bool) : Statement (.ffma x0 x1 x2 x3 x4) := enc0_length _ _ _
theorem fmin (x0 : Pfx) (x1 : BitVec 8) (x2 : BitVec 8) (x3 : BitVec 8) (x4 : Bool) : Statement (.fmin x0 x1 x2 x3 x4) := enc0_length _ _ _
theorem fmax (x0 : Pfx) (x1 : BitVec 8) (x2 : BitVec 8) (x3 : BitVec 8) (x4 : Bool) : Statement (.fmax x0 x1 x2 x3 x4) := enc0_length _ _ _
theorem addImm (x0 : Pfx) (x1 : BitVec 8) (x2 : BitVec 8) (x3 : Imm) : Statement (.addImm x0 x1 x2 x3) := enc01_length _ _ _ _
theorem mulImm (x0 : Pfx) (x1 : BitVec 8) (x2 : BitVec 8) (x3 : Imm) : Statement (.mulImm x0 x1 x2 x3) := enc01_length _ _ _ _
theorem andImm (x0 : Pfx) (x1 : BitVec 8) (x2 : BitVec 8) (x3 : Imm) : Statement (.andImm x0 x1 x2 x3) := enc01_length _ _ _ _
theorem orImm (x0 : Pfx) (x1 : BitVec 8) (x2 : BitVec 8) (x3 : Imm) : Statement (.orImm x0 x1 x2 x3) := enc01_length _ _ _ _
theorem xorImm (x0 : Pfx) (x1 : BitVec 8) (x2 : BitVec 8) (x3 : Imm) : Statement (.xorImm x0 x1 x2 x3) := enc01_length _ _ _ _
theorem shlImm (x0 : Pfx) (x1 : BitVec 8) (x2 : BitVec 8) (x3 : Imm) : Statement (.shlImm x0 x1 x2 x3) := enc01_length _ _ _ _
theorem shrImm (x0 : Pfx) (x1 : BitVec 8) (x2 : BitVec 8) (x3 : Imm) : Statement (.shrImm x0 x1 x2 x3) := enc01_length _ _ _ _
theorem sraImm (x0 : Pfx) (x1 : BitVec 8) (x2 : BitVec 8) (x3 : Imm) : Statement (.sraImm x0 x1 x2 x3) := enc01_length _ _ _ _
theorem cmpImm (x0 : Pfx) (x1 : BitVec 4) (x2 : BitVec 4) (x3 : BitVec 8) (x4 : Imm) : Statement (.cmpImm x0 x1 x2 x3 x4) := enc01_length _ _ _ _
theorem rcp (x0 : Pfx) (x1 : BitVec 8) (x2 : BitVec 8) : Statement (.rcp x0 x1 x2) := enc0_length _ _ _
theorem rsq (x0 : Pfx) (x1 : BitVec 8) (x2 : BitVec 8) : Statement (.rsq x0 x1 x2) := enc0_length _ _ _
theorem sqrt (x0 : Pfx) (x1 : BitVec 8) (x2 : BitVec 8) : Statement (.sqrt x0 x1 x2) := enc0_length _ _ _
theorem exp2 (x0 : Pfx) (x1 : BitVec 8) (x2 : BitVec 8) : Statement (.exp2 x0 x1 x2) := enc0_length _ _ _
theorem log2 (x0 : Pfx) (x1 : BitVec 8) (x2 : BitVec 8) : Statement (.log2 x0 x1 x2) := enc0_length _ _ _
theorem sin (x0 : Pfx) (x1 : BitVec 8) (x2 : BitVec 8) : Statement (.sin x0 x1 x2) := enc0_length _ _ _
theorem cos (x0 : Pfx) (x1 : BitVec 8) (x2 : BitVec 8) : Statement (.cos x0 x1 x2) := enc0_length _ _ _
theorem tanh (x0 : Pfx) (x1 : BitVec 8) (x2 : BitVec 8) : Statement (.tanh x0 x1 x2) := enc0_length _ _ _
theorem fabs (x0 : Pfx) (x1 : BitVec 8) (x2 : BitVec 8) : Statement (.fabs x0 x1 x2) := enc0_length _ _ _
theorem fneg (x0 : Pfx) (x1 : BitVec 8) (x2 : BitVec 8) : Statement (.fneg x0 x1 x2) := enc0_length _ _ _
theorem fclass (x0 : Pfx) (x1 : BitVec 8) (x2 : BitVec 8) : Statement (.fclass x0 x1 x2) := enc0_length _ _ _
theorem frnd (x0 : Pfx) (x1 : BitVec 8) (x2 : BitVec 8) : Statement (.frnd x0 x1 x2) := enc0_length _ _ _
theorem fcvt (x0 : Pfx) (x1 : BitVec 8) (x2 : BitVec 8) (x3 : BitVec 4) : Statement (.fcvt x0 x1 x2 x3) := enc0_length _ _ _
theorem not (x0 : Pfx) (x1 : BitVec 8) (x2 : BitVec 8) : Statement (.not x0 x1 x2) := enc0_length _ _ _
theorem abs (x0 : Pfx) (x1 : BitVec 8) (x2 : BitVec 8) : Statement (.abs x0 x1 x2) := enc0_length _ _ _
theorem neg (x0 : Pfx) (x1 : BitVec 8) (x2 : BitVec 8) : Statement (.neg x0 x1 x2) := enc0_length _ _ _
theorem pop (x0 : Pfx) (x1 : BitVec 8) (x2 : BitVec 8) : Statement (.pop x0 x1 x2) := enc0_length _ _ _
theorem clz (x0 : Pfx) (x1 : BitVec 8) (x2 : BitVec 8) : Statement (.clz x0 x1 x2) := enc0_length _ _ _
theorem sel (x0 : Pfx) (x1 : BitVec 8) (x2 : BitVec 8) (x3 : BitVec 4) : Statement (.sel x0 x1 x2 x3) := enc0_length _ _ _
theorem mand (x0 : Pfx) (x1 : BitVec 4) (x2 : BitVec 4) (x3 : BitVec 4) : Statement (.mand x0 x1 x2 x3) := enc0_length _ _ _
theorem mor (x0 : Pfx) (x1 : BitVec 4) (x2 : BitVec 4) (x3 : BitVec 4) : Statement (.mor x0 x1 x2 x3) := enc0_length _ _ _
theorem mxor (x0 : Pfx) (x1 : BitVec 4) (x2 : BitVec 4) (x3 : BitVec 4) : Statement (.mxor x0 x1 x2 x3) := enc0_length _ _ _
theorem mnot (x0 : Pfx) (x1 : BitVec 4) (x2 : BitVec 4) : Statement (.mnot x0 x1 x2) := enc0_length _ _ _
theorem mmov (x0 : Pfx) (x1 : BitVec 4) (x2 : BitVec 4) : Statement (.mmov x0 x1 x2) := enc0_length _ _ _
theorem mpop (x0 : Pfx) (x1 : BitVec 8) (x2 : BitVec 4) : Statement (.mpop x0 x1 x2) := enc0_length _ _ _
theorem mfirst (x0 : Pfx) (x1 : BitVec 4) (x2 : BitVec 4) : Statement (.mfirst x0 x1 x2) := enc0_length _ _ _
theorem mset (x0 : Pfx) (x1 : BitVec 4) (x2 : BitVec 8) : Statement (.mset x0 x1 x2) := enc0_length _ _ _
theorem shfUp (x0 : Pfx) (x1 : BitVec 8) (x2 : BitVec 8) (x3 : BitVec 4) : Statement (.shfUp x0 x1 x2 x3) := enc0_length _ _ _
theorem shfDn (x0 : Pfx) (x1 : BitVec 8) (x2 : BitVec 8) (x3 : BitVec 4) : Statement (.shfDn x0 x1 x2 x3) := enc0_length _ _ _
theorem shfXor (x0 : Pfx) (x1 : BitVec 8) (x2 : BitVec 8) (x3 : BitVec 4) : Statement (.shfXor x0 x1 x2 x3) := enc0_length _ _ _
theorem shfRot (x0 : Pfx) (x1 : BitVec 8) (x2 : BitVec 8) (x3 : BitVec 4) : Statement (.shfRot x0 x1 x2 x3) := enc0_length _ _ _
theorem shfIdx (x0 : Pfx) (x1 : BitVec 8) (x2 : BitVec 8) : Statement (.shfIdx x0 x1 x2) := enc0_length _ _ _
theorem sct (x0 : Pfx) (x1 : BitVec 8) (x2 : BitVec 8) : Statement (.sct x0 x1 x2) := enc0_length _ _ _
theorem bcst (x0 : Pfx) (x1 : BitVec 8) (x2 : BitVec 8) : Statement (.bcst x0 x1 x2) := enc0_length _ _ _
theorem lred (x0 : Pfx) (x1 : BitVec 8) (x2 : BitVec 8) (x3 : BitVec 4) : Statement (.lred x0 x1 x2 x3) := enc0_length _ _ _
theorem scan (x0 : Pfx) (x1 : BitVec 8) (x2 : BitVec 8) (x3 : BitVec 4) : Statement (.scan x0 x1 x2 x3) := enc0_length _ _ _
theorem scanEx (x0 : Pfx) (x1 : BitVec 8) (x2 : BitVec 8) (x3 : BitVec 4) : Statement (.scanEx x0 x1 x2 x3) := enc0_length _ _ _
theorem tbl (x0 : Pfx) (x1 : BitVec 8) (x2 : BitVec 8) (x3 : BitVec 3) (x4 : BitVec 4) : Statement (.tbl x0 x1 x2 x3 x4) := enc0_length _ _ _
theorem vote (x0 : Pfx) (x1 : BitVec 8) (x2 : BitVec 8) (x3 : BitVec 4) : Statement (.vote x0 x1 x2 x3) := enc0_length _ _ _
theorem lid (x0 : Pfx) (x1 : BitVec 8) : Statement (.lid x0 x1) := enc0_length _ _ _
theorem ld (x0 : Pfx) (x1 : MemArg) : Statement (.ld x0 x1) := enc01_length _ _ _ _
theorem ldc (x0 : Pfx) (x1 : MemArg) : Statement (.ldc x0 x1) := enc01_length _ _ _ _
theorem st (x0 : Pfx) (x1 : MemArg) : Statement (.st x0 x1) := enc01_length _ _ _ _
theorem stc (x0 : Pfx) (x1 : MemArg) : Statement (.stc x0 x1) := enc01_length _ _ _ _
theorem lds (x0 : Pfx) (x1 : MemArg) : Statement (.lds x0 x1) := enc01_length _ _ _ _
theorem prf (x0 : Pfx) (x1 : MemArg) : Statement (.prf x0 x1) := enc01_length _ _ _ _
theorem sts (x0 : Pfx) (x1 : MemArg) : Statement (.sts x0 x1) := enc01_length _ _ _ _
theorem inv (x0 : Pfx) (x1 : MemArg) : Statement (.inv x0 x1) := enc01_length _ _ _ _
theorem sadd (x0 : Pfx) (x1 : BitVec 8) (x2 : BitVec 8) (x3 : BitVec 8) : Statement (.sadd x0 x1 x2 x3) := enc0_length _ _ _
theorem ssub (x0 : Pfx) (x1 : BitVec 8) (x2 : BitVec 8) (x3 : BitVec 8) : Statement (.ssub x0 x1 x2 x3) := enc0_length _ _ _
theorem smul (x0 : Pfx) (x1 : BitVec 8) (x2 : BitVec 8) (x3 : BitVec 8) : Statement (.smul x0 x1 x2 x3) := enc0_length _ _ _
theorem smulh (x0 : Pfx) (x1 : BitVec 8) (x2 : BitVec 8) (x3 : BitVec 8) : Statement (.smulh x0 x1 x2 x3) := enc0_length _ _ _
theorem sand (x0 : Pfx) (x1 : BitVec 8) (x2 : BitVec 8) (x3 : BitVec 8) : Statement (.sand x0 x1 x2 x3) := enc0_length _ _ _
theorem sor (x0 : Pfx) (x1 : BitVec 8) (x2 : BitVec 8) (x3 : BitVec 8) : Statement (.sor x0 x1 x2 x3) := enc0_length _ _ _
theorem sxor (x0 : Pfx) (x1 : BitVec 8) (x2 : BitVec 8) (x3 : BitVec 8) : Statement (.sxor x0 x1 x2 x3) := enc0_length _ _ _
theorem sshl (x0 : Pfx) (x1 : BitVec 8) (x2 : BitVec 8) (x3 : BitVec 8) : Statement (.sshl x0 x1 x2 x3) := enc0_length _ _ _
theorem sld (x0 : Pfx) (x1 : BitVec 8) (x2 : BitVec 8) (x3 : Imm) : Statement (.sld x0 x1 x2 x3) := enc01_length _ _ _ _
theorem sst (x0 : Pfx) (x1 : BitVec 8) (x2 : BitVec 8) (x3 : Imm) : Statement (.sst x0 x1 x2 x3) := enc01_length _ _ _ _
theorem sli (x0 : Pfx) (x1 : BitVec 8) (x2 : Imm) : Statement (.sli x0 x1 x2) := enc01_length _ _ _ _
theorem slui (x0 : Pfx) (x1 : BitVec 8) (x2 : Imm) : Statement (.slui x0 x1 x2) := enc01_length _ _ _ _
theorem saddImm (x0 : Pfx) (x1 : BitVec 8) (x2 : BitVec 8) (x3 : Imm) : Statement (.saddImm x0 x1 x2 x3) := enc01_length _ _ _ _
theorem sandImm (x0 : Pfx) (x1 : BitVec 8) (x2 : BitVec 8) (x3 : Imm) : Statement (.sandImm x0 x1 x2 x3) := enc01_length _ _ _ _
theorem sshlImm (x0 : Pfx) (x1 : BitVec 8) (x2 : BitVec 8) (x3 : Imm) : Statement (.sshlImm x0 x1 x2 x3) := enc01_length _ _ _ _
theorem sshrImm (x0 : Pfx) (x1 : BitVec 8) (x2 : BitVec 8) (x3 : Imm) : Statement (.sshrImm x0 x1 x2 x3) := enc01_length _ _ _ _
theorem smov (x0 : BitVec 8) (x1 : BitVec 8) : Statement (.smov x0 x1) := Nat.le_of_ble_eq_true rfl
theorem sshr (x0 : BitVec 8) (x1 : BitVec 8) : Statement (.sshr x0 x1) := Nat.le_of_ble_eq_true rfl
theorem ssra (x0 : BitVec 8) (x1 : BitVec 8) : Statement (.ssra x0 x1) := Nat.le_of_ble_eq_true rfl
theorem smin (x0 : BitVec 8) (x1 : BitVec 8) : Statement (.smin x0 x1) := Nat.le_of_ble_eq_true rfl
theorem smax (x0 : BitVec 8) (x1 : BitVec 8) : Statement (.smax x0 x1) := Nat.le_of_ble_eq_true rfl
theorem sminu (x0 : BitVec 8) (x1 : BitVec 8) : Statement (.sminu x0 x1) := Nat.le_of_ble_eq_true rfl
theorem smaxu (x0 : BitVec 8) (x1 : BitVec 8) : Statement (.smaxu x0 x1) := Nat.le_of_ble_eq_true rfl
theorem scmp (x0 : BitVec 8) (x1 : BitVec 8) (x2 : BitVec 4) : Statement (.scmp x0 x1 x2) := Nat.le_of_ble_eq_true rfl
theorem ssel (x0 : BitVec 8) (x1 : BitVec 8) (x2 : BitVec 4) : Statement (.ssel x0 x1 x2) := Nat.le_of_ble_eq_true rfl
theorem br (x0 : Pfx) (x1 : Off) : Statement (.br x0 x1) := enc01_length _ _ _ _
theorem call (x0 : Pfx) (x1 : BitVec 8) (x2 : Off) : Statement (.call x0 x1 x2) := enc01_length _ _ _ _
theorem rcv (x0 : Pfx) (x1 : Off) : Statement (.rcv x0 x1) := enc01_length _ _ _ _
theorem bl (x0 : Pfx) (x1 : BitVec 4) (x2 : Bool) (x3 : Off) : Statement (.bl x0 x1 x2 x3) := enc01_length _ _ _ _
theorem bc (x0 : Pfx) (x1 : BitVec 8) (x2 : Off) : Statement (.bc x0 x1 x2) := enc01_length _ _ _ _
theorem nop : Statement (.nop) := Nat.le_of_ble_eq_true rfl
theorem exit : Statement (.exit) := Nat.le_of_ble_eq_true rfl
theorem yield : Statement (.yield) := Nat.le_of_ble_eq_true rfl
theorem rgn : Statement (.rgn) := Nat.le_of_ble_eq_true rfl
theorem run : Statement (.run) := Nat.le_of_ble_eq_true rfl
theorem rend (x0 : BitVec 4) (x1 : BitVec 32) (x2 : BitVec 32) : Statement (.rend x0 x1 x2) := rend_length x0 x1 x2
theorem take (x0 : BitVec 4) : Statement (.take x0) := Nat.le_of_ble_eq_true rfl
theorem jmp (x0 : BitVec 8) : Statement (.jmp x0) := Nat.le_of_ble_eq_true rfl
theorem ret (x0 : BitVec 8) : Statement (.ret x0) := Nat.le_of_ble_eq_true rfl
theorem brk (x0 : BitVec 8) (x1 : BitVec 4) : Statement (.brk x0 x1) := Nat.le_of_ble_eq_true rfl
theorem acq (x0 : Pfx) (x1 : BitVec 8) : Statement (.acq x0 x1) := enc0_length _ _ _
theorem rel (x0 : Pfx) (x1 : BitVec 8) : Statement (.rel x0 x1) := enc0_length _ _ _
theorem fence (x0 : BitVec 4) : Statement (.fence x0) := Nat.le_of_ble_eq_true rfl
theorem bar : Statement (.bar) := Nat.le_of_ble_eq_true rfl
theorem cbar : Statement (.cbar) := Nat.le_of_ble_eq_true rfl
theorem tlw (x0 : BitVec 8) (x1 : BitVec 4) : Statement (.tlw x0 x1) := Nat.le_of_ble_eq_true rfl
theorem tlr (x0 : BitVec 8) (x1 : BitVec 4) : Statement (.tlr x0 x1) := Nat.le_of_ble_eq_true rfl
theorem wait (x0 : BitVec 4) (x1 : BitVec 4) (x2 : BitVec 4) (x3 : BitVec 4) (x4 : BitVec 4) : Statement (.wait x0 x1 x2 x3 x4) := Nat.le_of_ble_eq_true rfl
theorem rop (x0 : Pfx) (x1 : BitVec 8) (x2 : BitVec 8) (x3 : BitVec 6) (x4 : BitVec 3) : Statement (.rop x0 x1 x2 x3 x4) := enc0_length _ _ _
theorem ropr (x0 : Pfx) (x1 : BitVec 8) (x2 : BitVec 8) (x3 : BitVec 6) (x4 : BitVec 3) : Statement (.ropr x0 x1 x2 x3 x4) := enc0_length _ _ _
theorem ropw (x0 : Pfx) (x1 : BitVec 8) (x2 : BitVec 8) (x3 : BitVec 6) (x4 : BitVec 3) : Statement (.ropw x0 x1 x2 x3 x4) := enc0_length _ _ _
theorem rdef (x0 : BitVec 8) (x1 : BitVec 8) : Statement (.rdef x0 x1) := Nat.le_of_ble_eq_true rfl
theorem rdel (x0 : BitVec 8) : Statement (.rdel x0) := Nat.le_of_ble_eq_true rfl
theorem rstat (x0 : BitVec 8) (x1 : BitVec 8) : Statement (.rstat x0 x1) := Nat.le_of_ble_eq_true rfl
theorem rstatStat (x0 : BitVec 8) : Statement (.rstatStat x0) := Nat.le_of_ble_eq_true rfl
theorem board (x0 : BitVec 8) (x1 : BitVec 8) : Statement (.board x0 x1) := Nat.le_of_ble_eq_true rfl
theorem alight (x0 : BitVec 8) (x1 : BitVec 8) : Statement (.alight x0 x1) := Nat.le_of_ble_eq_true rfl
theorem rwr (x0 : BitVec 8) (x1 : BitVec 8) (x2 : BitVec 4) : Statement (.rwr x0 x1 x2) := Nat.le_of_ble_eq_true rfl
theorem rwrR (x0 : BitVec 8) (x1 : BitVec 8) (x2 : BitVec 4) : Statement (.rwrR x0 x1 x2) := Nat.le_of_ble_eq_true rfl
theorem mstone (x0 : BitVec 8) : Statement (.mstone x0) := Nat.le_of_ble_eq_true rfl
theorem mld (x0 : Pfx) (x1 : Bool) (x2 : BitVec 4) (x3 : BitVec 3) (x4 : BitVec 5) : Statement (.mld x0 x1 x2 x3 x4) := enc0_length _ _ _
theorem mswp (x0 : Pfx) : Statement (.mswp x0) := enc0_length _ _ _
theorem mmul (x0 : Pfx) (x1 : BitVec 6) (x2 : Bool) (x3 : BitVec 4) (x4 : BitVec 3) (x5 : BitVec 5) : Statement (.mmul x0 x1 x2 x3 x4 x5) := enc0_length _ _ _
theorem mzero (x0 : Pfx) (x1 : BitVec 6) : Statement (.mzero x0 x1) := enc0_length _ _ _
theorem mdrain (x0 : Pfx) (x1 : BitVec 6) (x2 : Bool) (x3 : BitVec 3) (x4 : BitVec 4) (x5 : BitVec 5) : Statement (.mdrain x0 x1 x2 x3 x4 x5) := enc0_length _ _ _
theorem mrsum (x0 : Pfx) (x1 : BitVec 6) (x2 : BitVec 4) (x3 : BitVec 3) (x4 : BitVec 5) : Statement (.mrsum x0 x1 x2 x3 x4) := enc0_length _ _ _
theorem msave (x0 : Pfx) (x1 : BitVec 2) (x2 : BitVec 6) (x3 : BitVec 8) : Statement (.msave x0 x1 x2 x3) := enc0_length _ _ _
theorem mrest (x0 : Pfx) (x1 : BitVec 2) (x2 : BitVec 6) (x3 : BitVec 8) : Statement (.mrest x0 x1 x2 x3) := enc0_length _ _ _
theorem mstat (x0 : Pfx) (x1 : BitVec 8) : Statement (.mstat x0 x1) := enc0_length _ _ _
theorem skd (x0 : Pfx) (x1 : BitVec 8) (x2 : BitVec 8) (x3 : Bool) (x4 : Bool) : Statement (.skd x0 x1 x2 x3 x4) := enc0_length _ _ _
theorem skh (x0 : Pfx) (x1 : BitVec 8) (x2 : BitVec 8) (x3 : Bool) (x4 : Bool) : Statement (.skh x0 x1 x2 x3 x4) := enc0_length _ _ _
theorem skq (x0 : Pfx) (x1 : BitVec 8) (x2 : BitVec 8) (x3 : Bool) : Statement (.skq x0 x1 x2 x3) := enc0_length _ _ _
theorem skm (x0 : Pfx) (x1 : BitVec 8) (x2 : BitVec 8) (x3 : BitVec 2) (x4 : Bool) : Statement (.skm x0 x1 x2 x3 x4) := enc0_length _ _ _
theorem skqv (x0 : Pfx) (x1 : BitVec 8) (x2 : BitVec 8) (x3 : Bool) : Statement (.skqv x0 x1 x2 x3) := enc0_length _ _ _
theorem skest (x0 : Pfx) (x1 : BitVec 8) (x2 : BitVec 8) (x3 : Bool) : Statement (.skest x0 x1 x2 x3) := enc0_length _ _ _
theorem sktop (x0 : Pfx) (x1 : BitVec 8) (x2 : BitVec 8) (x3 : Bool) : Statement (.sktop x0 x1 x2 x3) := enc0_length _ _ _
theorem sksd (x0 : Pfx) (x1 : BitVec 8) (x2 : BitVec 8) (x3 : BitVec 2) (x4 : Bool) : Statement (.sksd x0 x1 x2 x3 x4) := enc0_length _ _ _
theorem xadd (x0 : Pfx) (x1 : BitVec 8) (x2 : BitVec 8) (x3 : Bool) (x4 : Bool) : Statement (.xadd x0 x1 x2 x3 x4) := enc0_length _ _ _
theorem xrnd (x0 : Pfx) (x1 : BitVec 8) (x2 : BitVec 8) (x3 : Bool) (x4 : Bool) : Statement (.xrnd x0 x1 x2 x3 x4) := enc0_length _ _ _
theorem xclr (x0 : Pfx) (x1 : BitVec 8) (x2 : Bool) (x3 : Bool) : Statement (.xclr x0 x1 x2 x3) := enc0_length _ _ _
theorem xcp (x0 : Pfx) (x1 : BitVec 4) (x2 : BitVec 4) : Statement (.xcp x0 x1 x2) := enc0_length _ _ _
theorem xcpFill (x0 : Pfx) (x1 : BitVec 4) (x2 : BitVec 8) : Statement (.xcpFill x0 x1 x2) := enc0_length _ _ _
theorem bat (x0 : Pfx) (x1 : BitVec 8) : Statement (.bat x0 x1) := enc0_length _ _ _
theorem wbat (x0 : BitVec 8) : Statement (.wbat x0) := Nat.le_of_ble_eq_true rfl
theorem push (x0 : BitVec 8) (x1 : BitVec 8) (x2 : BitVec 4) : Statement (.push x0 x1 x2) := Nat.le_of_ble_eq_true rfl
theorem dld (x0 : Pfx) (x1 : BitVec 4) (x2 : BitVec 8) (x3 : BitVec 4) : Statement (.dld x0 x1 x2 x3) := enc0_length _ _ _
theorem fmt (x0 : Pfx) (x1 : BitVec 3) (x2 : BitVec 8) (x3 : BitVec 4) : Statement (.fmt x0 x1 x2 x3) := enc0_length _ _ _
theorem emit (x0 : BitVec 8) : Statement (.emit x0) := Nat.le_of_ble_eq_true rfl
theorem emitx (x0 : BitVec 8) (x1 : BitVec 8) (x2 : BitVec 4) : Statement (.emitx x0 x1 x2) := Nat.le_of_ble_eq_true rfl
theorem ecl (x0 : BitVec 8) (x1 : BitVec 2) : Statement (.ecl x0 x1) := Nat.le_of_ble_eq_true rfl
theorem ecln (x0 : BitVec 8) (x1 : BitVec 8) (x2 : BitVec 2) : Statement (.ecln x0 x1 x2) := Nat.le_of_ble_eq_true rfl
theorem eqfree (x0 : BitVec 8) (x1 : BitVec 2) : Statement (.eqfree x0 x1) := Nat.le_of_ble_eq_true rfl
theorem csrr (x0 : BitVec 8) (x1 : BitVec 8) (x2 : BitVec 4) : Statement (.csrr x0 x1 x2) := Nat.le_of_ble_eq_true rfl
theorem csrw (x0 : BitVec 8) (x1 : BitVec 8) (x2 : BitVec 4) : Statement (.csrw x0 x1 x2) := Nat.le_of_ble_eq_true rfl
theorem tret : Statement (.tret) := Nat.le_of_ble_eq_true rfl
theorem prio (x0 : BitVec 4) : Statement (.prio x0) := Nat.le_of_ble_eq_true rfl
theorem hint (x0 : BitVec 4) : Statement (.hint x0) := Nat.le_of_ble_eq_true rfl
theorem coldReset (x0 : BringUp) : Statement (.coldReset x0) := Nat.zero_le 6
theorem warmReset (x0 : BringUp) : Statement (.warmReset x0) := Nat.zero_le 6
theorem functionLevelReset (x0 : Nat) : Statement (.functionLevelReset x0) := Nat.zero_le 6
theorem thermalTripHold : Statement (.thermalTripHold) := Nat.zero_le 6
theorem thermtrip (x0 : Bool) (x1 : BringUp) : Statement (.thermtrip x0 x1) := Nat.zero_le 6
theorem clockLevelStep (x0 : Nat) (x1 : Nat) (x2 : Bool) (x3 : Bool) : Statement (.clockLevelStep x0 x1 x2 x3) := Nat.zero_le 6
theorem powerWindowEnd (x0 : List (Nat × Nat)) (x1 : Bool) : Statement (.powerWindowEnd x0 x1) := Nat.zero_le 6
theorem bandwidthWindow : Statement (.bandwidthWindow) := Nat.zero_le 6
theorem pcieConfigRequest : Statement (.pcieConfigRequest) := Nat.zero_le 6
theorem registerWrite (x0 : Nat) (x1 : Nat) (x2 : BitVec 64) : Statement (.registerWrite x0 x1 x2) := Nat.zero_le 6
theorem bar4Read (x0 : Nat) (x1 : Nat) (x2 : Nat) : Statement (.bar4Read x0 x1 x2) := Nat.zero_le 6
theorem bar4Write (x0 : Nat) (x1 : Nat) (x2 : List (BitVec 8)) : Statement (.bar4Write x0 x1 x2) := Nat.zero_le 6
theorem queueRegisterWrite (x0 : Nat) (x1 : Nat) (x2 : Nat) (x3 : BitVec 64) : Statement (.queueRegisterWrite x0 x1 x2 x3) := Nat.zero_le 6
theorem doorbell (x0 : Nat) (x1 : Nat) (x2 : Nat) (x3 : BitVec 64) : Statement (.doorbell x0 x1 x2 x3) := Nat.zero_le 6
theorem chpwrWrite (x0 : BitVec 64) : Statement (.chpwrWrite x0) := Nat.zero_le 6
theorem linkEnable (x0 : Nat) (x1 : Bool) : Statement (.linkEnable x0 x1) := Nat.zero_le 6
theorem ctxCreate (x0 : Nat) : Statement (.ctxCreate x0) := Nat.zero_le 6
theorem ctxCreateResume (x0 : Nat) : Statement (.ctxCreateResume x0) := Nat.zero_le 6
theorem ctxRetire (x0 : Nat) : Statement (.ctxRetire x0) := Nat.zero_le 6
theorem queueBind (x0 : Nat) : Statement (.queueBind x0) := Nat.zero_le 6
theorem vfConfig (x0 : Nat) : Statement (.vfConfig x0) := Nat.zero_le 6
theorem attest (x0 : Nat) : Statement (.attest x0) := Nat.zero_le 6
theorem certRead (x0 : Nat) : Statement (.certRead x0) := Nat.zero_le 6
theorem preempt (x0 : Nat) : Statement (.preempt x0) := Nat.zero_le 6
theorem resume (x0 : Nat) : Statement (.resume x0) := Nat.zero_le 6
theorem ringEvict (x0 : Nat) : Statement (.ringEvict x0) := Nat.zero_le 6
theorem drain (x0 : Nat) : Statement (.drain x0) := Nat.zero_le 6
theorem confirm (x0 : Nat) : Statement (.confirm x0) := Nat.zero_le 6
theorem migrate (x0 : Nat) : Statement (.migrate x0) := Nat.zero_le 6
theorem exportsRequest (x0 : Nat) : Statement (.exportsRequest x0) := Nat.zero_le 6
theorem translationRequestDone (x0 : Nat) : Statement (.translationRequestDone x0) := Nat.zero_le 6
theorem linkTraining (x0 : Nat) (x1 : BitVec 6) (x2 : Bool) : Statement (.linkTraining x0 x1 x2) := Nat.zero_le 6
theorem linkFailure (x0 : Nat) : Statement (.linkFailure x0) := Nat.zero_le 6
theorem frameDiscard (x0 : Nat) : Statement (.frameDiscard x0) := Nat.zero_le 6
theorem replayRequest (x0 : Nat) (x1 : Nat) : Statement (.replayRequest x0 x1) := Nat.zero_le 6
theorem rekey (x0 : Nat) : Statement (.rekey x0) := Nat.zero_le 6
theorem heartbeatTimer (x0 : Nat) : Statement (.heartbeatTimer x0) := Nat.zero_le 6
theorem readRequest (x0 : Msg) : Statement (.readRequest x0) := Nat.zero_le 6
theorem writeRequest (x0 : Msg) : Statement (.writeRequest x0) := Nat.zero_le 6
theorem readResponse (x0 : Msg) : Statement (.readResponse x0) := Nat.zero_le 6
theorem writeAcknowledgement (x0 : Msg) : Statement (.writeAcknowledgement x0) := Nat.zero_le 6
theorem remoteOpNoReturn (x0 : Msg) : Statement (.remoteOpNoReturn x0) := Nat.zero_le 6
theorem remoteOpWithReturn (x0 : Msg) : Statement (.remoteOpWithReturn x0) := Nat.zero_le 6
theorem remoteOpResponse (x0 : Msg) : Statement (.remoteOpResponse x0) := Nat.zero_le 6
theorem collectiveChunk (x0 : Msg) : Statement (.collectiveChunk x0) := Nat.zero_le 6
theorem collectiveCredit (x0 : Msg) : Statement (.collectiveCredit x0) := Nat.zero_le 6
theorem translationDrain (x0 : Msg) : Statement (.translationDrain x0) := Nat.zero_le 6
theorem translationConfirm (x0 : Msg) : Statement (.translationConfirm x0) := Nat.zero_le 6
theorem peerConfirmComplete (x0 : Nat) : Statement (.peerConfirmComplete x0) := Nat.zero_le 6
theorem translationAcknowledgement (x0 : Msg) : Statement (.translationAcknowledgement x0) := Nat.zero_le 6
theorem resetNotice (x0 : Msg) : Statement (.resetNotice x0) := Nat.zero_le 6
theorem powerDownNotice (x0 : Msg) : Statement (.powerDownNotice x0) := Nat.zero_le 6
theorem heartbeat (x0 : Msg) : Statement (.heartbeat x0) := Nat.zero_le 6
theorem peerLossTimeout (x0 : Nat) : Statement (.peerLossTimeout x0) := Nat.zero_le 6
theorem launchRecord (x0 : Nat) (x1 : Nat) : Statement (.launchRecord x0 x1) := Nat.zero_le 6
theorem takeLease (x0 : Nat) : Statement (.takeLease x0) := Nat.zero_le 6
theorem slotAssignment (x0 : Nat) : Statement (.slotAssignment x0) := Nat.zero_le 6
theorem clusterPlacement (x0 : Nat) : Statement (.clusterPlacement x0) := Nat.zero_le 6
theorem oldestClusterHold : Statement (.oldestClusterHold) := Nat.zero_le 6
theorem poolZeroing (x0 : Nat) : Statement (.poolZeroing x0) := Nat.zero_le 6
theorem dispatch (x0 : Nat) : Statement (.dispatch x0) := Nat.zero_le 6
theorem parallelPreemption (x0 : Nat) : Statement (.parallelPreemption x0) := Nat.zero_le 6
theorem cooperativeSave (x0 : Nat) (x1 : Nat) : Statement (.cooperativeSave x0 x1) := Nat.zero_le 6
theorem forcedSave (x0 : Nat) (x1 : Nat) : Statement (.forcedSave x0 x1) := Nat.zero_le 6
theorem gridCompletion (x0 : Nat) : Statement (.gridCompletion x0) := Nat.zero_le 6
theorem sealRecord (x0 : Nat) : Statement (.sealRecord x0) := Nat.zero_le 6
theorem watchdog (x0 : Nat) (x1 : Nat) : Statement (.watchdog x0 x1) := Nat.zero_le 6
theorem waitingEntryActivation (x0 : Nat) (x1 : Nat) (x2 : Nat) : Statement (.waitingEntryActivation x0 x1 x2) := Nat.zero_le 6
theorem serialStep (x0 : Nat) (x1 : Nat) (x2 : Nat) : Statement (.serialStep x0 x1 x2) := Nat.zero_le 6
theorem homeAccess (x0 : Nat) : Statement (.homeAccess x0) := Nat.zero_le 6
theorem mergingFillReturn (x0 : Nat) : Statement (.mergingFillReturn x0) := Nat.zero_le 6
theorem loadCompletion (x0 : Nat) : Statement (.loadCompletion x0) := Nat.zero_le 6
theorem storePerformed (x0 : Nat) : Statement (.storePerformed x0) := Nat.zero_le 6
theorem tileOpCompletion (x0 : Nat) : Statement (.tileOpCompletion x0) := Nat.zero_le 6
theorem migrating (x0 : Nat) (x1 : Nat) : Statement (.migrating x0 x1) := Nat.zero_le 6
theorem replay (x0 : Nat) (x1 : Nat) : Statement (.replay x0 x1) := Nat.zero_le 6
theorem softError (x0 : Nat) (x1 : Nat) : Statement (.softError x0 x1) := Nat.zero_le 6
theorem memUncorrectable (x0 : Nat) : Statement (.memUncorrectable x0) := Nat.zero_le 6
theorem taskEnd (x0 : Nat) (x1 : TaskEnd) : Statement (.taskEnd x0 x1) := Nat.zero_le 6
theorem remoteOpApply (x0 : Nat) (x1 : Nat) (x2 : Nat) : Statement (.remoteOpApply x0 x1 x2) := Nat.zero_le 6
theorem ropStatusReturn (x0 : Nat) (x1 : Nat) : Statement (.ropStatusReturn x0 x1) := Nat.zero_le 6
theorem combiningAgeOut (x0 : Nat) : Statement (.combiningAgeOut x0) := Nat.zero_le 6
theorem lockLapse (x0 : Nat) : Statement (.lockLapse x0) := Nat.zero_le 6
theorem cuuWatchdog (x0 : Nat) : Statement (.cuuWatchdog x0) := Nat.zero_le 6
theorem idleTimer (x0 : Nat) : Statement (.idleTimer x0) := Nat.zero_le 6
theorem channelPowerEntry (x0 : Nat) : Statement (.channelPowerEntry x0) := Nat.zero_le 6
theorem channelWake (x0 : Nat) : Statement (.channelWake x0) := Nat.zero_le 6
theorem slotPass (x0 : Nat) : Statement (.slotPass x0) := Nat.zero_le 6
theorem junctionPass (x0 : Nat) : Statement (.junctionPass x0) := Nat.zero_le 6
theorem notag (x0 : Nat) (x1 : Nat) : Statement (.notag x0 x1) := Nat.zero_le 6
theorem copy (x0 : Nat) : Statement (.copy x0) := Nat.zero_le 6
theorem fill (x0 : Nat) : Statement (.fill x0) := Nat.zero_le 6
theorem chunkEnd (x0 : Nat) : Statement (.chunkEnd x0) := Nat.zero_le 6
theorem gload (x0 : Nat) : Statement (.gload x0) := Nat.zero_le 6
theorem grun (x0 : Nat) : Statement (.grun x0) := Nat.zero_le 6
theorem nodeCompletion (x0 : Nat) (x1 : Nat) : Statement (.nodeCompletion x0 x1) := Nat.zero_le 6
theorem acquireGrant (x0 : Nat) : Statement (.acquireGrant x0) := Nat.zero_le 6
theorem releaseAcknowledged (x0 : Nat) : Statement (.releaseAcknowledged x0) := Nat.zero_le 6
theorem barrierCompletion (x0 : Nat) (x1 : Bool) : Statement (.barrierCompletion x0 x1) := Nat.zero_le 6
theorem timelineReached (x0 : Nat) (x1 : Nat) (x2 : Nat) : Statement (.timelineReached x0 x1 x2) := Nat.zero_le 6
theorem batchComplete (x0 : Nat) (x1 : Nat) (x2 : Nat) : Statement (.batchComplete x0 x1 x2) := Nat.zero_le 6
theorem counterWaitEnd (x0 : Nat) (x1 : Nat) (x2 : Nat) : Statement (.counterWaitEnd x0 x1 x2) := Nat.zero_le 6
theorem takeWake (x0 : Nat) (x1 : Nat) (x2 : Nat) : Statement (.takeWake x0 x1 x2) := Nat.zero_le 6
theorem eclStallEnd (x0 : Nat) : Statement (.eclStallEnd x0) := Nat.zero_le 6
theorem unassignedEncoding (x0 : BadWord) : Statement (.unassignedEncoding x0) := Nat.zero_le 6
theorem forcedSaveReplay (x0 : Nat) (x1 : Nat) : Statement (.forcedSaveReplay x0 x1) := Nat.zero_le 6
theorem rdefCompletion (x0 : Nat) : Statement (.rdefCompletion x0) := Nat.zero_le 6
theorem retirementSweepEnd (x0 : Nat) : Statement (.retirementSweepEnd x0) := Nat.zero_le 6
theorem recordReadReturn (x0 : Nat) : Statement (.recordReadReturn x0) := Nat.zero_le 6

end Sys2Proof.Laws.Fits

open Sys2Proof

theorem Sys2Proof.Laws.Fits.catch (x0 : BitVec 8) (x1 : BitVec 8) : Sys2Proof.Laws.Fits.Statement (.catch x0 x1) :=
  Nat.le_of_ble_eq_true rfl
theorem Sys2Proof.Laws.Fits.seal (x0 : Nat) : Sys2Proof.Laws.Fits.Statement (.seal x0) :=
  Nat.zero_le 6
end

