-- ==== Sys2Proof/Tests/Slice0.lean ====
section
/-!
SUPPORT. Tests: well-formedness, decoding of words written out from the encoding tables, results of single steps whose values come
from the spec's rules and examples, and witnesses for the hypotheses of the statements.
-/

set_option maxRecDepth 100000
set_option exponentiation.threshold 600

namespace Sys2Proof.Tests
open Sys2Proof Sys2Proof.Machine

/-! ### Well-formedness: what each check refuses (R321, R322, R327, R348, R349, R361) -/

theorem test_wf_accepts_plain_add : (Instr.add Pfx.none 1 2 3 false).wf = true := by decide
theorem test_wf_mask_on_uniform : (Instr.sadd ⟨true, 3, 0, 0⟩ 1 2 3).wf = false := by decide
theorem test_wf_type_on_integer : (Instr.add ⟨true, 0, 1, 0⟩ 1 2 3 false).wf = false := by decide
theorem test_wf_reserved_type : (Instr.fadd ⟨true, 0, 3, 0⟩ 1 2 3 false).wf = false := by decide
theorem test_wf_rounding_on_fmin : (Instr.fmin ⟨true, 0, 0, 1⟩ 1 2 3 false).wf = false := by decide
theorem test_wf_variant_needs_prefix : (Instr.sra Pfx.none 1 2 3 false).wf = false := by decide
theorem test_wf_fields_need_prefix : (Instr.add ⟨false, 1, 0, 0⟩ 1 2 3 false).wf = false := by decide
theorem test_wf_cmp_code : (Instr.cmp Pfx.none 10 1 2 3 false).wf = false := by decide
theorem test_wf_fcmp_code : (Instr.fcmp ⟨true, 0, 0, 0⟩ 8 1 2 3 false).wf = false := by decide
theorem test_wf_cmp_imm_code : (Instr.cmpImm Pfx.none 11 1 2 (.short 0)).wf = false := by decide
theorem test_wf_scmp_code : (Instr.scmp 1 2 10).wf = false := by decide
theorem test_wf_fcvt_code : (Instr.fcvt Pfx.none 1 2 14).wf = false := by decide
theorem test_wf_fcvt_rounding : (Instr.fcvt ⟨true, 0, 0, 1⟩ 1 2 0).wf = false := by decide
theorem test_wf_lred_code : (Instr.lred Pfx.none 1 2 11).wf = false := by decide
theorem test_wf_lred_type : (Instr.lred ⟨true, 0, 1, 0⟩ 1 2 0).wf = false := by decide
theorem test_wf_tbl_range : (Instr.tbl Pfx.none 1 247 1 0).wf = false := by decide
theorem test_wf_vote_code : (Instr.vote Pfx.none 1 2 3).wf = false := by decide
theorem test_wf_odd_doubleword : (Instr.ld Pfx.none ⟨3, 0, 0, 3, false, false, none⟩).wf = false := by decide
theorem test_wf_prf_destination : (Instr.prf ⟨true, 0, 0, 0⟩ ⟨1, 0, 0, 2, false, false, none⟩).wf = false := by decide
theorem test_wf_call_link : (Instr.call Pfx.none 0 (.short 4)).wf = false := by decide
theorem test_wf_rend_count : (Instr.rend 0 1 0).wf = false := by decide
theorem test_wf_take_queue : (Instr.take 4).wf = false := by decide
theorem test_wf_fence_scope : (Instr.fence 5).wf = false := by decide
theorem test_wf_rop_odd_pair : (Instr.rop Pfx.none 1 3 0 0).wf = false := by decide
theorem test_wf_board_range : (Instr.board 249 1).wf = false := by decide
theorem test_wf_rwr_code : (Instr.rwr 1 2 10).wf = false := by decide
theorem test_wf_mdrain_code : (Instr.mdrain Pfx.none 0 false 6 0 0).wf = false := by decide
theorem test_wf_msave_object : (Instr.msave Pfx.none 3 0 1).wf = false := by decide
theorem test_wf_skm_kind : (Instr.skm Pfx.none 1 2 3 false).wf = false := by decide
theorem test_wf_sktop_range : (Instr.sktop Pfx.none 246 2 false).wf = false := by decide
theorem test_wf_push_range : (Instr.push 1 241 0).wf = false := by decide
theorem test_wf_emitx_code : (Instr.emitx 1 2 9).wf = false := by decide
theorem test_wf_hint_code : (Instr.hint 3).wf = false := by decide

/-! ### Decoding: words written out field by field from the tables of R318-R328 and R347-R360 -/

/-- The decoding of one 32-bit word. -/
def dec (w : BitVec 32) : Decoded := decodeHalves (halves32 w)

theorem test_decode_short_sra : decodeHalves [3#5 ++ 7#6 ++ 9#4 ++ 0#1] = .ok (.sra16 Pfx.none 7 3) 1 := by decide
theorem test_decode_l3 : dec (1#1 ++ 3#8 ++ 2#8 ++ 1#8 ++ 0x0D#6 ++ 1#1) = .ok (.fadd Pfx.none 1 2 3 true) 2 := by decide
theorem test_decode_li : dec (0x1FF#9 ++ 2#8 ++ 1#8 ++ 0x10#6 ++ 1#1) = .ok (.addImm Pfx.none 1 2 (.short 0x1FF)) 2 := by decide
theorem test_decode_cmp : dec (0#1 ++ 3#8 ++ 2#8 ++ 6#4 ++ 5#4 ++ 0x0C#6 ++ 1#1) = .ok (.cmp Pfx.none 6 5 2 3 false) 2 := by decide
theorem test_decode_variant :
    decodeHalves (halves32 (0#13 ++ 1#1 ++ 2#2 ++ 1#3 ++ 4#4 ++ 0#2 ++ 0x3E#6 ++ 1#1) ++
      halves32 (0#1 ++ 3#8 ++ 2#8 ++ 1#8 ++ 0x0E#6 ++ 1#1)) = .ok (.ffma ⟨true, 4, 1, 2⟩ 1 2 3 false) 4 := by decide
theorem test_decode_lx : dec (9#4 ++ 0#5 ++ 2#8 ++ 1#8 ++ 0x1B#6 ++ 1#1) = .ok (.shfUp Pfx.none 1 2 9) 2 := by decide
theorem test_decode_sfu : dec (0#4 ++ 5#5 ++ 2#8 ++ 1#8 ++ 0x18#6 ++ 1#1) = .ok (.sin Pfx.none 1 2) 2 := by decide
theorem test_decode_mask : dec (3#4 ++ 2#5 ++ 0#4 ++ 2#4 ++ 0#4 ++ 1#4 ++ 0x1A#6 ++ 1#1) = .ok (.mxor Pfx.none 1 2 3) 2 := by decide
theorem test_decode_memory :
    dec (1#1 ++ 1#1 ++ 3#2 ++ 5#5 ++ 4#8 ++ 8#8 ++ 0x1D#6 ++ 1#1) = .ok (.st Pfx.none ⟨8, 4, 5, 3, true, true, none⟩) 2 := by decide
theorem test_decode_ui : dec (0x155#9 ++ 0#8 ++ 7#8 ++ 0x25#6 ++ 1#1) = .ok (.sli Pfx.none 7 (.short 0x155)) 2 := by decide
theorem test_decode_uniform_s : dec (4#4 ++ 7#5 ++ 2#8 ++ 1#8 ++ 0x2B#6 ++ 1#1) = .ok (.scmp 1 2 4) 2 := by decide
theorem test_decode_call : dec (2#17 ++ 31#8 ++ 0x28#6 ++ 1#1) = .ok (.call Pfx.none 31 (.short 2)) 2 := by decide
theorem test_decode_lane_branch : dec (2#17 ++ 0#3 ++ 1#1 ++ 6#4 ++ 0x29#6 ++ 1#1) = .ok (.bl Pfx.none 6 true (.short 2)) 2 := by
  decide
theorem test_decode_brk : dec (2#4 ++ 9#5 ++ 0x34#8 ++ 0#8 ++ 0x2A#6 ++ 1#1) = .ok (.brk 0x34 2) 2 := by decide
theorem test_decode_rend :
    decodeHalves (halves32 (2#4 ++ 5#5 ++ 0#8 ++ 0#8 ++ 0x2A#6 ++ 1#1) ++ halves32 0xFFFF0504#32) =
      .ok (.rend 2 0xFFFF0504 0) 4 := by decide
theorem test_decode_acq : dec (0#4 ++ 0#5 ++ 4#8 ++ 0#8 ++ 0x2C#6 ++ 1#1) = .ok (.acq Pfx.none 4) 2 := by decide
theorem test_decode_wait : dec (5#4 ++ 0#5 ++ 4#4 ++ 3#4 ++ 2#4 ++ 1#4 ++ 0x2D#6 ++ 1#1) = .ok (.wait 1 2 3 4 5) 2 := by decide
theorem test_decode_rop :
    dec (2#3 ++ 1#1 ++ 4#5 ++ 2#8 ++ 1#8 ++ 0x31#6 ++ 1#1) = .ok (.ropr Pfx.none 1 2 36 2) 2 := by decide
/-- The two words that R448 gives. -/
theorem test_decode_tideway : dec 0x01828467 = .ok (.board 8 5) 2 ∧ dec 0x02828867 = .ok (.catch 16 5) 2 := by decide
theorem test_decode_summary : dec (0#4 ++ 5#5 ++ 2#8 ++ 1#8 ++ 0x38#6 ++ 1#1) = .ok (.skest Pfx.none 1 2 false) 2 := by decide
theorem test_decode_exact : dec (0#4 ++ 2#5 ++ 2#8 ++ 0#8 ++ 0x39#6 ++ 1#1) = .ok (.xclr Pfx.none 2 false false) 2 := by decide
theorem test_decode_wbat : dec (0#4 ++ 2#5 ++ 6#8 ++ 0#8 ++ 0x3B#6 ++ 1#1) = .ok (.wbat 6) 2 := by decide
theorem test_decode_matrix : dec (0#4 ++ 1#5 ++ 0#8 ++ 0#8 ++ 0x34#6 ++ 1#1) = .ok (.mswp Pfx.none) 2 := by decide
theorem test_decode_pilot : dec (0#4 ++ 0#5 ++ 3#8 ++ 0#8 ++ 0x3C#6 ++ 1#1) = .ok (.emit 3) 2 := by decide
theorem test_decode_csrw : dec (0#4 ++ 1#5 ++ 8#8 ++ 5#8 ++ 0x3D#6 ++ 1#1) = .ok (.csrw 5 8 0) 2 := by decide
theorem test_decode_reserved_bit : dec (1#4 ++ 0#5 ++ 2#8 ++ 1#8 ++ 0x18#6 ++ 1#1) = .bad .reserved := by decide
theorem test_decode_unassigned_major : dec (0#25 ++ 0x2E#6 ++ 1#1) = .bad .unassigned := by decide
theorem test_decode_two_prefixes_of_a_kind :
    decodeHalves (halves32 (0#23 ++ 1#2 ++ 0x3E#6 ++ 1#1) ++ halves32 (0#23 ++ 1#2 ++ 0x3E#6 ++ 1#1) ++ [0, 0]) =
      .bad .badPrefix := by decide
theorem test_decode_truncated : decodeHalves [0x0055#16] = .truncated := by decide

/-! ### Single steps: one instruction at 0x10000 of a loaded group, pilot or handler; expected values by hand from the rules -/

/-- The state in which a party of the loaded team is about to execute: the unit that can execute the word `w`. -/
def about (w : Nat) : State :=
  let s := State.reset.withFetchWord 32 w
  { s with cur := s.ev.issue.head?.map fun q => { p := q.1, at_ := 0x10000, next := 0x10004, words := 1, port := 0 },
           ev := { s.ev with issue := [] } }

/-- Group 0, the pilot and the handler slot of the loaded team. -/
def lane : State := about 0x55
def pilot : State := about 0x79
def hand : State := about 0x0100007B

/-- `lane` with other registers. -/
def laneWith (f : Grp → Grp) : State := lane.updGrp 1 0 f

/-- A fact about the state that `exec` answers. -/
def after (i : Instr) (s : State) (p : State → Bool) : Bool :=
  match exec i s with
  | .next t => p t
  | _ => false

/-- Group 0 with two lanes of v1 and v2 set. -/
def two (x0 x1 y0 y1 : Lane) : State := laneWith fun g => (((g.vset 1 0 x0).vset 1 1 x1).vset 2 0 y0).vset 2 1 y1

/-- Lane `l` of v3 after `i`. -/
def v3 (i : Instr) (s : State) (l : Nat) (v : Lane) : Bool := after i s fun t => (t.grp 1 0).vget 3 l == v

theorem test_step_runs_the_word :
    (match step (State.reset.withFetchWord 32 (0x2A * 2 + 1 + 3 * 2 ^ 23)) with
     | .next t => (t.grp 1 0).rgnPc == 0x10000 && ((t.grp 1 0).entry 0).pc == 0x10004
     | _ => false) = true := by decide

theorem test_add_wraps : v3 (.add Pfx.none 3 1 2 false) (two 0xFFFFFFFF 5 1 6) 0 0 = true := by decide
theorem test_sub_order : v3 (.sub Pfx.none 3 1 2 false) (two 0 5 1 6) 1 0xFFFFFFFF = true := by decide
theorem test_sra_sign : v3 (.sra ⟨true, 0, 0, 0⟩ 3 1 2 false) (two 0x80000000 0 33 0) 0 0xC0000000 = true := by decide
theorem test_mulh_signed : v3 (.mulh Pfx.none 3 1 2 false) (two 0xFFFFFFFF 0 2 0) 0 0xFFFFFFFF = true := by decide
theorem test_mulhu_unsigned : v3 (.mulhu ⟨true, 0, 0, 0⟩ 3 1 2 false) (two 0xFFFFFFFF 0 2 0) 0 1 = true := by decide
theorem test_min_signed : v3 (.min Pfx.none 3 1 2 false) (two 0xFFFFFFFF 0 1 0) 0 0xFFFFFFFF = true := by decide
theorem test_minu_unsigned : v3 (.minu ⟨true, 0, 0, 0⟩ 3 1 2 false) (two 0xFFFFFFFF 0 1 0) 0 1 = true := by decide
theorem test_abs_saturates : v3 (.abs Pfx.none 3 1) (two 0x80000000 0 0 0) 0 0x7FFFFFFF = true := by decide
theorem test_clz_of_zero : v3 (.clz Pfx.none 3 1) (two 0 1 0 0) 0 32 = true := by decide
theorem test_inactive_lane_keeps : v3 (.add ⟨true, 1, 0, 0⟩ 3 1 2 false) (two 1 1 1 1) 0 0 = true := by decide
theorem test_fadd_rounds_even : v3 (.fadd Pfx.none 3 1 2 false) (two 0x3F800000 0 0x33800000 0) 0 0x3F800000 = true := by decide
theorem test_fadd_rounds_up : v3 (.fadd ⟨true, 0, 0, 2⟩ 3 1 2 false) (two 0x3F800000 0 0x33800000 0) 0 0x3F800001 = true := by decide
theorem test_fmul_nan_is_canonical : v3 (.fmul Pfx.none 3 1 2 false) (two 0x7F800001 0 0 0) 0 0x7FC00000 = true := by decide
theorem test_ffma_reads_its_destination :
    after (.ffma ⟨true, 0, 0, 0⟩ 3 1 2 false) (laneWith fun g => ((g.vset 1 0 0x40000000).vset 2 0 0x40400000).vset 3 0 0x3F800000)
      (fun t => (t.grp 1 0).vget 3 0 == 0x40E00000) = true := by decide
theorem test_fmin_orders_zeros : v3 (.fmin Pfx.none 3 1 2 false) (two 0 0 0x80000000 0) 0 0x80000000 = true := by decide
theorem test_fcvt_saturates : v3 (.fcvt Pfx.none 3 1 6) (two 0x4F800000 0 0 0) 0 0x7FFFFFFF = true := by decide
theorem test_shf_up_edge : v3 (.shfUp Pfx.none 3 1 0) (two 7 9 0 0) 1 7 = true := by decide
theorem test_shf_up_lane_zero_keeps : v3 (.shfUp Pfx.none 3 1 0) (two 7 9 0 0) 0 7 = true := by decide
theorem test_lred_add : v3 (.lred Pfx.none 3 1 0) (two 7 9 0 0) 40 16 = true := by decide
theorem test_scan_ex_excludes_itself : v3 (.scanEx Pfx.none 3 1 0) (two 7 9 0 0) 1 7 = true := by decide
theorem test_lid : v3 (.lid Pfx.none 3) lane 63 63 = true := by decide
theorem test_cmp_sets_only_active :
    after (.cmp Pfx.none 2 5 1 2 false) (two 0xFFFFFFFF 1 1 0xFFFFFFFF)
      (fun t => sget (t.grp 1 0).m 5 == 1) = true := by decide
theorem test_sli_sign_extends :
    after (.sli Pfx.none 7 (.short 0x1FF)) lane (fun t => (t.grp 1 0).sget 7 == 0xFFFFFFFFFFFFFFFF) = true := by decide
theorem test_slui_keeps_low :
    after (.slui ⟨true, 0, 0, 0⟩ 7 (.short 2)) (laneWith fun g => g.sput 7 9) (fun t => (t.grp 1 0).sget 7 == 0x200000009) = true := by
  decide
theorem test_smulh_signed :
    after (.smulh ⟨true, 0, 0, 0⟩ 7 8 9) (laneWith fun g => (g.sput 8 (-1)).sput 9 2) (fun t => (t.grp 1 0).sget 7 == -1) = true := by
  decide
theorem test_call_links :
    after (.call Pfx.none 4 (.short 0x1FFFE)) lane
      (fun t => (t.grp 1 0).sget 4 == 0x10004 && ((t.grp 1 0).entry 0).pc == 0xFFFC) = true := by decide
theorem test_bl_splits :
    after (.bl Pfx.none 1 false (.short 8)) (laneWith fun g => { g with m := sset g.m 1 0xFF })
      (fun t => ((t.grp 1 0).entry 0).mask == 0xFFFFFFFFFFFFFF00 && ((t.grp 1 0).entry 1).mask == 0xFF &&
        ((t.grp 1 0).entry 1).pc == 0x10010) = true := by decide
theorem test_misaligned_load_traps :
    after (.ld Pfx.none ⟨3, 1, 4, 2, false, false, none⟩) (laneWith fun g => g.vset 1 5 2)
      (fun t => (t.grp 1 0).st == .stopped && (t.inTrap 1).any fun r => r.regs.flanes == 0x20) = true := by decide
theorem test_brk_enters_handler :
    after (.brk 0x34 2) lane (fun t => (t.inTrap 1).any (fun r => r.regs.fcause.toNat % 65536 == 0x3426 && r.regs.fpc == 0x10000) &&
      (t.grp 1 16).st == .live) = true := by decide
theorem test_emit_appends :
    after (.emit 3) (pilot.updGrp 1 17 fun g => g.sput 3 0x55)
      (fun t => (t.team? 1).any fun x => x.openRun.words == [(true, 0x55)]) = true := by decide
theorem test_tret_resumes :
    after .tret hand (fun t => (t.grp 1 0).st == .live && ((t.grp 1 0).entry 0).pc == 0x10004 && (t.inTrap 1).isNone) = true := by
  decide
theorem test_pilot_is_no_group : after (.add Pfx.none 1 2 3 false) pilot (fun t => (t.inTrap 1).isSome) = true := by decide
theorem test_exact_sum_marks_nan : ((halfOf []).addf 0x7FC00000).nan = true := by decide
theorem test_rwr_add_wraps : rwrNew 0 [0xFF, 0xFF, 0xFF, 0xFF] [2, 0, 0, 0] = [1, 0, 0, 0] := by decide
theorem test_memory_keys : (({ dev := [], key := [], poison := [], l2 := [], host := [] } : Mem).write 1 0x80 [5]).read 1 0x80 2 = [5, 0] := by
  decide

/-! ### Witnesses: states and operands that meet the hypotheses of each statement -/

/-- The issue of an instruction with mask field `k` at a state. -/
def issOf (k : BitVec 4) (s : State) : Iss :=
  match s.cur with
  | some c =>
    let g := s.grp c.p.team c.p.unit
    { p := c.p, mask := effMask g c.p.entry k, at_ := c.at_, next := c.next, words := c.words, inRun := g.run.isSome }
  | none => { p := ⟨0, 0, 0⟩, mask := 0, at_ := 0, next := 0, words := 0, inRun := false }

/-- Whether `i` executes normally at a state. -/
def issuesB (i : Instr) (s : State) : Bool :=
  match s.cur with
  | some c => s.issuing c && (match s.team? c.p.team with
    | some t => ((sigOf i).check c.p.unit (t.grp c.p.unit).run.isSome (t.grp c.p.unit).runIdx c.words
      (if c.p.unit = 16 then 64 else t.vregs) t.acc).isNone && !s.waits c.p.team c.p.unit (sigOf i)
    | none => false)
  | none => false

theorem issues_of {i : Instr} {s : State} (k : BitVec 4) (h : issuesB i s = true) : Issues i k s (issOf k s) := by
  unfold issuesB at h
  split at h <;> try contradiction
  rename_i c hc
  rw [Bool.and_eq_true] at h
  obtain ⟨h1, h2⟩ := h
  split at h2 <;> try contradiction
  rename_i t ht
  rw [Bool.and_eq_true] at h2
  refine ⟨c, t, hc, h1, ht, Option.isNone_iff_eq_none.1 h2.1, by simpa using h2.2, ?_⟩
  have hg : s.grp c.p.team c.p.unit = t.grp c.p.unit := by unfold State.grp; rw [ht]
  unfold issOf; rw [hc]; dsimp only; rw [hg]

/-- An issue with all lanes active, at `lane`, `pilot` and `hand`. -/
def xl : Iss := issOf 0 lane
def xp : Iss := issOf 0 pilot
def xh : Iss := issOf 0 hand

/-- LaneIntegerResults to ReductionsAndScans: every lane instruction executes at `lane`, also with u = 1 and a prefix. -/
theorem witness_lane_instructions :
    ([.add Pfx.none 1 2 3 false, .sub Pfx.none 1 2 3 true, .and Pfx.none 1 2 3 false, .or Pfx.none 1 2 3 false,
      .xor Pfx.none 1 2 3 false, .shl Pfx.none 1 2 3 false, .shr Pfx.none 1 2 3 false, .sra ⟨true, 0, 0, 0⟩ 1 2 3 false,
      .mul Pfx.none 1 2 3 false, .mad ⟨true, 0, 0, 0⟩ 1 2 3 false, .mulh Pfx.none 1 2 3 false, .mulhu ⟨true, 0, 0, 0⟩ 1 2 3 false,
      .min Pfx.none 1 2 3 false, .max Pfx.none 1 2 3 false, .minu ⟨true, 0, 0, 0⟩ 1 2 3 false, .maxu ⟨true, 0, 0, 0⟩ 247 246 3 false,
      .addImm Pfx.none 1 2 (.short 1), .mulImm Pfx.none 1 2 (.long 1 1), .andImm Pfx.none 1 2 (.short 1), .orImm Pfx.none 1 2 (.short 1),
      .xorImm Pfx.none 1 2 (.short 1), .shlImm Pfx.none 1 2 (.short 1), .shrImm Pfx.none 1 2 (.short 1),
      .sraImm ⟨true, 0, 0, 0⟩ 1 2 (.short 1), .add16 Pfx.none 1 2, .addImm16 Pfx.none 1 2, .sub16 Pfx.none 1 2, .mul16 Pfx.none 1 2,
      .and16 Pfx.none 1 2, .or16 Pfx.none 1 2, .xor16 Pfx.none 1 2, .shl16 Pfx.none 1 2, .shr16 Pfx.none 1 2, .sra16 Pfx.none 1 2,
      .min16 Pfx.none 1 2, .max16 Pfx.none 1 2, .minu16 Pfx.none 1 2, .maxu16 Pfx.none 1 2, .fadd16 Pfx.none 1 2,
      .fmul16 Pfx.none 63 31, .bfx Pfx.none 1 2 3 false, .bfi ⟨true, 0, 0, 0⟩ 1 2 3 false, .not Pfx.none 1 2, .abs Pfx.none 1 2,
      .neg Pfx.none 1 2, .pop Pfx.none 1 2, .clz Pfx.none 1 2, .sel Pfx.none 1 2 3].all (issuesB · lane)) = true := by decide

theorem witness_masks_floats_and_conversions :
    ([.cmp Pfx.none 9 1 2 3 false, .cmpImm Pfx.none 9 1 2 (.short 1), .fcmp ⟨true, 0, 2, 0⟩ 7 15 2 3 false, .mand Pfx.none 1 2 3,
      .mor Pfx.none 1 0 3, .mxor Pfx.none 1 2 3, .mnot Pfx.none 1 2, .mmov Pfx.none 1 0, .mpop Pfx.none 1 2, .mfirst Pfx.none 1 2,
      .mset Pfx.none 1 2, .fadd Pfx.none 1 2 3 false, .fsub ⟨true, 0, 1, 3⟩ 1 2 3 false, .fmul Pfx.none 1 2 3 false,
      .ffma ⟨true, 0, 0, 0⟩ 1 2 3 false, .fmin Pfx.none 1 2 3 false, .fmax ⟨true, 0, 0, 0⟩ 1 2 3 false, .fabs Pfx.none 1 2,
      .fneg Pfx.none 1 2, .fclass Pfx.none 1 2, .frnd Pfx.none 1 2, .fcvt Pfx.none 1 2 0, .fcvt Pfx.none 1 2 13, .rcp Pfx.none 1 2,
      .rsq Pfx.none 1 2, .sqrt Pfx.none 1 2, .exp2 Pfx.none 1 2, .log2 Pfx.none 1 2, .sin Pfx.none 1 2, .cos Pfx.none 1 2,
      .tanh Pfx.none 1 2].all (issuesB · lane)) = true := by decide

theorem witness_float_values :
    (0x7FC00000 < 2 * fp32.sign ∧ (fp32.dec 0x7FC00000).isNan = true) ∧ (0x3C00 < 2 * fp16.sign ∧ (fp16.dec 0x3C00).isNan = false) ∧
      (bf16.dec 0xFFFF).isNan = true := by decide

/-- ConversionAndFunctionResults: arguments of each kind, -2.5 among them; the least subnormal, whose `rcp` overflows; an integer, a
power of two and a square. -/
theorem witness_function_arguments :
    fp32.dec 0x7FC00000 = .nan ∧ fp32.dec 0xFF800000 = .inf true ∧ fp32.dec 0xC0200000 = .fin true 0xA00000 (-22) ∧
      fp32.dec 1 = .fin false (2 ^ 0) (-149) ∧ 0xA00000 * 2 ^ 0 = 10 * 2 ^ 20 ∧ fp32.dec 0x40A00000 = .fin false 0xA00000 (-21) ∧
      0xA00000 = 5 * 2 ^ 21 ∧ fp32.dec 0x41100000 = .fin false 0x900000 (-20) ∧ 0x900000 = 3 ^ 2 * 2 ^ 20 := by decide
theorem test_fcvt_rounds_negative_to_even : fp32.toInt 0 true 32 0xC0200000 = -2 := by decide
theorem test_fcvt_rounds_negative_down : fp32.toInt 3 true 32 0xC0200000 = -3 := by decide

theorem witness_cross_lane :
    ([.shfUp Pfx.none 1 2 15, .shfDn Pfx.none 1 2 0, .shfXor Pfx.none 1 2 7, .shfRot Pfx.none 1 2 8, .shfIdx Pfx.none 1 2,
      .bcst Pfx.none 1 2, .sct Pfx.none 1 2, .lred Pfx.none 1 2 7, .scan Pfx.none 1 2 8, .scanEx Pfx.none 1 2 10,
      .tbl Pfx.none 1 240 7 15, .vote Pfx.none 1 2 2, .lid Pfx.none 1].all (issuesB · lane)) = true := by decide

theorem witness_indexed_shuffle_words :
    decodeTableWord 32 (0x1B * 2 + 1 + 1 * 2 ^ 7 + 2 * 2 ^ 15 + 4 * 2 ^ 23) = some (.shfIdx Pfx.none 1 2) ∧
      decodeTableWord 32 (0x1B * 2 + 1 + 1 * 2 ^ 7 + 2 * 2 ^ 15 + 6 * 2 ^ 23) = some (.bcst Pfx.none 1 2) ∧
      decodeTableWord 32 (0x1B * 2 + 1 + 1 * 2 ^ 7 + 2 * 2 ^ 15 + 4 * 2 ^ 23 + 15 * 2 ^ 28) = none := by decide

/-- UniformResults: in a group and in pilot code. -/
theorem witness_uniform :
    ([.sadd Pfx.none 1 2 3, .ssub ⟨true, 0, 0, 0⟩ 1 2 3, .smul Pfx.none 1 2 3, .smulh ⟨true, 0, 0, 0⟩ 1 2 3, .sand Pfx.none 1 2 3,
      .sor ⟨true, 0, 0, 0⟩ 1 2 3, .sxor Pfx.none 1 2 3, .sshl ⟨true, 0, 0, 0⟩ 1 2 3, .smov 1 2, .sshr 1 2, .ssra 1 2, .smin 1 2,
      .smax 1 2, .sminu 1 2, .smaxu 1 2, .scmp 1 2 9, .ssel 1 2 15, .sli Pfx.none 1 (.short 0), .slui ⟨true, 0, 0, 0⟩ 1 (.long 0 0),
      .saddImm Pfx.none 1 2 (.short 0), .sandImm ⟨true, 0, 0, 0⟩ 1 2 (.short 0), .sshlImm Pfx.none 1 2 (.short 0),
      .sshrImm ⟨true, 0, 0, 0⟩ 31 2 (.short 0)].all fun i => issuesB i lane && issuesB i pilot) = true := by decide

/-- TransfersAndControlWords: even and odd targets, and a fragment, a pilot and a handler slot. -/
theorem witness_transfers :
    ([.br Pfx.none (.short 0), .bc Pfx.none 1 (.long 0 0), .call Pfx.none 1 (.short 1), .jmp 5, .ret 5, .nop].all
      fun i => issuesB i lane && issuesB i pilot) = true ∧
    (lane.my xl).sget 5 % 2 = 0 ∧ ((laneWith fun g => g.sput 5 7).my xl).sget 5 % 2 = 1 ∧
    issuesB (.jmp 5) (laneWith fun g => g.sput 5 7) = true := by decide

theorem witness_rcv : ∃ s x, Issues (.rcv ⟨true, 0, 0, 0⟩ (.short 3)) 0 s x := ⟨lane, _, issues_of 0 (by decide)⟩
theorem witness_rgn : ∃ s x, Issues .rgn 0 s x := ⟨lane, _, issues_of 0 (by decide)⟩
theorem witness_nop_prio_hint_yield :
    ([.nop, .prio 15, .hint 0, .hint 1, .hint 2, .yield].all (issuesB · lane)) = true ∧ issuesB (.hint 2) pilot = true ∧
    issuesB (.prio 3) hand = true ∧ xh.p.unit = 16 ∧ xp.p.unit = 17 ∧ xl.inRun = false := by decide

/-- A group in a static run after one body word. -/
def inRun : State := laneWith fun g => { g with run := some ⟨0, .none, 1, [], 0, 0x10000, [], 0, 0⟩ }

/-- LaneBranchAndSerialSplits: a branch that splits, and one of a fragment with a serial record. -/
theorem witness_lane_branch :
    (let s := laneWith fun g => { g with m := sset g.m 1 0xFF }
     issuesB (.bl Pfx.none 1 true (.short 8)) s = true ∧ (s.my xl).split.length = 8 ∧ (s.my xl).serial.length = 16 ∧
       ((s.my xl).entry 0).mask &&& 0xFF ≠ 0 ∧ ((List.range 8).filter fun j => ((s.my xl).entry j).st == .free).length = 7) ∧
    (let g := ((lane.grp 1 0).updSerial 15 fun _ => ⟨true, 0, 3, 1, 0x10010, some 0x10000, none⟩).updEntry 0 fun e =>
       { e with srec := some 15, pc := 0x10000 }
     let s := laneWith fun _ => g
     ((s.grp 1 0).entry 0).st = .active ∧ ((s.grp 1 0).entry 0).srec = some 15 ∧
       ((s.grp 1 0).serial.getD 15 Serial.none).sjoin = some ((s.grp 1 0).entry 0).pc ∧
       ((s.grp 1 0).serial.getD 15 Serial.none).pmask ≠ 0) ∧
    (let s := laneWith fun g => g.updEntry 0 fun e => { e with st := .waiting }
     ((s.grp 1 0).entry 0).st = .waiting ∧ ((s.grp 1 0).entry 0).mask ≠ 0 ∧
       ∀ k, k < 8 → ((s.grp 1 0).entry k).st = .free ∨ ((s.grp 1 0).entry k).parent ≠ some 0) := by decide

/-- ExitAndControlEvents: the last lanes, some lanes beside another fragment, the pilot, the handler; a watchdog at its limit. -/
theorem witness_exit :
    issuesB .exit lane = true ∧ issuesB .exit pilot = true ∧ issuesB .exit hand = true ∧
    ((lane.my xl).entry 0).mask = (lane.my xl).lanes ∧ lane.idle 1 0 = true ∧ (hand.inTrap 1).isSome = true ∧
    (let s := laneWith fun g => (g.updEntry 0 fun e => { e with mask := 1 }).updEntry 1 fun e => { e with st := .active, mask := 2 }
     issuesB .exit s = true ∧ (s.my xl).split.length = 8 ∧ ((s.my xl).entry 1).st ≠ .free ∧
       ((s.my xl).entry 1).mask &&& ~~~((s.my xl).entry 0).mask ≠ 0) ∧
    (let g := (laneWith fun g => { g with wdog := 5, wdcnt := 5 }).grp 1 0
     g.st = .live ∧ g.run = .none ∧ g.wdog ≠ 0 ∧ g.wdog.toNat ≤ g.wdcnt ∧ (g.entry 0).st = .active) := by decide

/-- RunsAndTake. -/
theorem witness_runs_and_take :
    issuesB .run lane = true ∧ issuesB (.rend 2 0xFFFF0504 0) inRun = true ∧ issuesB (.rend 0 0 0) lane = true ∧
    ((inRun.my xl).run.map (·.idx)) = some 1 ∧
    (∀ j, j < 2 → (trailerBytes 2 0xFFFF0504 0).getD j 255 < 248) ∧ (trailerBytes 2 0xFFFF0504 0).getD 2 255 = 255 ∧
    (issuesB (.take 3) lane = true ∧ ((lane.team? 1).any fun t => (lane.takeable t 3).isEmpty && !t.pexit) = true) ∧
    (let s := { lane with clk := 9 }.updTeam 1 fun t => { t with queues := [[], [], [], [⟨[(true, 0x55)], [], 0x10000, 1, false, 8⟩]] }
     issuesB (.take 3) s = true ∧ ((s.team? 1).any fun t => (s.takeable t 3).length == 1) = true) ∧
    (let s := lane.updTeam 1 fun t => { t with pexit := true }
     ((s.team? 1).any fun t => t.queues.getD 0 [] == [] && t.pexit) = true) := by decide

/-- StatusRegisters: in a group, in pilot code and in the handler slot; an unassigned number. -/
theorem witness_status_registers :
    issuesB (.csrr 3 0x16 0) lane = true ∧ issuesB (.csrr 3 2 0) pilot = true ∧ issuesB (.csrr 3 0x40 0) hand = true ∧
    issuesB (.csrw 3 8 0) lane = true ∧ issuesB (.csrw 3 8 0) pilot = true ∧ issuesB (.csrr 3 0x17 0) lane = true ∧
    (lane.team? 1).isSome = true ∧ (lane.launchOf 1).isSome = true ∧ ((hand.team? 1).bind (·.inTrap)).isSome = true := by decide

/-- TrapEntryAndReturn: a BRK trap of group 0 enters the handler; `tret` finds a well-formed image. -/
theorem witness_traps :
    (let i : TrapInfo := { cause := 0x26, detail := 0, addr := 0, lanes := 0, fpc := 0x10000, resume := 0x10004, frop := 0,
                           inrun := false, emitted := false, widx := 0, seq := 0, epc := 0 }
     ((lane.team? 1).any fun t => t.inTrap.isNone && decide (0 < t.groups.length)) = true ∧
     (((lane.takeTrap ⟨1, 0, 0⟩ i).team? 1).bind (·.inTrap)).isSome = true) ∧
    issuesB .tret hand = true ∧
    ((hand.team? 1).any fun t => t.held.isEmpty && decide (t.vregs ≤ 248) && (match t.inTrap with
      | some r => decide (r.unit < t.groups.length) && (match hand.loadSpan 0 3 r.regs.fimg.toNat grpImageSize 0 with
        | some img => imageOk img r.unit t.vregs
        | none => false)
      | none => false)) = true := by decide

/-- FailingChecksTrap: a group outside and in a run, the handler slot, a team of fewer registers. -/
theorem witness_failing_checks :
    lane.cur.isSome = true ∧ (lane.cur.all lane.issuing) = true ∧ (inRun.my xl).run.isSome = true ∧
    (inRun.cur.all inRun.issuing) = true ∧ (hand.cur.all hand.issuing) = true ∧ (hand.my xh).run = none ∧ xl.p.unit < 16 ∧
    (let s := lane.updTeam 1 fun t => { t with partw := 8 + 4 * 256 + 64 * 8192 }
     (s.team? 1).any fun t => decide (t.vregs ≤ 9)) = true ∧ issuesB (.brk 1 2) lane = true := by decide

/-- Two lanes of group 0 active. -/
def pair (f : Grp → Grp) : State := laneWith fun g => f (g.updEntry 0 fun e => { e with mask := 3 })

/-- The lanes of an access with their addresses, and whether all of them translate after the lease has been warmed. -/
def lanesAt (s : State) (m : MemArg) : List (Nat × Nat) := (lanesOf (issOf 0 s).mask).map fun l => (l, (s.grp 1 0).addrOf m l)
def translates (s : State) (as : List Nat) (wr : Bool) : Bool :=
  match s.launchOf 1 with
  | some w => as.all fun a => match (as.foldl (fun s a => s.warm w a) s).translateFor 1 0 a wr with
    | .ok _ => true
    | _ => false
  | none => false

/-- The memory operand s4 + v1, of size 2^n. -/
def opm (n : BitVec 2) : MemArg := ⟨2, 1, 4, n, false, false, none⟩

def aligned : State := pair fun g => (g.sput 4 0x20000).vset 1 1 8

/-- LoadsIssue, StoresIssue, AddressesAndScratchpad: aligned lanes that translate, at the last size. -/
theorem witness_loads_and_stores :
    ([.ld Pfx.none (opm 3), .ldc ⟨true, 0, 0, 0⟩ (opm 0), .st Pfx.none (opm 3), .stc ⟨true, 0, 0, 0⟩ (opm 0), .prf ⟨true, 0, 0, 0⟩ (opm 2),
      .inv ⟨true, 0, 0, 0⟩ (opm 2), .lds Pfx.none (opm 3), .sts Pfx.none (opm 3), .sld Pfx.none 3 4 (.short 0),
      .sst ⟨true, 0, 0, 0⟩ 3 4 (.short 8)].all (issuesB · aligned)) = true ∧
    (issOf 0 aligned).mask ≠ 0 ∧ (lanesAt aligned (opm 3)).all (fun l => l.2 % 8 == 0) = true ∧
    translates aligned ((lanesAt aligned (opm 3)).map (·.2)) false = true ∧
    translates aligned ((lanesAt aligned (opm 3)).map (·.2)) true = true := by decide

theorem witness_fresh : Fresh lane := by unfold Fresh; decide

/-- A lane off its alignment, in a load and in a uniform access. -/
theorem witness_misaligned :
    ((lanesAt (pair fun g => g.vset 1 1 2) (opm 2)).find? fun e => e.2 % 4 != 0) = some (1, 2) ∧
    issuesB (.ld Pfx.none (opm 2)) (pair fun g => g.vset 1 1 2) = true ∧
    (((pair fun g => g.sput 4 4).my xl).sget 4).toNat % 8 ≠ 0 := by decide

/-- A uniform store at its home. -/
theorem witness_uniform_store :
    (match aligned.launchOf 1 with
     | some w => (match (aligned.warm w 0x20000).translateFor 1 0 0x20000 true with
       | .ok (.home d _ _) => d % 128 == 0x20000 % 128
       | _ => false)
     | none => false) = true := by decide

/-- Scratchpad: the last doubleword of the share, the first past it, an odd address, and a base above 32 bits. -/
theorem witness_scratchpad :
    (lane.team? 1).any (fun t => decide (t.spadBytes = 4 * 65536)) = true ∧ lane.spadAt 1 (4 * 65536 - 8) 8 = .at_ 1 (4 * 65536 - 8) ∧
    lane.spadAt 1 (4 * 65536) 8 = .bad 1 ∧ lane.spadAt 1 4 8 = .bad 0 ∧
    issuesB (.lds Pfx.none (opm 3)) (pair fun g => g.sput 4 0x100000000) = true ∧
    (lanesOf (issOf 0 (pair id)).mask).all (fun l => lane.spadAt 1 (((pair id).grp 1 0).addrOf (opm 3) l % 2 ^ 32) 8 == .at_ 1 0) = true := by
  decide

/-- A request and an instruction that is out. -/
def req (kind : ReqKind) (phase : Phase) (tgt : Tgt) (n : Nat) : Req :=
  { id := 50, tag := 60, team := 1, unit := 0, core := 0, ctx := 0, va := 0x20000, n := n, tgt := tgt, kind := kind, clr := [],
    out := true, phase := phase, data := List.replicate n 7, also := [] }
def out (cls : Cls) (act : PendAct) (lanes : List (Nat × Nat)) : Pend :=
  { tag := 60, itag := 0, team := 1, unit := 0, entry := 0, cls := cls, act := act, lanes := lanes, got := [], batch := none,
    org := ⟨0x10000, false, 0, 0, none⟩, bad := [] }
def waitingFor (rs : List Req) (ps : List Pend) : State := { lane with reqs := rs, pends := ps }

/-- A state whose slice of address 0x20000 holds that line of context 0, with `bs` at its start and zeros behind. -/
def held (bs : List Byte) (s : State) : State :=
  let y : L2Line := { line := 0x20000 / 128, ctx := 0, key := s.keyOf 0, valid := 15, dirty := 0, data := slice bs 0 128, bad := [],
                      by_ := 0, out := false }
  { s with mem := { s.mem with l2 := y :: s.mem.l2 } }

/-- Whether the slice holds the whole of a line that has all of a span. -/
def holds (s : State) (c d n : Nat) : Bool :=
  (match s.mem.line? c (d / 128) with
   | some x => x.data.length == 128 && x.valid == 15#4
   | none => false) && (d + n - 1) / 128 == d / 128

/-- What `holds` says is what the statements ask of a slice. -/
theorem inSlice_of_holds {s : State} {c d n : Nat} (h : holds s c d n = true) : s.inSlice c d n := by
  unfold holds at h
  split at h
  · rename_i x hx
    simp only [Bool.and_eq_true, beq_iff_eq] at h
    refine ⟨fun y hy => ?_, h.2, fun a h1 h2 => ?_⟩
    · rw [hx] at hy; cases hy; exact h.1.1
    · have ha : a / 128 = d / 128 := by omega
      unfold Mem.hasSec; rw [ha, hx]
      have : a % 128 / 32 < 4 := by omega
      simp only [L2Line.has, h.1.2]
      generalize a % 128 / 32 = k at *
      rcases k with _ | _ | _ | _ | k <;> first | rfl | omega
  · simp at h

/-- LoadsAndStoresComplete. -/
theorem witness_completions :
    (let q := out .load (.lanes 246 8) [(0, 0x20000), (63, 0x20008)]
     let s := waitingFor [] [q]
     s.pends.find? (fun p => p.tag == q.tag) = some q ∧ s.trapImage 1 0 = none ∧ (s.grp 1 0).st = .live ∧ (q.lanes.map (·.1)).Nodup ∧
       ∀ l ∈ q.lanes, l.1 < 64) ∧
    (let q := out .load (.uniform 255) [(noLane, 0x20000)]
     (waitingFor [] [q]).pends.find? (fun p => p.tag == q.tag) = some q ∧ q.lanes.map (·.2) = [0x20000]) ∧
    (let r := req (.fill [0, 96]) .served (.home 0x20000 false false) 128
     let s := waitingFor [r] [out .load (.lanes 2 4) [(0, 0x20000)]]
     s.reqs.find? (fun q => q.id == r.id) = some r ∧ (∀ o ∈ [0, 96], (r.va + o) % 32 = 0 ∧ (r.va + o) / 128 = r.va / 128) ∧
       r.va < 2 ^ 56 ∧ ∀ p ∈ s.pends, p.tag = r.tag → p.bad = []) ∧
    (let r := req (.write [(0, 5)]) .served (.home 0x20000 false false) 4
     let s := waitingFor [r] [out .store .stores [(0, 0x20000)]]
     s.reqs.find? (fun q => q.id == r.id) = some r ∧ (s.pends.find? (fun p => p.tag == r.tag)).isSome = true) := by decide

/-- HomeAccessReadsAndWrites: a write and a read whose line the slice holds. -/
theorem witness_home_access :
    (let r := req (.write [(0, 5), (3, 6)]) .sent (.home 0x20000 false false) 4
     let s := held [9] (waitingFor [r] [out .store .stores [(0, 0x20000)]])
     s.reqs.find? (fun q => q.id == r.id) = some r ∧ s.combs = [] ∧ s.lockedLine (0x20000 / 128) = false ∧ holds s 0 0x20000 128 = true ∧
       s.missing 0 (0x20000 / 128) (s.reqNeeds r 0x20000) = [] ∧
       (([(0, 5), (3, 6)] : List (Nat × Nat)).map (·.1)).Nodup ∧ (0x20000 + 3) / 128 = 0x20000 / 128) ∧
    (let r := req (.read [0]) .sent (.home 0x20000 false false) 32
     let s := held [9] (waitingFor [r] [out .load (.lanes 2 4) [(0, 0x20000)]])
     s.reqs.find? (fun q => q.id == r.id) = some r ∧ s.missing 0 (0x20000 / 128) (s.reqNeeds r 0x20000) = [] ∧
       s.spanBad 0 0x20000 false 32 = false ∧
       (s.pends.find? (fun p => p.tag == r.tag)).isSome = true ∧ ∀ v ∈ s.reqs, v.tag = r.tag → v.id = r.id) := by decide

/-- ReplaysAndTaskEnds: a live group outside a run, and a launch that runs. -/
theorem witness_replays_and_task_ends :
    (let g := lane.grp 1 0
     g.st = .live ∧ g.run = .none ∧ g.firstActive = some 0 ∧ (g.entry 0).bound = false ∧ 0 < g.split.length ∧
       (∀ k, k < 8 → (g.entry k).park = none) ∧ lane.trapStopped 1 0 = false ∧ lane.bars = [] ∧
       ∀ x ∈ lane.xl, ¬ (x.ctx = lane.ctxOf 1 ∧ x.drain = true ∧ x.mig = true)) ∧
    (let s := { lane with xl := lane.xl.map fun (x : Xlat) => { x with drain := true, mig := true } }
     s.xl.find? (fun v => v.ctx == s.ctxOf 1 && v.drain && v.mig) = s.xl.head? ∧ s.xl ≠ []) ∧
    (lane.launch? 1).any (fun l => l.phase == .running) = true := by decide

/-- RemoteInstructionsIssue: an atomic add by two lanes; an undefined id and a bad form of id 12. -/
theorem witness_remote_instructions :
    (let s := pair fun g => (g.vset 4 0 0x20000).vset 4 1 0x20004
     let x := issOf 0 s
     ([.rop Pfx.none 2 4 0 0, .ropr Pfx.none 2 4 0 0, .ropw Pfx.none 2 4 0 0].all (issuesB · s)) = true ∧ x.mask ≠ 0 ∧
     s.ropCheck x (some ⟨0, []⟩) false false 2 4 1 248 = none ∧ s.opcode? (s.ctxOf 1) 0 = some (⟨0, []⟩, 0) ∧
     (s.team? 1).any (fun t => t.vregs == 248) = true ∧ s.owedV 1 0 2 8 = false ∧ translates s ((ropAddrs ⟨0, []⟩ 1 [(0, 0x20000), (1, 0x20004)]).map (·.2)) true = true ∧
     s.opcode? (s.ctxOf 1) 63 = none ∧ issuesB (.ropr Pfx.none 2 4 12 0) s = true ∧
     (s.opcode? (s.ctxOf 1) 12).any (fun o => o.1.id == 12) = true) ∧
    (issOf 1 lane).mask = 0 := by decide

/-- A request of an atomic add at its unit. -/
def gran (phase : Phase) (status : BitVec 8) : Gran :=
  { va := 0x20000, size := 4, tgt := .home 0x20000 false false, x := [1, 0, 0, 0], src := none, phase := phase, sent := true, txn := 0,
    status := status, ret := [], arr := 0 }
def rop (g : Gran) : Rop :=
  { id := 50, tag := 60, out := true, team := 1, unit := 0, core := 0, ctx := 0, lane := 0, op := 0, gen := 0, ret := false, fpol := 0, d := 2,
    rb := 0, grans := [g], ipc := 0x10000, emitted := false, seq := 0, epc := 0, widx := none }
def withRop (g : Gran) : State := { lane with rops := [rop g], pends := [out .rop (.remote false 2 1) [(0, 0x20000)]] }

/-- RemoteOpsApplyAndReturn: a granule that applies, one that returns OK and one that returns a fault. -/
theorem witness_remote_ops :
    (let s := held [7] (withRop (gran .sent 0))
     s.rops.find? (fun v => v.id == 50) = some (rop (gran .sent 0)) ∧ s.ropBehind (rop (gran .sent 0)) 0 (gran .sent 0) = false ∧
       s.combs = [] ∧ ({ id := 0, defn := [] } : Opcode).gran = 4 ∧ s.lockedSpan 0x20000 4 = false ∧ holds s 0 0x20000 4 = true ∧
       s.spanBad 0 0x20000 false 4 = false) ∧
    (let s := withRop (gran .served 0x31)
     s.rops.find? (fun v => v.id == 50) = some (rop (gran .served 0x31)) ∧ s.trapImage 1 0 = none ∧ (s.grp 1 0).rop = none ∧
       (s.team? 1).any (fun t => decide (0 < t.groups.length)) = true) ∧
    (let s := withRop (gran .served 0)
     (∀ v ∈ s.rops, v.id = 50 → v = rop (gran .served 0)) ∧ (s.grp 1 0).rop = none) := by decide

/-- RemoteOpcodes: the built-ins' widths, definitions on their way, and the statistics of an entry. -/
theorem witness_remote_opcodes :
    (4 + 8 ≤ (List.replicate 12 (0 : Byte)).length ∧ ([1, 2, 3, 4, 5, 6, 7, 8] : List Byte).length = 8) ∧
    (let s := laneWith fun g => (g.sput 4 0x20000).sput 3 16
     ([.rdef 3 4, .rdel 3, .rstat 3 4, .rstatStat 3].all (issuesB · s)) = true ∧ translates s [0x20000] false = true ∧
       (s.ctx? (s.ctxOf 1)).isSome = true) ∧
    (let q := out .none (.define 3 63) [(noLane, 0x20000)]
     let s := waitingFor [] [q]
     s.pends.find? (fun p => p.tag == q.tag) = some q ∧ s.trapImage 1 0 = none ∧
       (defCheck (getBytes q.got 0x20000 64) (some 63)).isSome = true) ∧
    (let q := out .none (.defining 3 63 none 0 5) []
     let s := waitingFor [] [q]
     s.pends.find? (fun p => p.tag == q.tag) = some q ∧ s.combs = [] ∧ s.chans.all (fun c => c.busy.isNone) = true ∧
       (s.grp 1 0).st = .live ∧ 0 < (s.grp 1 0).split.length) := by decide

/-- ChannelEvents: one state for each event. -/
theorem witness_channels :
    3 < lane.chans.length ∧
    (let s : State := { lane.updChan 3 fun c => { c with busy := some (50, 0, 6) } with clk := 70 }
     (s.chan 3).busy = some (50, 0, 6) ∧ 6 + 64 ≤ s.clk) ∧
    (let s : State := { lane with clk := 16 * 64 }
     (s.idleTarget (s.chan 3)).isSome = true) ∧
    (let s := lane.updChan 3 fun c => { c with entry := some .powerDown }
     (s.chan 3).entry = some .powerDown ∧ (s.chan 3).busy = none ∧ s.chanQueued 3 = false) ∧
    (let s : State := { lane.updChan 3 fun c => { c with wake := some 9 } with clk := 9 }
     (s.chan 3).wake = some 9 ∧ 9 ≤ s.clk) ∧
    (let s : State := { lane with clk := 4096, rops := [rop { gran .waiting 0 with tgt := .home 0x20000 true false }] }
     let p := pchOf 0x20000
     p < s.chans.length ∧ s.cuuQueue p ≠ [] ∧ (s.chan p).last + 4096 ≤ s.clk) := by decide

/-- ChannelEvents: a partial on a line that its slice holds, with no poisoned word. -/
theorem witness_aged_partial :
    let b : Comb := { id := 50, slice := 0, line := 0x20000 / 128, ctx := 0, launch := 1, op := 0, gen := 0, defn := [],
                      part_ := List.replicate 128 0, born := 0 }
    let s : State := { held [7] lane with combs := [b] }
    s.combs.find? (fun v => v.id == b.id) = some b ∧ holds s 0 (b.line * 128) 128 = true ∧ s.mem.poison = [] ∧
      ∀ y ∈ s.mem.l2, y.bad = [] := by decide

/-- A record that a check of R195 accepts: one micro-op that loads the granule. -/
theorem witness_good_definition :
    defCheck ([1] ++ List.replicate 15 0 ++ [1] ++ List.replicate 47 0) (some 63) = none := by decide

/-! #### Synchronisation -/

/-- SyncObjects, at issue: an object on an ordinary page, a misaligned one, stores outstanding, no active lane. -/
theorem witness_acquire_and_release :
    issuesB (.acq Pfx.none 4) aligned = true ∧ issuesB (.rel Pfx.none 4) aligned = true ∧ (issOf 0 aligned).mask ≠ 0 ∧
    (match aligned.launchOf 1 with
     | some w => (match (aligned.warm w 0x20000).translateFor 1 0 0x20000 true with
       | .ok (.home _ uam _) => !uam
       | _ => false)
     | none => false) = true ∧
    aligned.count 1 0 .store = 0 ∧ (waitingFor [] [out .store .stores []]).count 1 0 .store = 1 ∧
    ((laneWith fun g => g.sput 4 8).grp 1 0).sget 4 = 8 ∧ (issOf 1 lane).mask = 0 := by decide

/-- SyncObjects, at the home: a free object, one that another TID holds, one that the issuer holds, and a grant on its way back. -/
theorem witness_sync_objects :
    (let r := req .acq .sent (.home 0x20000 false false) 64
     let s := held [] (waitingFor [r] [])
     s.reqs.find? (fun q => q.id == r.id) = some r ∧ s.trapStopped 1 0 = false ∧ s.combs = [] ∧ s.spanBad 0 0x20000 false 64 = false ∧
       holds s 0 0x20000 64 = true ∧ s.lockedLine (0x20000 / 128) = false ∧ (s.team? 1).any (fun t => t.tid == 0) = true ∧
       s.mem.homeBytes (s.keyOf 0) 0 0x20000 64 = List.replicate 64 0 ∧
       ∀ q ∈ s.reqs, ¬ (q.kind = .acq ∧ q.phase = .waiting ∧ q.tgt = r.tgt)) ∧
    (let s := held [1, 0, 7] (waitingFor [req .acq .sent (.home 0x20000 false false) 64] [])
     leNat (s.mem.homeBytes (s.keyOf 0) 0 0x20000 8) = 1 + 7 * 2 ^ 16 ∧ s.spanBad 0 0x20000 false 64 = false) ∧
    (let r := req .rel .sent (.home 0x20000 false false) 64
     let s := held [1] (waitingFor [r] [])
     s.reqs.find? (fun q => q.id == r.id) = some r ∧ holds s 0 0x20000 64 = true ∧ s.spanBad 0 0x20000 false 64 = false ∧
       leNat (s.mem.homeBytes (s.keyOf 0) 0 0x20000 8) = 1 ∧
       ∀ j, j < 48 → s.mem.homeByte (s.keyOf 0) 0 (0x20000 + 16 + j) = 0) ∧
    (let r := req .acq .served (.home 0x20000 false false) 64
     let s := { (laneWith fun g => g.updEntry 0 fun e => { e with park := some (.sync 50 0x10004) }) with reqs := [r] }
     s.reqs.find? (fun q => q.id == r.id) = some r ∧ s.syncParty r = some (⟨1, 0, 0⟩, 0x10004) ∧ s.trapImage 1 0 = none) := by decide

/-- WaitsFencesAndBarriers and TimelinesAndBatches. -/
theorem witness_waits :
    ([.wait 15 0 0 0 0, .fence 0, .fence 4, .bar, .cbar, .tlr 3 0, .tlw 4 0, .tlr 3 1, .bat Pfx.none 3, .wbat 4].all
      (issuesB · lane)) = true ∧
    lane.fenceOpen 1 0 4 = true ∧ lane.count 1 0 .load = 0 ∧
    (lane.team? 1).any (fun t => (lane.engineOf t 0).isSome && (lane.engineOf t 7).isSome && (lane.engineOf t 1).isNone) = true ∧
    (let s := laneWith fun g => g.updEntry 0 fun e => { e with park := some (.bar true 0x10004) }
     (s.team? 1).any (fun t => s.barrierFull t true) = true) ∧
    (let s := laneWith fun g => g.updEntry 0 fun e => { e with park := some (.timeline 0 0) }
     ((s.my xl).entry 0).park = some (.timeline 0 0) ∧ s.trapImage 1 0 = none) ∧
    (let s := laneWith fun g => g.updEntry 0 fun e => { e with park := some (.batch 3) }
     ((s.my xl).entry 0).park = some (.batch 3) ∧ s.batchBusy 1 0 3 = false) ∧
    (let s := laneWith fun g => g.sput 4 9
     (s.team? 1).any (fun t => (s.engineOf t 0).any fun e => decide (e.timeline < ((s.grp 1 0).sget 4).toNat)) = true) := by decide

/-! #### Tideway and pilot -/

/-- A group held by one Tideway operation at core 0, before a slot at its station. -/
def tide (kind : TideKind) (occ : Bool) : State :=
  let o : TideOp := { id := 50, ctx := lane.ctxOf 1, launch := 1, team := 1, unit := 0, entry := 0, kind := kind, tag := 7, off := 0, x := List.replicate 64 1,
                      regA := 4, regX := 8, win := some 0 }
  let s := laneWith fun g => g.updEntry 0 fun e => { e with park := some (.tide 50) }
  let s := s.updCore 0 fun c => { c with station := [o] }
  let v : Slot := ⟨slotAt s.ring.t (stationPos 0), occ, 0, 7, 5, 1, true, false, false⟩
  { s with ring := { s.ring with slots := [v] } }

/-- TidewayInstructionsJoin: a launch with slots and one without, a misaligned rewrite. -/
theorem witness_tideway_join :
    ([.board 8 5, .alight 8 5, .catch 8 5, .rwr 8 5 0, .rwrR 8 5 9].all (issuesB · lane)) = true ∧
    (lane.launchOf 1).any (fun w => w.lr.ring == 0) = true ∧ (lane.core (lane.coreOf 1)).station = [] ∧
    (((laneWith fun g => g.sput 5 0x20007).grp 1 0).sget 5).toNat / 2 ^ 16 % 64 % 4 = 2 ∧
    (let s := lane.updLaunch 1 fun l => { l with lr := { l.lr with ring := 4 } }
     (s.launchOf 1).any (fun w => w.lr.ring != 0) = true) ∧
    (leBytes 8 5).length = 8 ∧ (List.replicate 16 (0 : Byte)).length = 16 := by decide

/-- SlotsServeTheStation: a free slot for `board`, a full one for `catch`, and a window that is over. -/
theorem witness_slots :
    (let s := tide .board false
     ((s.core 0).station.map (·.id)) = [50] ∧ (s.ring.slots.find? (fun y => y.n == slotAt s.ring.t (stationPos 0))).isSome = true ∧
       (s.team? 1).any (fun t => t.launch == 1) = true ∧ (s.entry ⟨1, 0, 0⟩).park = some (.tide 50) ∧ s.trapImage 1 0 = none) ∧
    (let s := tide .catch_ true
     (s.ring.slots.all fun v => v.ctx == s.ctxOf 1 && v.occ && v.tag == 7 && v.asg && !v.rel) = true) ∧
    (let s := { tide .catch_ false with clk := 2176 }
     ((s.core 0).station.all fun o => o.returns && decide (o.win = some 0)) = true ∧ 0 + 2176 ≤ s.clk ∧ (s.grp 1 0).st = .live) ∧
    issuesB (.mstone 3) lane = true := by decide

/-- EmitAndClose and EqfreeWritesFreePlaces: an open run of one word, one with a full queue, an empty one. -/
theorem witness_emit_and_close :
    ([.emit 3, .emitx 3 4 0, .ecl 3 3, .ecln 3 4 0, .eqfree 3 3].all (issuesB · pilot)) = true ∧
    (let r : RunRec := { words := [(true, 0x55)], trailer := [], pc := 0, seq := 0, overLong := false, born := 0 }
     closeFault r (trailerOf 0xFFFFFFFFFFFFFFFF) 248 64 = none ∧ closeFault RunRec.none [] 248 64 = some 0x01 ∧
     (pilot.team? 1).any (fun t => decide (pilot.queueFill t 3 < 8) && decide (3 < t.queues.length)) = true ∧
     (let s := pilot.updTeam 1 fun t => { t with queues := [List.replicate 8 r, [], [], []] }
      (s.team? 1).any (fun t => decide (8 ≤ s.queueFill t 0)) = true)) := by decide

/-! #### Summaries, exact sums, matrix, engines -/

/-- SummaryInstructions: aligned summaries that translate, a misaligned one, and reads that are back. -/
theorem witness_summaries :
    ([.skd Pfx.none 3 4 false false, .skh Pfx.none 3 4 true false, .skq Pfx.none 3 4 false, .skm Pfx.none 4 4 2 false,
      .skqv Pfx.none 3 4 false, .skest Pfx.none 3 4 false, .sktop Pfx.none 3 4 false, .sksd Pfx.none 3 4 2 false].all
        (issuesB · aligned)) = true ∧
    ((aligned.grp 1 0).sget 4).toNat % 1024 = 0 ∧ translates aligned [0x20000, 0x20000] true = true ∧
    (let q := out .none (.summary (.skest Pfx.none 3 4 false) 1) [(noLane, 0x20000)]
     let s := waitingFor [] [q]
     s.pends.find? (fun p => p.tag == q.tag) = some q ∧ (s.grp 1 0).st = .live ∧
       (sumEffect (.skest Pfx.none 3 4 false) (s.grp 1 0) 1 (getBytes q.got 0x20000 256) []).isSome = true) ∧
    (sumEffect (.skest Pfx.none 3 4 false) (lane.grp 1 0) 1 (List.replicate 256 255) []).isSome = true ∧
    sumEffect (.sktop Pfx.none 3 4 false) (lane.grp 1 0) 1 (List.replicate 256 255) [] = none := by decide

/-- SummaryAndSumValues: lengths and ranges at their ends. -/
theorem witness_summary_values :
    (List.replicate 256 (0 : Byte)).length = 256 ∧ (let h : Half := ⟨-1, false, false, 0, 2 ^ 32 - 1⟩
      h.v < 5 ∧ h.pinf < 2 ^ 32 ∧ h.ninf < 2 ^ 32) ∧ 0xFF800000 / 2 ^ 23 % 256 = 255 := by decide

/-- ExactSumInstructions. -/
theorem witness_exact_sums :
    ([.xadd Pfx.none 3 4 true false, .xrnd Pfx.none 3 4 false false, .xclr Pfx.none 4 true false].all (issuesB · aligned)) = true ∧
    aligned.count 1 0 .load = 0 ∧ translates aligned [0x20000, 0x20040] true = true ∧
    (let r := req (.xadd [0x3F800000]) .sent (.home 0x20000 false false) 64
     let s := held [] (waitingFor [r] [])
     s.reqs.find? (fun q => q.id == r.id) = some r ∧ s.combs = [] ∧ s.lockedLine (0x20000 / 128) = false ∧
       holds s 0 0x20000 64 = true ∧ s.spanBad 0 0x20000 false 64 = false) ∧
    (let q := out .load (.round 247 false) [(0, 0x20000), (63, 0x20000)]
     let s := waitingFor [] [q]
     s.pends.find? (fun p => p.tag == q.tag) = some q ∧ (q.lanes.map (·.1)).Nodup ∧ s.trapImage 1 0 = none) := by decide

/-- Tensor records in the scratchpad: 64 x 32 bytes, and 32 x 32 words. -/
def bytes64 : BitVec 512 := BitVec.ofNat 512 (2 ^ 56 + 2 ^ 64 + 2 * 2 ^ 72 + 64 * 2 ^ 128 + 32 * 2 ^ 160 + 2 ^ 192 + 2 ^ 224 + 64 * 2 ^ 256)
def words32 : BitVec 512 :=
  BitVec.ofNat 512 (2 ^ 56 + 4 * 2 ^ 64 + 2 * 2 ^ 72 + 32 * 2 ^ 128 + 32 * 2 ^ 160 + 2 ^ 192 + 2 ^ 224 + 128 * 2 ^ 256)
/-- The format block of INT8 by INT8. -/
def int8 : BitVec 256 := 0x20002
/-- Both planes of core 0 owned by team 1, loaded as INT8. -/
def planes : State :=
  let p : Plane := { Plane.none with owner := some 1, bfmt := 2, kp := 1 }
  (laneWith fun g => { g with d := sset (sset g.d 1 bytes64) 2 words32, f := sset g.f 3 int8 }).updCore 0 fun c =>
    { c with front := p, shadow := p }

/-- MatrixInstructionsIssue. -/
theorem witness_matrix :
    ([.mld Pfx.none true 1 3 0, .mswp Pfx.none, .mmul Pfx.none 63 false 1 3 0, .mzero Pfx.none 0, .mdrain Pfx.none 5 false 0 2 0,
      .mdrain Pfx.none 5 false 3 2 0, .mrsum Pfx.none 5 1 3 0, .msave Pfx.none 1 0 4, .mrest Pfx.none 2 0 4, .mstat Pfx.none 3].all
        (issuesB · planes)) = true ∧
    (issOf 0 planes).mask = (planes.grp 1 0).lanes ∧ (issOf 1 planes).mask ≠ (planes.grp 1 0).lanes ∧
    planes.planesBusy (issOf 0 planes) = false ∧ (planes.planesNow (issOf 0 planes)).front.owner = some 1 ∧
    (planes.planesNow (issOf 0 planes)).shadow.owner = some 1 ∧ fmtBroken int8 = false ∧
    ((planes.planesNow (issOf 0 planes)).front.kp.toNat + 5 = Nat.log2 (fmtBlock int8).kp) ∧
    (match tensorReg bytes64 with
     | some T => T.elem == fmtElem 2 0 && planes.windowOk 1 ((fmtBlock int8).aWindow T 0)
     | none => false) = true ∧
    (match tensorReg words32 with
     | some T => T.elem == drainWidth 0
     | none => false) = true := by decide

/-- A tile operation that is the oldest of core 0. -/
def tileState (k : TileKind) : State :=
  planes.updCore 0 fun c => { c with tileQ := [{ id := 50, team := 1, unit := 0, entry := 0, rgnc := 0, org := ⟨0x10000, false, 0, 0, none⟩, kind := k,
                                                 batch := none }] }

/-- TileOperationsComplete: each kind, with its window read from the scratchpad. -/
theorem witness_tile_operations :
    (let s := tileState (.mzero 63)
     ((s.core 0).tileQ.map (·.id)) = [50] ∧ s.frozen 0 = false ∧ (s.team? 1).isSome = true) ∧
    (let s := tileState (.mmul 0 true bytes64 0 int8)
     (s.core 0).tileQ.all (fun o => match tensorReg bytes64 with
       | some T => (match s.readWindow (s.tileWho o 0) ((fmtBlock int8).aWindow T 0) with
         | .ok u _ => (u.team? 1).isSome
         | _ => false)
       | none => false) = true) := by decide

/-- EngineInstructionsIssue: a copy of four bytes, a fill, record loads, and a pushed fill command. -/
def four : BitVec 512 := BitVec.ofNat 512 (2 ^ 56 + 2 ^ 64 + 2 ^ 72 + 4 * 2 ^ 128 + 2 ^ 160 + 2 ^ 192 + 2 ^ 224)
def copies : State := laneWith fun g => { (((g.sput 4 0x20000).sput 16 2)) with d := sset (sset g.d 1 four) 2 four }
theorem witness_engine_instructions :
    ([.xcp Pfx.none 1 2, .xcpFill Pfx.none 1 2, .dld Pfx.none 1 4 0, .fmt Pfx.none 7 4 15, .push 3 16 0].all (issuesB · copies)) = true ∧
    (match tensorReg four with
     | some T => T.count == 4 && copies.spadRecordOk 1 T
     | none => false) = true ∧
    tensorReg 0 = none ∧ translates copies [0x20000] false = true ∧ copies.within 1 0 15 0 15 15 0 = true ∧
    cmdOk 0 ((List.range 16).flatMap fun j => leBytes 4 ((copies.grp 1 0).sget (16 + j)).toNat) = true ∧ cmdOk 0 (leBytes 64 0) = false := by
  decide

/-- A state whose engine has one command queued, with bytes at 0x20000. -/
def queued (eng : Nat) (cmd mem : List Byte) : State :=
  { lane with mem := lane.mem.write (lane.keyOf 0) 0x20000 mem }.updEngine eng fun e =>
    { e with queue := [{ n := 1, launch := 1, team := 1, bytes := cmd }], next := 2 }

/-- EngineCommandsStart: a fill, a graph of one join, a run of it, a seal, and reads that are back. -/
theorem witness_engine_commands :
    (let s := queued 16 (leBytes 64 (2 + 0x20000 * 2 ^ 64)) (leBytes 64 four.toNat)
     (s.engine? 16).any (fun e => e.running.isNone && e.queue.all (fun c => !s.deadLaunch c.launch && (match s.readRecs 16 c with
       | .ok u bs => ((u.takeCmd 16).copyRecs 1 true bs).isSome && (u.engine? 16 == s.engine? 16)
       | _ => false))) = true) ∧
    (let img := leBytes 2 1 ++ [1] ++ List.replicate 29 0 ++ [0, 0, 0, 0, 0xFF, 0xFF, 0xFF, 0xFF] ++ List.replicate 24 0
     let s := queued 4 (leBytes 64 (0x10 + 0x20000 * 2 ^ 64)) img
     (graphOf img).isSome = true ∧
     (s.engine? 4).any (fun e => e.running.isNone && e.queue.all (fun c => match s.gather (s.engWho 4 c 0) [(0x20000, 32)] with
       | .ok _ m => getBytes m 0x20002 1 == [1]
       | _ => false)) = true) ∧
    (let s := (queued 4 (leBytes 64 (0x11 + 3 * 2 ^ 64 + 0x20000 * 2 ^ 128)) []).updEngine 4 fun e =>
       { e with graphs := [(3, [nodeOf (List.replicate 64 0) 0])] }
     (s.engine? 4).any (fun e => (e.graphs.find? (fun v => v.1 == 3)).isSome && e.queue.all (fun c =>
       match s.gather (s.engWho 4 c 0) [(0x20000, 128)] with
       | .ok _ m => decide (field (getBytes m 0x20000 128) 0 8 < 2 ^ 56)
       | _ => false)) = true) ∧
    (let s := queued 8 (leBytes 64 (0x20 + 0x20000 * 2 ^ 64)) []
     (s.engine? 8).any (fun e => (e.queue.find? (fun c => !s.seals.any fun j => j.cmd && j.ctx == 0 && j.n == c.n)).isSome) = true) ∧
    (let q := out .copy (.record 15) [(noLane, 0x20000)]
     let s := waitingFor [] [q]
     s.pends.find? (fun p => p.tag == q.tag) = some q ∧ s.trapImage 1 0 = none ∧ (s.grp 1 0).st = .live) ∧
    (fmtBroken int8 = false ∧ fmtMisaligned int8 = false ∧ fmtBroken 0x80 = true) := by decide

/-- EngineWorkCompletes: a group's copy whose turn it is, a started join, and a seal that can be written. -/
theorem witness_engine_work :
    (let c : GroupCopy := { id := 50, team := 1, unit := 0, entry := 0, rgnc := 0, org := ⟨0x10000, false, 0, 0, none⟩, src := some four, pat := 0, dst := four,
                            next := 3, moved := false, batch := none }
     let s := copies.updCore 0 fun k => { k with copies := [c], copyTurn := [16 * 50 + 1] }
     (s.core 0).copies.find? (fun y => y.id == c.id) = some c ∧ s.ownBusy (ownerOf (16 * 50 + 1) 0) = false ∧
       s.isTurn 0 (16 * 50 + 1) = true ∧
       (s.cores.findSome? fun k => (k.2.copies.find? fun y => y.id == c.id).map fun y => (k.1, y)) = some (0, c)) ∧
    (let n : Node := nodeOf (List.replicate 64 0) 0
     let y : NodeRun := { d := 0, phase := .started, bytes := 0, open_ := [], fail := none }
     let r := { Running.start { n := 1, launch := 1, team := 1, bytes := [] } with nodes := [y], graph := [n] }
     let s := lane.updEngine 4 fun e => { e with running := some r }
     (s.engine? 4).any (fun e => (e.running.any fun q => q.nodes.length == 1)) = true ∧ y.on = true ∧ n.code = 0 ∧
       s.ownBusy (ownerOf 4 2) = false) ∧
    (let j : SealJob := { id := 50, ctx := 0, launch := 1, cmd := false, n := 0, desc := 0x20000, tag := 0, head := [] }
     let s := { lane with mem := lane.mem.write (lane.keyOf 0) 0x20000 (leBytes 8 0x30000 ++ [1] ++ List.replicate 55 0 ++
                  leBytes 8 0x40000 ++ leBytes 8 4), seals := [j] }
     (match s.sealDescBytes j with
      | .ok u bs => (match (s.launch? 1).bind (fun l => sealDesc l.lr bs) with
        | some d => d.ranges == [(0x40000, 4)] && (match u.gather (u.sealWho j 2) d.ranges with
          | .ok _ _ => true
          | _ => false)
        | none => false)
      | _ => false) = true ∧ s.sealGone j = false) := by decide

/-! #### The package, the host, links and launches -/

/-- ResetsAndPower: a bring-up that passes and one that fails, a ready package with a context and a launch, a tripped one. -/
theorem witness_resets :
    (let b : BringUp := ⟨none, List.replicate 8 (List.replicate 48 1), [(0, List.replicate 48 2)]⟩
     b.fail = none ∧ b.digests[3]? = some (List.replicate 48 1) ∧ (List.replicate 48 (1 : Byte)).length = 48) ∧
    (lane.dev.state = .ready ∧ lane.ctxs.map (·.fn) = [0] ∧ lane.ctxs.map (·.retiring) = [false] ∧ lane.dev.gate ≠ 3) ∧
    (lane.updDev fun d => { d with state := .tripped }).dev.state = .tripped ∧
    (lane.updDev fun d => { d with level := 7, gate := 3 }).dev.state ≠ .tripped ∧ lane.stepDue = true ∧
    (lane.updDev fun d => { d with stepped := some lane.time }).stepDue = false ∧
    (let s : State := { lane with bwWait := [(60, false)] }
     (60, false) ∈ s.bwWait ∧ s.launches ≠ []) := by decide

/-- The mailbox of function 0 holding a command. -/
def mail (cmd : List Byte) (s : State) : State := s.updFn 0 fun f => { f with cmd := slice cmd 0 64 }

/-- HostAccesses: the queue (0, 0) idle, bound, with a tail to advance; each command; a mapped aperture; links down and training. -/
theorem witness_host :
    (0 < lane.fns.length ∧ 15 < (lane.fn 0).queues.length ∧ (lane.fn 0).running = false ∧ (mail [9] lane).mailEvent 0 = some (.ringEvict 0) ∧
      (lane.queue 0 0).enable = false ∧ (lane.queue 0 0).head = (lane.queue 0 0).tail) ∧
    (let s := lane.updQueue 0 0 fun q => { q with logn := 4, enable := true, ctx := some 0, head := 15, tail := 15 }
     let x := s.queue 0 0
     15 ≠ x.tail ∨ (14 ≠ x.tail ∧ 14 < 2 ^ x.logn ∧ (x.tail + 2 ^ x.logn - x.head) % 2 ^ x.logn ≤ (14 + 2 ^ x.logn - x.head) % 2 ^ x.logn ∧
       16 ≠ x.tail ∧ 2 ^ x.logn ≤ 16 ∧ x.ctx = some 0)) ∧
    (let s := held [] (lane.updFn 0 fun f => { f with apOn := true })
     s.aperture 0 0x20000 8 = some (0, 0x20000) ∧ s.combs = [] ∧ s.bars = [] ∧ (s.ctx? 0).any (·.retiring) = false ∧
       (match s.lookup 0 0x20000 with
        | some x => x.w && !x.lost && !x.drain && decide (0x20000 + 8 ≤ x.va + 2 ^ x.lg) && x.target 0x20000 == .home 0x20000 false false
        | none => false) = true ∧ holds s 0 0x20000 8 = true ∧ s.lockedSpan 0x20000 8 = false ∧ lane.aperture 0 0 8 = none) ∧
    (let s := lane.updFn 0 fun f => { f with apOn := true, apBase := 2 ^ 31 }
     s.aperture 0 0 8 = some (0, 2 ^ 31) ∧ s.lookup 0 (2 ^ 31) = none) ∧
    (let s : State := { lane.updFn 0 fun f => { f with apOn := true } with
       xl := lane.xl.map fun (x : Xlat) => { x with drain := true, w := false },
       ctxs := lane.ctxs.map fun (c : Ctx) => { c with retiring := true } }
     s.aperture 0 0x20000 8 = some (0, 0x20000) ∧ (s.ctx? 0).any (·.retiring) = true ∧
       (s.lookup 0 0x20000).any (fun x => x.drain && !x.w) = true) ∧
    (15 < lane.dev.links.length ∧ (lane.link 15).state = 0 ∧ ((lane.updLink 3 fun l => { l with state := 1 }).link 3).state = 1) ∧
    (lane.updFn 0 fun f => { f with running := true }).fn 0 ≠ lane.fn 0 := by decide

/-- A launch that waits or has stopped, in queue 0 of function 0 at index 0. -/
def staged (p : LaunchPhase) (f : Launch → Launch) : State := lane.updLaunch 1 fun l => f { l with phase := p }

/-- MailboxCommands: CTX_CREATE of a free id from a root descriptor of zeros, and of a named one; CTX_RETIRE; QUEUE_BIND; VF_CONFIG;
a free certificate chain. -/
theorem witness_mailbox_contexts :
    (let s := mail ([1, 0xFF] ++ leBytes 2 4 ++ leBytes 2 100 ++ leBytes 2 0 ++ leBytes 4 9) lane
     let b := s.mailCmd 0
     createOk b = true ∧ (List.range 64).find? (fun k => (s.ctx? k).isNone) = some 1 ∧ (s.holding 0).1 < (s.share 0).1 ∧
       (s.holding 0).2 + field b 6 2 ≤ (s.share 0).2 ∧ rootDesc (s.hostRead (field b 16 8) 4096) = some (0, []) ∧
       s.exportPages 1 0 [] = some [] ∧ s.roomFor [] = true ∧ (s.fn 0).root = none ∧ s.dev.state = .ready) ∧
    (let s := mail ([1, 63] ++ leBytes 2 4 ++ leBytes 2 100 ++ leBytes 2 2176 ++ leBytes 4 9) lane
     createOk (s.mailCmd 0) = true ∧ field (s.mailCmd 0) 1 1 = 63 ∧ s.ctx? 63 = none) ∧
    (let b := (mail [2, 0] lane).mailCmd 0
     field b 1 1 < 64 ∧ field b 8 8 % 256 = 0 ∧ spareOk b [(2, 6), (16, 48)] = true ∧ ((lane.ctx? 0).map fun c => (c.id, c.fn, c.retiring)) = some (0, 0, false)) ∧
    (let s : State := { lane with ctxs := lane.ctxs.map fun (c : Ctx) => { c with retiring := true } }
     (s.ctx? 0).map (fun c => (c.retiring, decide (c.sweep ≤ s.time))) = some (true, true)) ∧
    (let b := (mail [3, 15, 0] lane).mailCmd 0
     field b 1 1 < 16 ∧ field b 2 1 < 64 ∧ spareOk b [(3, 61)] = true ∧ (lane.queue 0 15).enable = false) ∧
    (let s := { mail ([4, 1, 4, 0] ++ leBytes 2 8) lane with fns := (mail ([4, 1, 4, 0] ++ leBytes 2 8) lane).fns ++ [Fn.fresh] }
     let b := s.mailCmd 0
     s.dev.state ≠ .recovery ∧ field b 1 1 = 1 ∧ 1 < s.fns.length ∧ field b 2 1 ≤ 64 ∧ field b 4 2 ≤ 2176 ∧ spareOk b [(3, 1), (6, 58)] = true ∧
       (s.holding 1).1 ≤ field b 2 1 ∧ (s.holding 1).2 ≤ field b 4 2 ∧
       (let f := modAt s.fns 1 fun f => { f with maxCtx := field b 2 1, rings := field b 4 2 }
        (s.holding 0).1 + ((f.drop 1).map (·.maxCtx)).sum ≤ 64 ∧ (s.holding 0).2 + ((f.drop 1).map (·.rings)).sum ≤ 2176)) := by decide

theorem witness_certificate :
    let b := (mail ([6] ++ List.replicate 15 0 ++ leBytes 4 (2 ^ 32 - 1)) lane).mailCmd 0
    field b 8 8 % 64 = 0 ∧ spareOk b [(1, 7), (20, 44)] = true ∧ Config.certificate.length ≤ field b 16 4 := by
  refine ⟨by decide, by decide, ?_⟩
  have h : field ((mail ([6] ++ List.replicate 15 0 ++ leBytes 4 (2 ^ 32 - 1)) lane).mailCmd 0) 16 4 = 2 ^ 32 - 1 := by decide
  rw [h]
  have := Config.certificateLen.isLt
  simp only [Config.certificate, List.length_map, List.length_range]
  omega

theorem witness_attest :
    let s := mail ([5] ++ List.replicate 15 0 ++ leBytes 4 4096) lane
    let b := s.mailCmd 0
    field b 8 8 % 64 = 0 ∧ spareOk b [(1, 7), (20, 12)] = true ∧ (s.attestation (slice b 32 32)).length ≤ field b 16 4 := by decide

/-- MailboxCommands: PREEMPT of a running launch, RESUME and RING_EVICT of a parked one, and a command that names no launch. -/
theorem witness_mailbox_launches :
    (launchNamed ((mail [7, 1] lane).mailCmd 0) = true ∧ (mail [7, 1] lane).namedLaunch 0 = none) ∧
    (let s := mail [7, 0] lane
     launchNamed (s.mailCmd 0) = true ∧ (s.namedLaunch 0).map (fun l => (l.id, l.phase, l.pre)) = some (1, .running, none) ∧
       (s.takeBlock 1).isSome = true ∧ s.launch? 1 = s.namedLaunch 0) ∧
    (let s := mail [8, 0] (staged .parked fun l => { l with slots := [7] })
     let x : Slot := ⟨7, false, 0, 0, 0, 1, true, false, false⟩
     let s := { s with ring := { s.ring with slots := [x] } }
     (s.namedLaunch 0).map (fun l => (l.phase, l.slots)) = some (.parked, [7]) ∧ s.launch? 1 = s.namedLaunch 0 ∧
       s.ring.alit = [] ∧ ∀ x ∈ s.ring.slots, x.launch = 1 → x.occ = false ∧ x.evict = false) := by decide

/-- A translation request over the loaded page. -/
def trq (op : Nat) (p : TrPhase) : TrReq :=
  { id := 50, fn := 0, q := 0, ctx := 0, addr := 0x3000, op := op, vec := 5, base := 0, len := if op = 1 then 2 ^ 16 else 2 ^ 30, named := [], peers := [], frame := 2 ^ 30,
    exps := none, phase := p, status := 1 }
/-- A state with one translation request, and other translations. -/
def asks (op : Nat) (p : TrPhase) (f : Xlat → Xlat) : State := { lane with trs := [trq op p], xl := lane.xl.map f }

/-- TranslationRequests: each phase of a request, with pages that may and may not migrate. -/
theorem witness_translation :
    (asks 1 .final id).trs.find? (fun x => x.id == 50) = some (trq 1 .final) ∧
    (asks 1 .queued id).drainRefused (trq 1 .queued) = true ∧
    (asks 1 .queued fun x => { x with mig := true }).drainRefused (trq 1 .queued) = false := by decide

/-- TranslationRequests: a CONFIRM of a range with no draining page, and one with nothing on its way. -/
theorem witness_confirm :
    ((asks 2 .queued id).xl.all fun x => !x.drain) = true ∧
    ((asks 2 .acks id).rangeBusy (trq 2 .acks) = false ∧ (asks 2 .acks id).combs = []) := by decide

/-- TranslationRequests: an EXPORTS whose root descriptor is of zeros. -/
theorem witness_exports :
    (let s := asks 4 .queued id
     (s.ctx? 0).map (fun c => rootDesc (s.hostRead c.rootDesc 4096)) = some (some (0, [])) ∧ s.exportPages 0 0 [] = some [] ∧
       s.roomFor [] = true ∧ (trq 4 .queued).exps = none) := by decide

/-- TranslationRequests: a CONFIRM whose old frame has a dirty line in its slice. -/
theorem witness_confirm_writes_back :
    let s := held [7] (asks 2 .acks fun x => { x with drain := true })
    let s : State := { s with mem := { s.mem with l2 := s.mem.l2.map fun (y : L2Line) => { y with dirty := 1 } } }
    s.mem.ok = true ∧ (s.xl.any fun x => (trq 2 .acks).meets x && x.drain && x.peer == none && decide (x.frame ≤ 0x20000) &&
      decide (0x20000 < x.frame + 2 ^ x.lg)) = true ∧ (∀ y ∈ s.mem.l2, y.data.length = 128 ∧ y.dirty.getLsbD 0 = true) ∧
      s.rangeBusy (trq 2 .acks) = false := by decide

/-- TranslationRequests: a page that is moved. -/
theorem witness_migrate :
    let s := asks 3 .confirm id
    let s := { s with mem := { s.mem with host := ssets s.mem.host (pairsFrom 0x100000 (leBytes 8 (0x120000 + 1)) ++ pairsFrom 0x120000 (leBytes 8 (2 ^ 30 + 7))) } }
    s.migratePage (trq 3 .confirm) = .inl (lane.xl.headD ⟨0, 0, 0, 0, false, false, false, false, none, false, false⟩) ∧
      s.mem.ok = true ∧ (match s.walkCtx 0 0 with
      | some y => y.va == 0 && y.lg == 30 && y.frame == 2 ^ 30 && y.peer == none
      | none => false) = true := by decide

/-- Link 3 up, on the route to peer 9. -/
def linked (f : Link → Link) : State :=
  (lane.updDev fun d => { d with route := [(9, 8)] }).updLink 3 fun l => f { l with state := 2, farPeer := 9, heard := true, enable := true }

/-- LinkEvents. -/
theorem witness_links :
    (((linked fun l => { l with state := 1 }).link 3).state = 1 ∧ (sget (linked id).dev.route 9).getLsbD 3 = true ∧
      (sget (linked id).dev.route 8).getLsbD 3 = false) ∧
    (let s := linked id
     (s.link 3).state = 2 ∧ ((s.link 3).discards.filter fun u => s.time < u + nanos 1000000).length < 7 ∧ (s.link 3).controls.length < 32 ∧
       (s.link 3).unacked.length < 256 ∧ (s.link 3).waiting = []) ∧
    (let s := { linked id with time := nanos 10000 }
     (s.link 3).sentAt + nanos 10000 ≤ s.time) ∧ (lane.link 3).state ≠ 2 := by decide

theorem witness_link_off_route : ∀ p, (sget (lane.updLink 3 fun l => { l with state := 2 }).dev.route p).getLsbD 3 = false := by
  intro p
  have : (lane.updLink 3 fun l => { l with state := 2 }).dev.route = [] := by decide
  rw [this]; simp [sget]

/-- A message from peer 9, and a state whose context 0 exports its first page to it. -/
def note (c : BitVec 8) (a : BitVec 56) (data : List Byte) : Msg :=
  { cls := msgCls c.toNat, len := BitVec.ofNat 5 (1 + ceilDiv data.length 32), code := c, src := 9, dst := 0, addr := a, ctx := 0,
    ropid := 0, part := 0, txn := 50, bytes := BitVec.ofNat 16 data.length, status := 0, data := data }
def exporting (f : State → State) : State :=
  let s := linked id
  f { s with ctxs := s.ctxs.map fun c => { c with exports := [⟨⟨0, 2 ^ 18, true⟩, 9, 0⟩] } }

/-- PeerMessages: each kind of message and what it meets where context 0 exports its first page. -/
theorem witness_peer_messages :
    (let s := exporting id
     let m := note 1 0x8000 (leBytes 8 512)
     s.inbox.contains m = false ∧ m.src ≠ s.dev.peerId ∧ m.dst = s.dev.peerId ∧ s.inLink m = some 3 ∧ msgBad m 1 = false ∧ msgBad m 2 = true ∧
       ¬ m.src.toNat ∈ s.dev.lost ∧ (s.received 3).overtakes m = false ∧
       ((s.received 3).warmExport m 512).matchExport (note 1 0x80000 (leBytes 8 512)) 512 false = .none_ ∧
       msgBad (note 5 0x8000 [1]) 5 = false ∧ msgBad (note 2 0x8000 [1, 2]) 2 = false) ∧
    (let v := held [] ((exporting id).received 3)
     let m := note 1 0x20000 (leBytes 8 128)
     let w := (v.warmExport m 128)
     w.matchExport m 128 false = .at_ 0 0x20000 (.home 0x20000 false false) ∧ w.lockedSpan 0x20000 128 = false ∧ w.combs = [] ∧
       holds w 0 0x20000 128 = true ∧ w.spanBad 0 0x20000 false 128 = false ∧
       (v.warmExport m 2).matchExport (note 2 0x20000 [1, 2]) 2 true = .at_ 0 0x20000 (.home 0x20000 false false) ∧
       (v.warmExport m 1).matchExport (note 5 0x20000 [1]) 1 true = .at_ 0 0x20000 (.home 0x20000 false false)) := by decide

/-- PeerMessages: the answers that requests wait for, a lost peer, and a live engine context. -/
theorem witness_peer_answers :
    (let r := req (.fill [0]) .waiting (.peer 9 0x8000) 32
     let s := exporting fun s => { s with reqs := [r] }
     (s.received 3).answered (note 3 0 (List.replicate 32 1)) = some r ∧ r.writes = false ∧
       msgBad (note 3 0 (List.replicate 32 1)) 3 = false) ∧
    (let r := req (.write [(0, 1)]) .waiting (.peer 9 0x8000) 32
     ((exporting fun s => { s with reqs := [r] }).received 3).answered (note 4 0 []) = some r ∧ r.writes = true ∧
       msgBad (note 4 0 []) 4 = false) ∧
    (let r := req .acq .waiting (.peer 9 0x8000) 64
     ((exporting fun s => { s with reqs := [r] }).received 3).answered (note 4 0 []) = some r ∧ r.kind = .acq) ∧
    (let s := exporting fun s => s.updDev fun d => { d with lost := [9] }
     (note 15 0 []).src.toNat ∈ s.dev.lost ∧ msgBad (note 15 0 []) 15 = false) ∧
    (let s := exporting id
     ((s.ctx? 0).map (·.retiring)) = some false ∧ (s.engine? (msgEngine (note 9 0 []))).isSome = true) := by decide

/-- PeersSettleAndAreLost: a CONFIRM of a peer with no write on its way, a peer silent for 100 µs, and one that is not. -/
theorem witness_peers :
    (let c : PeerConfirm := ⟨50, 9, 0, 65536, 1⟩
     let s := exporting fun s => { s with pcs := [c] }
     s.pcs.find? (fun x => x.id == c.id) = some c ∧ s.peerBusy c = false) ∧
    (exporting fun s => { s.updDev fun d => { d with heard := [(9, 0)] } with time := nanos 100000 }).silent 9 = true ∧
    lane.silent 9 = false := by decide

/-- A launch record of one team of one group, with registers v0-v63, a lease of one page of the save area, and nothing else. -/
def goodRec : List Byte :=
  leBytes 2 2 ++ [0, 0, 0xFF, 0, 0, 0] ++ leBytes 8 0x10000 ++ List.replicate 40 0 ++ [1, 1, 1, 0] ++ leBytes 4 64 ++
    List.replicate 16 0 ++ leBytes 8 (8160 * 2 ^ 43) ++ [1] ++ List.replicate 167 0
/-- Queue 0 enabled, bound to context 0, with one record in host memory. -/
def offered (b : List Byte) : State :=
  { lane with launches := [], mem := { lane.mem with host := ssets lane.mem.host (pairsFrom 0x4000 b) } }.updQueue 0 0 fun q =>
    { q with base := 0x4000, logn := 4, enable := true, ctx := some 0, tail := 1 }

/-- LaunchesRun: a record that fails its first check, one that is checked further, and the queue that offers it. -/
theorem witness_launch_records :
    (let s := offered [7]
     s.dev.state = .ready ∧ (s.queue 0 0).enable = true ∧ (s.ctx? 0).any (·.retiring) = false ∧
       (s.queue 0 0).head ≠ (s.queue 0 0).tail ∧ s.queueFree 0 0 = true ∧
       (s.launchCheck (s.ctx? 0) (s.hostRead 0x4000 256)).1 = 2) ∧
    (let s := offered goodRec
     let s := { s with mem := s.mem.write (s.keyOf 0) 0x40000000 (leBytes 8 (8160 * 2 ^ 43) ++ leBytes 8 (2 ^ 30)) }
     s.queueFree 0 0 = true ∧ (s.launchCheck (s.ctx? 0) (s.hostRead 0x4000 256)).1 = 0) := by decide

/-- LaunchesRun: a launch at each phase. -/
theorem witness_launch_phases :
    (let s := staged .lease id
     (s.launch? 1).any (fun l => l.phase == .lease && (s.ctx? l.ctx).any fun c => (s.leasePages c l.lr.leases).isNone) = true) ∧
    (let s := staged .lease fun l => { l with lr := { l.lr with leases := [⟨8160 * 2 ^ 43, 2 ^ 30, true⟩] } }
     (s.launch? 1).any (fun l => (s.ctx? l.ctx).any fun c => (match s.leasePages c l.lr.leases with
       | some pages => pages.length == 1 && !s.leaseBlocked l pages && s.roomFor pages
       | none => false)) = true) ∧
    (let s := staged .slots id
     (s.launch? 1).any (fun l => l.lr.ring == 0 && l.ringSave == 0) = true) ∧
    (let s := { staged .finishing id with teams := [] }
     (s.launch? 1).any (fun l => !s.launchBusy l && !l.lr.sealOn && l.block == none) = true) ∧
    (let s := { staged .finishing fun l => { l with lr := { l.lr with sealOn := true } } with teams := [] }
     (s.launch? 1).any (fun l => !s.launchBusy l && l.lr.sealOn && l.status == 0 && !l.sealed) = true) ∧
    (let s := lane.updTeam 1 fun t => { t with live := false }
     (s.team? 1).any (fun t => !t.live && !t.ended && !s.dispatchWaits t && t.resume == none) = true) ∧
    (let x : Slot := ⟨7, false, 0, 0, 0, 1, false, true, false⟩
     [x].find? (fun y => y.n == x.n) = some x) := by decide

/-- LaunchesRun: a launch that takes two slots. -/
theorem witness_slot_assignment :
    let s := staged .slots fun l => { l with lr := { l.lr with ring := 2 } }
    let s : State := { s with ctxs := s.ctxs.map fun (c : Ctx) => { c with ringq := 2 } }
    (s.launch? 1).any (fun l => l.lr.ring == 2 && l.slots == [] && decide (s.slotsHeld l.ctx + 2 ≤ 2)) = true ∧
      s.freeSlots 2 = [0, 1] := by decide

/-- PlacementAndSaves: a second cluster of the launch that can be placed, one that has waited 1 ms, a parallel launch refused by
the gates. -/
theorem witness_placement :
    (let s := staged .running fun l => { l with lr := { l.lr with gx := 2 } }
     (s.launch? 1).any (fun l => l.nextCluster.isSome && (s.placing l).isSome && l.lr.progress == 0) = true ∧
       (s.launches.all fun y => y.id == 1) = true ∧ s.oldestWait = some (1, 0) ∧
       0 + nanos 1000000 ≤ { s with time := nanos 1000000 }.time) ∧
    (let s := staged .running fun l => { l with lr := { l.lr with gx := 2, progress := 2, bpower := 1 } }
     let s := { s with time := nanos 1000000 }
     s.longestPlaced 1 = some 0 ∧ (s.launch? 1).any (fun l => s.refusedLong l) = true ∧ (s.takeBlock 1).isSome = true) := by decide

/-- Group 0 parked at `yield` with PREQ set, and a team whose deadline is over. -/
def yielded : State :=
  laneWith fun g => { (g.updEntry 0 fun e => { e with park := some .yielded }) with preq := true }
def overdue (f : Grp → Grp) : State :=
  { (laneWith f).updLaunch 1 fun l => { l with pre := some ⟨0, none, [0], 0, 0⟩ } with clk := lane.clk + 2 ^ 32 }

/-- PlacementAndSaves: a co-operative save with its block, index and image, a forced stop, and a core that zeroes a unit. -/
theorem witness_saves :
    (let s := yielded
     let g := s.grp 1 0
     g.st = .live ∧ g.preq = true ∧ g.allParked (· == .yielded) = true ∧ s.idle 1 0 = true ∧ s.tideBusy 1 0 = false ∧
       (match s.takeBlock 1 with
        | some (s1, b) => (match s1.takeIndex 1 b with
          | some (s2, i) => (match s2.saveSpan 0 3 (imageBase b i + grpImageAt 0) grpImageSize ((s2.grp 1 0).image
              { kind := 0, gid := 0, tent := (s2.grp 1 0).firstActive.getD 0, pc := g.firstPc, regs := FaultRegs.zero }) with
            | some s3 => (s3.grp 1 0).st == .live
            | none => false)
          | none => false)
        | none => false) = true) ∧
    ((overdue id).forcingU 1 = true ∧ ((overdue id).grp 1 0).st = .live ∧ ((overdue id).grp 1 0).stopAt = none ∧
      ((overdue id).grp 1 0).run = none ∧ (overdue id).fullBars 1 0 = []) ∧
    (let s := overdue fun g => { g with run := some ⟨0, .none, 1, [], 0, 0x10000, [], 0, 0⟩ }
     s.forcingU 1 = true ∧ (s.grp 1 0).st = .live ∧ (s.grp 1 0).run.isSome = true) ∧
    (let s := overdue fun g => g.updEntry 0 fun e => { e with park := some (.bar true 0x10004) }
     s.forcingU 1 = true ∧ s.fullBars 1 0 ≠ []) ∧
    (let s := overdue fun g => { g with st := .stopped, stopAt := some 5 }
     s.forcingU 1 = true ∧ (s.grp 1 0).st = .stopped ∧ (s.grp 1 0).stopAt.isSome = true ∧ s.trapStopped 1 0 = false) ∧
    lane.forcingU 1 = false ∧
    ((lane.updCore 0 fun c => { c with zeroing := [256, 256] }).core 0).zeroing = [256, 256] := by decide

/-! #### Decoding and the step -/

/-- DecodeEncode: a well-formed instruction of each length with operands at their ends. -/
theorem witness_encode :
    (let i := Instr.addImm ⟨true, 3, 0, 0⟩ 247 246 (.long 0x1FFFFF 0x1FF)
     encode (.fadd16 Pfx.none 63 31) ≠ [] ∧ (Instr.fadd16 Pfx.none 63 31).wf = true ∧ encode (Instr.brk 511 0xFFFFF) ≠ [] ∧ i = i) := by decide

/-- StepRunsTheDecodedInstruction: a group outside a run, and one in an emitted run of one word, selected to issue. -/
theorem witness_step :
    (let s := State.reset.withFetchWord 32 0x55
     s.ev.now = [] ∧ s.ev.issue = [(⟨1, 0, 0⟩, 0)] ∧ (s.launchOf 1).isSome = true ∧ (s.grp 1 0).st = .live ∧
       ((s.grp 1 0).entry 0).st = .active ∧ ((s.grp 1 0).entry 0).park = none ∧ (s.grp 1 0).rop = none ∧ (s.grp 1 0).run = none) ∧
    (let r : RunRec := { RunRec.none with words := [(true, 0x55)] }
     let s := (State.reset.withFetchWord 32 0x55).updGrp 1 0 fun g => { g with run := some ⟨0, some r, 0, [], 0, 0x10000, [], 0, 0⟩ }
     ((s.grp 1 0).run.bind (·.emitted)) = some r ∧ 0 < r.words.length ∧ (s.grp 1 0).st = .live) := by decide

/-- StepRunsEvents, StepKeepsMemoryForm and StepKeepsNumbersFresh: a state with an event, and one with listed memory that takes a step. -/
theorem witness_step_keeps :
    (let s := { State.reset with ev := { Events.none with now := [.bandwidthWindow] } }
     s.ev.now = .bandwidthWindow :: []) ∧
    (let s := State.reset.withFetchWord 32 0x55
     s.mem.ok = true ∧ s.mem.dev ≠ [] ∧ (match step s with
     | .next _ => true
     | _ => false) = true) := by decide

theorem witness_fresh_reset : Fresh State.reset := by unfold Fresh; decide

/-- SelectionFollowsTheRank: two ready fragments of two groups, both of which issue, and two of one group, of which one does; a
fragment that is ready. -/
theorem witness_selection :
    (let a : ReadyFrag := ⟨⟨1, 0, 0⟩, [0, 0, 0, 0, 0], sigOf .nop, [0, 1], false⟩
     let b : ReadyFrag := ⟨⟨1, 1, 0⟩, [0, 0, 0, 1, 0], sigOf .nop, [0, 1], false⟩
     let c : ReadyFrag := ⟨⟨1, 0, 1⟩, [0, 0, 0, 0, 1], sigOf .nop, [0, 1], false⟩
     bestOf [b, a] = some a ∧ lane.selection [b, a] = [(⟨1, 0, 0⟩, 0), (⟨1, 1, 0⟩, 1)] ∧ lane.selection [c, a] = [(⟨1, 0, 0⟩, 0)] ∧
       [c, a].Pairwise (fun x y => x.p ≠ y.p) ∧ (∀ r ∈ [c, a], r.p.entry < (lane.grp r.p.team r.p.unit).split.length) ∧
       (lane.core 0).pipes.length = 2 ∧ (lane.core 0).ports.length = 2) ∧
    ((State.reset.withFetchWord 32 0x55).ready? 0 ⟨1, 0, 0⟩).isSome = true := by decide

/-! #### Further clauses -/

/-- The handler with 1 in s3, and the handler of a pilot's trap. -/
def writing : State := hand.updGrp 1 16 fun g => g.sput 3 1
def pilotTrap : State := hand.updTeam 1 fun t => { t with inTrap := t.inTrap.map fun r => { r with unit := 17 } }
/-- StatusRegisters: the handler's `csrw` of a written 0 and a written 1, with its image in memory; a pilot's handler. -/
theorem witness_handler_writes :
    issuesB (.csrw 3 0x0F 0) hand = true ∧ issuesB (.csrw 3 0x16 0) hand = true ∧ ((hand.my xh).sget 3).toNat % 2 = 0 ∧
     issuesB (.csrw 3 0x0F 0) writing = true ∧ ((writing.my xh).sget 3).toNat % 2 = 1 := by decide
theorem witness_handler_image :
    (writing.launchOf 1).any (fun l => l.ctx == 0) = true ∧
       (writing.inTrap 1).any (fun r => r.unit != 17 && (writing.savePage 0 (r.regs.fimg.toNat + 0x30)).isSome &&
         (writing.savePage 0 (r.regs.fimg.toNat + 0x38)).isSome) = true := by decide
theorem witness_pilots_handler :
     issuesB (.csrw 3 0x0F 0) pilotTrap = true ∧ issuesB (.csrr 3 0x0F 0) pilotTrap = true ∧ (pilotTrap.inTrap 1).any (fun r => r.unit == 17) = true := by decide
/-- Group 0 in a static run with one result pending that was issued as number `n`. -/
def owing (n : Nat) : State := { inRun with pends := [{ out .load (.lanes 2 4) [] with tag := n }] }
/-- A state whose team has 8 vector registers a group. -/
def few (s : State) : State := s.updTeam 1 fun t => { t with partw := 8 + 4 * 256 + 64 * 8192 }

/-- RunsAndTake: each trailer that traps (nine registers, w0, a padding byte other than 0xFF, a register past the share of 8), and a
result of the run, and one of an earlier instruction, pending beside an empty trailer. -/
theorem witness_trailers :
    issuesB (.rend 9 0x01020304 0) inRun = true ∧ issuesB (.rend 1 0xFFFFFFF8 0) inRun = true ∧ issuesB (.rend 1 0xFFFF0504 0) inRun = true ∧
    issuesB (.rend 1 0xFFFFFF08 0) (few inRun) = true := by decide
theorem witness_trailer_bytes :
    trailerBytes 1 0xFFFFFFF8 0 = [248, 255, 255, 255] ∧ trailerBytes 1 0xFFFF0504 0 = [4, 5, 255, 255] ∧
    trailerBytes 1 0xFFFFFF08 0 = [8, 255, 255, 255] ∧ ((few inRun).team? 1).any (fun t => t.vregs == 8) = true := by decide
theorem witness_owed_results :
    ((inRun.my xl).run.map (·.born)) = some 0 ∧ issuesB (.rend 0 0xFFFFFFFF 0xFFFFFFFF) (owing 60) = true ∧
    (owing 60).owesBeyond 1 0 0 [] = true ∧ (owing 60).owesBeyond 1 0 0 [2] = false ∧ (owing 60).owesBeyond 1 0 61 [] = false := by decide

/-- A group with no entry pending on another and no serial record in use fits its image. -/
theorem fits_of {g : Grp} {n : Nat} (hn : n ≤ 248) (hv : g.v = []) (hs : g.s = []) (hm : g.m = []) (hf : g.f = []) (hd : g.d = [])
    (hl : g.split.length = 8 ∧ g.serial.length = 16)
    (he : ∀ e ∈ g.split, e.pc.toNat < 2 ^ 56 ∧ e.join = none ∧ e.pend = none ∧ e.parent = none ∧ e.srec = none ∧ e.loss < 128)
    (hr : ∀ r ∈ g.serial, r = Serial.none)
    (ha : (∃ e ∈ g.split, e.st = .active) ∧ ∀ k, k < 8 → (g.entry k).st = .free ∨ chainEnds g.split 9 k = true) : g.Fits n where
  v := by rw [hv]; exact ⟨rfl, by simp, hn⟩
  s := by rw [hs]; exact ⟨rfl, by simp⟩
  m := by rw [hm]; exact ⟨rfl, by simp⟩
  f := by rw [hf]; exact ⟨rfl, by simp⟩
  d := by rw [hd]; exact ⟨rfl, by simp⟩
  entries := by
    refine ⟨hl.1, fun e h => ?_⟩
    obtain ⟨h1, h2, h3, h4, h5, h6⟩ := he e h
    exact ⟨h1, by simp [h2, h3], by simp [h4], by simp [h5], h6⟩
  records := by
    refine ⟨hl.2, fun r h => ?_⟩
    rw [hr r h]; exact ⟨fun _ => rfl, by decide, by decide, by simp [Serial.none], by simp [Serial.none]⟩
  runs := ha

/-- TrapEntryAndReturn: the loaded group fits its image. -/
theorem witness_group_fits : (lane.grp 1 0).Fits 248 :=
  fits_of (by decide) (by decide) (by decide) (by decide) (by decide) (by decide) (by decide) (by decide) (by decide) (by decide)

/-- FailingChecksTrap: an encoded instruction whose check fails, at each kind of party; a run of 24 words. -/
theorem witness_check_answers :
    (encode (.add Pfx.none 1 248 3 false) ≠ [] ∧ (sigOf (.add Pfx.none 1 248 3 false)).check 0 false 0 1 248 64 = some (0x20, 0x0A)) ∧
    (lane.cur.any fun c => (lane.team? c.p.team).any fun t => t.vregs == 248 && t.acc == 64 && c.words == 1 && c.p.unit == 0) = true ∧
    (pilot.cur.any fun c => c.p.unit == 17) = true ∧ (pilot.cur.all pilot.issuing) = true ∧
    (let s := laneWith fun g => { g with run := some ⟨0, .none, 24, [], 0, 0x10000, [], 0, 0⟩ }
     (s.cur.all s.issuing) = true ∧ ((s.my xl).run.map (·.idx)) = some 24) := by decide

/-- The loaded team's image block is one page of 1 GiB. -/
theorem lane_savePage (a : Nat) (h : 0xFF000100000000 ≤ a) (h' : a < 0xFF000140000000) :
    lane.savePage 0 a = some (2 ^ 31 + (a - 0xFF000100000000)) := by
  have e3 : bits a 43 13 = 8160 := by unfold bits; omega
  have e2 : bits a 30 13 = 4 := by unfold bits; omega
  have ev : a / 2 ^ 30 * 2 ^ 30 = 0xFF000100000000 := by omega
  have big : ¬ 2 ^ 56 ≤ a := by omega
  have hc : (lane.ctx? 0).map (·.table) = some 0x100000 := by decide
  have h3 : lane.hostNat (0x100000 + 8 * 8160) 8 = 0x110001 := by decide
  have h2 : lane.hostNat (0x110000 + 8 * 4) 8 = 0x80000007 := by decide
  have n3 : nextTable 0x110001 65536 = some 0x110000 := by decide
  have b3 : (!bit 0x110001 0 || bit 0x110001 1) = false := by decide
  have b2 : (!bit 0x80000007 0) = false ∧ bit 0x80000007 1 = true := by decide
  have hw : lane.walkCtx 0 a = leafOf lane 0 a 0x80000007 30 := by
    unfold State.walkCtx
    cases hx : lane.ctx? 0 with
    | none => rw [hx] at hc; cases hc
    | some c =>
      rw [hx] at hc
      have ht : c.table = 0x100000 := by simpa using hc
      dsimp only
      unfold State.walk
      simp only [ht, e3, h3, n3, e2, h2, b3, b2.1, b2.2, if_neg big]
      rfl
  have hl : leafOf lane 0 a 0x80000007 30 = some ⟨0, a / 2 ^ 30 * 2 ^ 30, 30, 2 ^ 31, true, false, false, false, none, false, false⟩ := by
    unfold leafOf; rfl
  unfold State.savePage
  rw [hw, hl]
  show (if true && (none : Option Nat).isNone then some (2 ^ 31 + (a - a / 2 ^ 30 * 2 ^ 30)) else none) = _
  rw [ev]; rfl

/-- TrapEntryAndReturn: the image's pages lie in frames of their own. -/
theorem lane_frames_distinct (at_ : Nat) (h : 0xFF000100000000 ≤ at_) (h' : at_ + grpImageSize ≤ 0xFF000140000000) :
    ∀ a b x y, at_ ≤ a → a < b → b < at_ + grpImageSize → a / 65536 ≠ b / 65536 → lane.savePage 0 a = some x →
      lane.savePage 0 b = some y → x / 65536 ≠ y / 65536 := by
  intro a b x y h1 h2 h3 h4 hx hy
  rw [lane_savePage a (by omega) (by omega)] at hx
  rw [lane_savePage b (by omega) (by omega)] at hy
  rw [Option.some.injEq] at hx hy
  omega
/-- TrapEntryAndReturn: the image of the loaded group's trap lies in that page. -/
theorem witness_image_place :
    let i : TrapInfo := { cause := 0x26, detail := 0, addr := 0, lanes := 0, fpc := 0x10000, resume := 0x10004, frop := 0,
                           inrun := false, emitted := false, widx := 0, seq := 0, epc := 0 }
    ((lane.takeTrap ⟨1, 0, 0⟩ i).inTrap 1).any (fun r => decide (0xFF000100000000 ≤ r.regs.fimg.toNat) &&
      decide (r.regs.fimg.toNat + grpImageSize ≤ 0xFF000140000000)) = true := by decide

/-- HomeAccessReadsAndWrites: a read of one span by three addresses. -/
theorem witness_aliased_read :
    ((0x20000 :: [0x40000, 0x20080] : List Nat).Pairwise fun a b => a + 32 ≤ b ∨ b + 32 ≤ a) := by decide

/-- A definition that loads the window and the operand, adds them, stores the sum and returns it: one unsigned word a granule (R192). -/
def adds : List Byte :=
  leBytes 8 (4 + 2 * 2 ^ 12 + 2 * 2 ^ 16 + 2 * 2 ^ 20 + 2 ^ 32) ++ List.replicate 8 0 ++ leBytes 2 0x0001 ++ leBytes 2 0x0025 ++
    leBytes 2 0x0808 ++ leBytes 2 0x0002 ++ List.replicate 40 0
/-- A state whose context 0 holds that definition as id 20, generation 1. -/
def defined (s : State) : State :=
  { s with ctxs := s.ctxs.map fun (c : Ctx) => { c with ops := [(20, ⟨some adds, 1⟩)] } }
/-- A request with another op id and generation, and the state that holds it. -/
def ropOf (op : Nat) (gen : BitVec 8) (g : Gran) : Rop := { rop g with op := op, gen := gen }
def withOp (op : Nat) (gen : BitVec 8) (g : Gran) (s : State) : State :=
  { s with rops := [ropOf op gen g], pends := [out .rop (.remote false 2 1) [(0, 0x20000)]] }

/-- RemoteOpcodes: a definition of the add, one element and four. -/
theorem witness_definition :
    adds.length = 64 ∧ defCheck adds (some 20) = none ∧ defEty adds = 2 ∧ defOty adds = 2 ∧ defLen adds = 4 ∧
    [defSlot adds 0, defSlot adds 1, defSlot adds 2, defSlot adds 3] = [0x0001, 0x0025, 0x0808, 0x0002] ∧ defVl adds = 1 ∧
    defRshape adds = 2 ∧ defRreg adds = 0 ∧ (defined lane).opcode? 0 20 = some (⟨20, adds⟩, 1) ∧ defTgt adds = false := by decide
/-- RemoteOpsApplyAndReturn, at a slice: id 12, a loaded definition, a generation that is unknown, a page whose kind does not match. -/
theorem witness_slice_ops :
    (let g : Gran := { gran .sent 0 with x := [0, 0, 0x80, 0x3F], size := 64 }
     let s := held [7] (withOp 12 0 g lane)
     s.ropBehind (ropOf 12 0 g) 0 g = false ∧ ({ id := 12, defn := [] } : Opcode).gran = 128 ∧ s.lockedSpan 0x20000 128 = false ∧
       holds s 0 0x20000 128 = true ∧ s.spanBad 0 0x20000 false 128 = false) ∧
    (let g := gran .sent 0
     let s := held [7] (withOp 20 1 g (defined lane))
     s.opcode? 0 20 = some (⟨20, adds⟩, 1) ∧ s.ropBehind (ropOf 20 1 g) 0 g = false ∧ ({ id := 20, defn := adds } : Opcode).gran = 4 ∧
       holds s 0 0x20000 4 = true ∧ (defApply adds 0 g.x (s.mem.homeBytes (s.keyOf 0) 0 0x20000 4)).1.length = 4) ∧
    (let s := withOp 20 1 (gran .sent 0) lane
     s.opcode? 0 20 = none ∧ s.ropBehind (ropOf 20 1 (gran .sent 0)) 0 (gran .sent 0) = false) ∧
    (let g : Gran := { gran .sent 0 with tgt := .home 0x20000 true false }
     let s := withOp 20 1 g (defined lane)
     s.ropBehind (ropOf 20 1 g) 0 g = false ∧ defTgt adds ≠ true) := by decide

/-- RemoteOpsApplyAndReturn, at the CUU that holds the lock; ChannelEvents: its queue. -/
theorem witness_cuu_ops :
    let g : Gran := { gran .waiting 0 with tgt := .home 0x20000 true false }
    let s := (withOp 0 0 g lane).updChan (pchOf 0x20000) fun c => { c with busy := some (50, 0, 6) }
    (s.chan (pchOf 0x20000)).busy = some (50, 0, 6) ∧ pchOf 0x20000 < s.chans.length ∧ s.spanBad 0 0x20000 true 4 = false ∧
      s.cuuQueue (pchOf 0x20000) = [(0, 50, 0)] := by decide

/-- RemoteOpsApplyAndReturn: SKIP and POISON requests whose granules fault, CUU_RESET, and a `ropr` that is back. -/
theorem witness_rop_policies :
    (let r : Rop := { ropOf 20 1 (gran .served 0x33) with fpol := 2 }
     let s := { lane with rops := [r], pends := [out .rop (.remote true 2 1) [(0, 0x20000)]] }
     s.rops.find? (fun v => v.id == r.id) = some r ∧ (s.ctx? r.ctx).isSome = true ∧ s.trapImage 1 0 = none ∧ (s.grp 1 0).rop = none) ∧
    (let g : Gran := { gran .served 0 with ret := [7, 0, 0, 0] }
     let r : Rop := { rop g with ret := true, rb := 4 }
     let s := { lane with rops := [r], pends := [out .rop (.remote true 2 1) [(0, 0x20000)]] }
     s.rops.find? (fun v => v.id == r.id) = some r ∧ (s.pends.any fun p => p.tag == r.tag) = true ∧ r.lane < 64 ∧
       r.grans.length = 1 ∧ g.ret.length = r.rb) := by decide

/-- RemoteOpcodes: the record read of an `rdef` whose record is good. -/
theorem witness_good_record :
    let got := ssets [] ((pairsFrom 0x20000 adds).map fun (e : Nat × Byte) => (e.1, (1#1 ++ e.2 : BitVec 9)))
    let q := { out .none (.define 3 20) [(noLane, 0x20000)] with got := got }
    defCheck (getBytes q.got 0x20000 64) (some 20) = none ∧ (lane.ctx? (lane.ctxOf q.team)).isSome = true := by decide

/-- SyncObjects: a release with an acquire of group 1 waiting, an acquire by the holder, a release by another, a reserved bit. -/
theorem witness_sync_hand_over :
    (let r := req .rel .sent (.home 0x20000 false false) 64
     let q : Req := { req .acq .waiting (.home 0x20000 false true) 64 with id := 51, tag := 61, unit := 1 }
     let s := held [1] { (laneWith fun g => g.updEntry 0 fun e => { e with park := some (.sync 50 0x10004) }) with reqs := [r, q] }
     s.reqs.find? (fun v => v.kind == .acq && v.phase == .waiting && v.tgt.spot == r.tgt.spot) = some q ∧
       leNat (s.mem.homeBytes (s.keyOf 0) 0 0x20000 8) = 1 ∧ s.syncParty r = some (⟨1, 0, 0⟩, 0x10004)) ∧
    (let r := req .acq .sent (.home 0x20000 false false) 64
     let s := fun b => held b { (laneWith fun g => g.updEntry 0 fun e => { e with park := some (.sync 50 0x10004) }) with reqs := [r] }
     leNat ((s [1]).mem.homeBytes (s [1] |>.keyOf 0) 0 0x20000 8) = 1 ∧ leNat ((s [2]).mem.homeBytes (s [2] |>.keyOf 0) 0 0x20000 8) / 2 % 32 ≠ 0 ∧
       (s [2]).syncParty r = some (⟨1, 0, 0⟩, 0x10004)) ∧
    (let r := req .rel .sent (.home 0x20000 false false) 64
     let s := held [0] { (laneWith fun g => g.updEntry 0 fun e => { e with park := some (.sync 50 0x10004) }) with reqs := [r] }
     leNat (s.mem.homeBytes (s.keyOf 0) 0 0x20000 8) ≠ 1 ∧ (s.syncParty r).isSome = true) := by decide

/-- WaitsFencesAndBarriers: a store to a peer and one to another team's share leave the narrower fences over. -/
theorem witness_fence_scopes :
    (let s := waitingFor [req (.write []) .sent (.peer 9 0x20000) 4] [out .store .stores []]
     s.fenceOpen 1 0 3 = true ∧ s.fenceOpen 1 0 4 = false) ∧
    (let s := waitingFor [req (.write []) .sent (.spad 2 0) 4] [out .store .stores []]
     s.fenceOpen 1 0 0 = true ∧ s.fenceOpen 1 0 1 = false) ∧
    (let s := withRop { gran .sent 0 with tgt := .peer 9 0x20000 }
     s.fenceOpen 1 0 3 = true ∧ s.fenceOpen 1 0 4 = false) ∧ (withRop (gran .sent 0)).fenceOpen 1 0 0 = false := by decide

/-- SlotsServeTheStation: a rewrite of the last word, with and without its return, and one of the whole payload. -/
theorem witness_slot_rewrites :
    (let s := tide (.rwr 0 true) true
     (s.entry ⟨1, 0, 0⟩).park = some (.tide 50) ∧ s.trapImage 1 0 = none ∧
       (s.ring.slots.all fun v => v.ctx == s.ctxOf 1 && v.occ && v.tag == 7 && v.asg) = true ∧
       ((s.core 0).station.all fun o => decide (o.off + 4 ≤ 64) && !(decide (o.regX ≤ o.regA) && decide (o.regA < o.regX + 8))) = true) ∧
    (let s := tide (.rwr 7 false) true
     ((s.core 0).station.all fun o => (o.x.take 16).length == 16) = true) ∧
    (let s := tide (.rwr 8 false) true
     ((s.core 0).station.all fun o => o.x.length == 64 && o.off == 0) = true) := by decide

/-- A record of one element of `n` bytes at 0x20000, and one at the start of the scratchpad. -/
def oneAt (n : Nat) : BitVec 512 := BitVec.ofNat 512 (0x20000 + n * 2 ^ 64 + 2 ^ 72 + 2 ^ 128 + 2 ^ 160 + 2 ^ 192 + 2 ^ 224)
def oneIn (n : Nat) : BitVec 512 := BitVec.ofNat 512 (2 ^ 56 + n * 2 ^ 64 + 2 ^ 72 + 2 ^ 128 + 2 ^ 160 + 2 ^ 192 + 2 ^ 224)
/-- Whether the spans of an access of core 0's first tile operation translate, are held by the slices, and lie apart. -/
def places (s : State) (spans : List (Nat × Nat)) : Bool :=
  match (s.core 0).tileQ with
  | o :: _ => (match s.place (s.tileWho o 0) spans true with
    | .ok u l => u.combs.isEmpty && (u.team? 1).isSome && l.map (fun e => e.2.1) == (piecesOf spans).map (·.2) && l.all (fun e => match e.2.2 with
      | .home d uam _ => !uam && holds u 0 d e.2.1 && !u.spanBad 0 d false e.2.1
      | _ => false)
    | _ => false)
  | [] => false
/-- A state whose slices hold the first `n` lines from 0x20000 of context 0. -/
def heldAll (n : Nat) (s : State) : State :=
  { s with mem := { s.mem with l2 := s.mem.l2 ++ (List.range n).map fun i =>
      ⟨0x20000 / 128 + i, 0, s.keyOf 0, 15, 0, List.replicate 128 0, [], 0, false⟩ } }
/-- TileOperationsComplete: drains of one element, plain and exact, to memory and to the scratchpad. -/
theorem witness_drains :
    places (held [] (tileState (.mdrain 63 true 0 (oneAt 4) 0 []))) [(0x20000, 4)] = true ∧
    places (held [] (tileState (.mdrain 63 true 5 (oneAt 64) 0 []))) [(0x20000, 64)] = true ∧
    ((tensorReg (oneAt 4)).map fun T => (T.spad, drainElems T 0)) = some (false, [(0, 0, 0x20000)]) ∧
    ((tensorReg (oneIn 64)).map fun T => (T.spad, T.elem, drainElems T 0)) = some (true, 64, [(0, 0, 0)]) ∧
    ((tileState .mswp).spadSpan? 1 0 64).isSome = true := by decide

/-- TileOperationsComplete: the spans of `msave` in memory, a tile and a plane; `mrest` reads them. -/
theorem witness_saved_tile :
    places (heldAll 32 (tileState (.msave 0 3 0x20000))) [(0x20000, 4096)] = true ∧
    (let s := heldAll 32 (tileState (.mrest 0 3 0x20000))
     (s.core 0).tileQ.all (fun o => match s.gather (s.tileWho o 0) [(0x20000, 4096)] with
       | .ok u _ => (u.team? 1).isSome
       | _ => false) = true) := by decide
theorem witness_saved_plane :
    places (heldAll 65 (tileState (.msave 1 3 0x20000))) [(0x20000, 8256)] = true := by decide

/-- SummaryAndSumValues: a full list without the key and one with it. -/
theorem witness_heavy_hitters :
    (let h : Hhl := ⟨20, (List.range 20).map fun k => ⟨k, 1, 0⟩⟩
     (h.entries.map (·.key)).Nodup ∧ h.entries.length = 20 ∧ (∀ e ∈ h.entries, e.key < 2 ^ 32 ∧ e.count < 2 ^ 32) ∧
       ∀ e ∈ h.entries, e.key ≠ 99) ∧
    (let h : Hhl := ⟨1, [⟨7, 1, 0⟩]⟩
     (h.entries.map (·.key)).Nodup ∧ h.entries.length < 20 ∧ (∃ e ∈ h.entries, e.key = 7)) := by decide
/-- SummaryAndSumValues: a full level, arguments of the quantile, an item and a NaN. -/
theorem witness_quantile_sketches :
    (let h : Qsk := ⟨0, 63, 1, [List.replicate 63 0x3F800000] ++ List.replicate 7 []⟩
     h.levels.length = 8 ∧ (h.level 0).length = 63 ∧ (h.level 1).length < 16 ∧
       ((List.range 8).all fun l => decide ((h.level l).length < qskCap l)) = true) ∧
    fp32.dec 0x3F000000 = .fin false 0x800000 (-24) ∧ (0x800000 * 2 ^ ((-24 : Int)).toNat ≤ 2 ^ (24 : Int).toNat) ∧
    0x3F000000 % 2 ^ 31 ≤ 0x7F800000 ∧ 0x7F800000 < 0x7FC00000 % 2 ^ 31 := by decide

/-- ExactSumInstructions: the scratchpad forms at the share's last half-line, misaligned, past the address width, out of bounds. -/
theorem witness_scratchpad_sums :
    (let s := pair fun g => g.sput 4 (4 * 65536 - 64)
     ([.xadd Pfx.none 3 4 false true, .xrnd Pfx.none 3 4 true true, .xclr Pfx.none 4 true true].all (issuesB · s)) = true ∧
       (issOf 0 s).mask ≠ 0 ∧ s.spadAt 1 (4 * 65536 - 64) 64 = .at_ 1 (4 * 65536 - 64) ∧ s.spadAt 1 (4 * 65536) 64 = .bad 1) ∧
    (let s := pair fun g => g.sput 4 4
     issuesB (.xadd Pfx.none 3 4 false true) s = true ∧ ((s.my (issOf 0 s)).sget 4).toNat % 64 ≠ 0) ∧
    (let s := pair fun g => g.sput 4 0x100000000
     issuesB (.xadd Pfx.none 3 4 false true) s = true ∧ ((s.my (issOf 0 s)).sget 4).toNat % 64 = 0) := by decide
theorem witness_scratchpad_sum_requests :
    (let r := req (.xadd [0x3F800000]) .sent (.spad 1 64) 64
     let s := waitingFor [r] [out .store .stores [(0, 64)]]
     s.reqs.find? (fun q => q.id == r.id) = some r ∧ (s.team? 1).isSome = true) ∧
    (let r := req (.read []) .sent (.spad 1 64) 64
     let s := waitingFor [r] [out .load (.round 3 false) [(0, 0x20000)]]
     (s.pends.find? (fun p => p.tag == r.tag)).any (fun p => p.act == .round 3 false && p.bad.isEmpty) = true ∧
       (∀ w ∈ s.reqs, w.tag = r.tag → w.id = r.id) ∧ r.also = []) := by decide

/-- EngineInstructionsIssue: a malformed source, a count that does not match, a record past the share. -/
theorem witness_bad_copies :
    let past : BitVec 512 := BitVec.ofNat 512 (4 * 65536 + 2 ^ 56 + 2 ^ 64 + 2 ^ 72 + 4 * 2 ^ 128 + 2 ^ 160 + 2 ^ 192 + 2 ^ 224)
    issuesB (.xcp Pfx.none 1 3) copies = true ∧ tensorReg (sget (copies.grp 1 0).d 3) = none ∧
    ((tensorReg four).any fun D => (tensorReg (oneIn 1)).any fun S => S.count != D.count) = true ∧
    ((tensorReg past).any fun D => D.count == 4 && !copies.spadRecordOk 1 D) = true := by decide

/-- The state of a CONFIRM or a MIGRATE with the line at 0x20000 held, clean or dirty, and the walk's tables moved for MIGRATE. -/
def sweeping (op : Nat) (p : TrPhase) (dirty : BitVec 4) (f : Xlat → Xlat) : State :=
  let s := held [7] (asks op p f)
  let moved := pairsFrom 0x100000 (leBytes 8 (0x120000 + 1)) ++ pairsFrom 0x120000 (leBytes 8 (2 ^ 30 + 7))
  { s with mem := { s.mem with host := ssets s.mem.host moved, l2 := s.mem.l2.map fun (y : L2Line) => { y with dirty := dirty } } }

/-- TranslationRequests: a CONFIRM whose old frame has clean lines only; a MIGRATE with clean and with dirty lines. -/
theorem witness_sweeps :
    (let s := sweeping 2 .acks 0 fun x => { x with drain := true }
     (s.mem.l2.all fun y => y.dirty == 0) = true ∧ s.rangeBusy (trq 2 .acks) = false ∧ s.combs = []) ∧
    (let s := sweeping 3 .confirm 0 id
     (match s.migratePage (trq 3 .confirm) with
      | .inl x => x.frame == 0
      | .inr _ => false) = true ∧ s.rangeBusy (trq 3 .confirm) = false ∧ (s.mem.l2.all fun y => y.dirty == 0) = true ∧ s.mem.ok = true) ∧
    (let s := sweeping 3 .confirm 1 id
     (match s.migratePage (trq 3 .confirm) with
      | .inl _ => true
      | .inr _ => false) = true ∧ (s.mem.l2.any fun y => y.dirty != 0) = true) := by decide

/-- Links 3 and 4 on the route to peer 9, link 4 up. -/
def twoLinks (f : Link → Link) : State :=
  ((linked f).updDev fun d => { d with route := [(9, 24)] }).updLink 4 fun l => { l with state := 2, farPeer := 9, heard := true, enable := true }

/-- LinkEvents: a link that trains beside one that is up while the peer is lost; a failure with a frame to resend; of the last link. -/
theorem witness_link_sessions :
    (let s := (twoLinks fun l => { l with state := 1 }).updDev fun d => { d with lost := [9] }
     (s.link 3).state = 1 ∧ (s.link 4).state = 2 ∧ (s.link 4).farPeer = 9 ∧ 9 ∈ s.dev.lost ∧ (sget s.dev.route 9).getLsbD 3 = true) ∧
    (let s := twoLinks fun l => { l with unacked := [(0, note 1 0 [1])] }
     (s.linksTo 9).filter (· != 3) = [4] ∧ (∀ p, p < 64 → (sget s.dev.route p).getLsbD 3 = true → (s.linksTo p).filter (· != 3) ≠ [])) ∧
    (let s := linked id
     (s.linksTo 9).filter (· != 3) = [] ∧ 9 ∉ s.dev.lost ∧ (s.link 3).farPeer.toNat = 9 ∧ (s.link 3).heard = true) ∧
    (let s := linked fun l => { l with unacked := List.replicate 256 (0, note 1 0 []) }
     256 ≤ (s.link 3).unacked.length) := by decide

/-- PeerMessages: a chunk that a started RECV of 8 bytes awaits. -/
theorem witness_chunk :
    let n : Node := { nodeOf (List.replicate 64 0) 0 with kind := 2, peer := 9, dbuf := 1, len := 8 }
    let x : NodeRun := { d := 0, phase := .started, bytes := 0, open_ := [], fail := none }
    let r := { Running.start { n := 1, launch := 1, team := 1, bytes := [] } with nodes := [x], graph := [n], bases := [0, 0x20000] }
    let m := { note 8 0 [1, 2, 3, 4, 5, 6, 7, 8] with dst := 0 }
    let v := (held [] ((exporting id).updEngine 4 fun e => { e with running := some r })).received 3
    msgBad m 8 = false ∧ msgEngine m = 4 ∧ msgFits m n x 0 = true ∧ n.code = 2 ∧ m.txn.toNat ∉ x.open_ ∧ v.ownBusy (ownerOf 4 2) = false ∧
      (match v.scatter (v.engWho 4 r.cmd 2) (putBytes [] (r.dst n) m.data) with
       | .ok u _ => !u.ownBusy (ownerOf 4 2) && (u.engine? 4).any (fun e => (e.running.any fun q => q.nodes.length == 1))
       | _ => false) = true := by decide

/-- A good record whose lease table has its entry. -/
def tabled (f : State → State) : State :=
  let s := offered goodRec
  f { s with mem := s.mem.write (s.keyOf 0) 0x40000000 (leBytes 8 (8160 * 2 ^ 43) ++ leBytes 8 (2 ^ 30)) }
/-- LaunchesRun: a record whose tables are to be had, and one whose table lies on a line that a CUU has locked. -/
theorem witness_tables :
    (let s := tabled id
     s.tableSpans (s.ctx? 0) (s.hostRead 0x4000 256) = [(0x40000000, 16, false)] ∧
       (s.reachTables 0 0 (s.ctx? 0) (s.hostRead 0x4000 256)).2 = true) ∧
    (let s := tabled fun s => { s with rops := [rop { gran .waiting 0 with tgt := .home 0x40000000 true false }] }.updChan (pchOf 0x40000000)
       fun c => { c with busy := some (50, 0, 0) }
     (s.reachTables 0 0 (s.ctx? 0) (s.hostRead 0x4000 256)).2 = false) := by decide

/-- PlacementAndSaves: a concurrent grid that is placed whole. -/
theorem witness_concurrent :
    let s := staged .running fun l => { l with lr := { l.lr with gx := 2, progress := 3 }, nextK := 0 }
    (s.launch? 1).any (fun l => l.nextCluster.isSome && (s.placing l).isSome && l.lr.progress == 3) = true ∧
      (s.launches.all fun y => y.id == 1) = true := by decide

/-- PlacementAndSaves: a stopped group whose forced saves find their block and index; its image's frames lie apart
(`lane_frames_distinct`). -/
theorem witness_forced_saves :
    let s := overdue fun g => { g with st := .stopped, stopAt := some 5 }
    let found := fun (s : State) => (match s.takeBlock 1 with
      | some (s1, b) => (match s1.takeIndex 1 b with
        | some (s2, i) => decide (0xFF000100000000 ≤ imageBase b i + grpImageAt 0) &&
            decide (imageBase b i + grpImageAt 0 + grpImageSize ≤ 0xFF000140000000) && (s2.grp 1 0).st == .stopped
        | none => false)
      | none => false)
    s.trapImage 1 0 = none ∧ (s.grp 1 0).parkedBy Park.migrates = false ∧ s.unitRest 1 0 = true ∧ found s = true ∧
      (s.discardLoads 1 0).unitRest 1 0 = true := by decide

/-- SelectionFollowsTheRank: an SFU word of a whole mask and one of a half. -/
theorem witness_sfu :
    let a : ReadyFrag := ⟨⟨1, 0, 0⟩, [0, 0, 0, 0, 0], sigOf (.sin Pfx.none 1 2), [0, 1], false⟩
    a.sig.unit = 2 ∧ lane.selection [a] = [(⟨1, 0, 0⟩, 0)] ∧ (lane.core 0).pipes.length = 2 ∧ (lane.core 0).ports.length = 2 ∧
      ((lane.grp 1 0).sigLanes 0 a.sig).setWidth 32 ≠ 0#32 ∧ ((pair id).grp 1 0 |>.sigLanes 0 a.sig).extractLsb' 32 32 = 0#32 := by decide

end Sys2Proof.Tests
end

section
/-!
Control and pilot words of spec/16 (R373, R377, R386): `rcv`, `rgn` and `eqfree`.
-/

namespace Sys2Proof.Machine

/-! ### Branch targets (R324, R370) -/

/-- An offset counts halfwords: shifted left by one place it is twice the signed value. -/
theorem signExtend_shiftLeft_one {n : Nat} (y : BitVec n) : y.signExtend 64 <<< 1 = 2 * BitVec.ofInt 64 y.toInt := by
  rw [BitVec.shiftLeft_eq_mul_twoPow, BitVec.mul_comm]
  rfl

theorem Off.target_short (y : BitVec 17) (at_ : U64) :
    Off.target (.short y) at_ = at_ + 2 * BitVec.ofInt 64 y.toInt :=
  congrArg (at_ + ·) (signExtend_shiftLeft_one y)

theorem Off.target_long (h : BitVec 23) (y : BitVec 17) (at_ : U64) :
    Off.target (.long h y) at_ = at_ + 2 * BitVec.ofInt 64 (h ++ y : BitVec 40).toInt :=
  congrArg (at_ + ·) (signExtend_shiftLeft_one (h ++ y : BitVec 40))

/-! ### Words that update the register context of their party and go on -/

/-- An instruction whose meaning updates the issuing party's register context by `f` and advances changes nothing else. -/
theorem does_of_upd {i : Instr} {k : BitVec 4} {s : State} {x : Iss} (h : Issues i k s x) (f : Grp → Grp)
    (he : exec i s = .next ((s.upd x f).advance x)) : Does i s x f := by
  obtain ⟨t, ht, hu, -⟩ := h.party
  have hup : (s.upd x f).advance x =
      s.updGrp x.p.team x.p.unit fun g => (f g).advanced x.p.entry x.words x.next := State.updGrp_updGrp _ _ _ _ _
  exact ⟨_, he, ⟨_, hup⟩, by rw [hup, State.grp_updGrp _ _ _ _ ht hu]; rfl⟩

theorem exec_rcv_of_issues {p : Pfx} {o : Off} {s : State} {x : Iss} (h : Issues (.rcv p o) 0 s x) :
    exec (.rcv p o) s = .next ((s.upd x fun g => g.updEntry x.p.entry fun e =>
      { e with pend := some (Off.target o x.at_) }).advance x) := by
  rw [exec_rcv, execRcv, issue_of_issues h]
  rfl

/-- Settles O10: the body of `rcv` updates PEND of the issuing entry, and a target is twice the signed offset away. -/
theorem rcvSetsPend : Obligations.RcvSetsPend := by
  intro p o s x h
  have hd := does_of_upd h _ (exec_rcv_of_issues h)
  cases o with
  | short n => rwa [Off.target_short] at hd
  | long m n => rwa [Off.target_long] at hd

/-- Settles O11: the body of `rgn` is a region entry at the address of the issue. -/
theorem rgnEntersARegion : Obligations.RgnEntersARegion := by
  intro s x h
  refine does_of_upd h _ ?_
  rw [exec_rgn, execRgn, issue_of_issues h]
  rfl

/-! ### Free places of a queue -/

/-- FILL of queue `q` as it stood at the start of the clk: without the runs closed in this clk, and with those taken in it (R386). -/
def State.fillAtStart (s : State) (t : Team) (q : Nat) : Nat :=
  (s.takeable t q).length + (t.taken.filter fun e => e.1 == q && e.2 == s.clk).length

theorem exec_eqfree_of_issues {d : BitVec 8} {q : BitVec 2} {s : State} {x : Iss} {t : Team} (h : Issues (.eqfree d q) 0 s x)
    (ht : s.team? x.p.team = some t) :
    exec (.eqfree d q) s =
      .next ((s.upd x fun g => g.sput d.toNat (BitVec.ofNat 64 (8 - s.fillAtStart t q.toNat))).advance x) := by
  rw [exec_eqfree, execEqfree, issue_of_issues h]
  simp only [ht]
  rfl

/-- Settles O35: `eqfree` writes one uniform register and goes on, so `wrote_of_upd'` gives its frame; `State.takeable` holds
the runs that the statement counts as born before this clk. -/
theorem eqfreeWritesFreePlaces : Obligations.EqfreeWritesFreePlaces := by
  intro d q s x t h ht fill
  refine ⟨_, exec_eqfree_of_issues h ht, wrote_of_upd' h _ (Grp.sput_frame _ _ _) (Grp.sput_split _ _ _)
    (fun r l _ _ => Grp.sput_vget _ _ _ r l) (fun r _ => ?_) (fun k _ => by rw [Grp.sput_m])⟩
  rw [Grp.sget_sput]
  rfl

end Sys2Proof.Machine
end

section
/-!
Cross-lane words of spec/16 (R413): `shf.idx` and `bcst`, what they write and which words they are.
-/

namespace Sys2Proof

/-! ### Words that bring an index function: `shf.idx` is func 4 of major 0x1B, `bcst` func 6 (R353, R413) -/

/-- The func of the two index words of R413; none for every other instruction. -/
def Instr.indexFunc? : Instr → Option Nat
  | .shfIdx _ _ _ => some 4
  | .bcst _ _ _ => some 6
  | _ => none

/-- An answer of the decoder for word `w` reads an index word only from its func, with aux 0. -/
def ReadsIndex (w : BitVec 32) (r : Except BadWord Instr) : Prop :=
  ∀ i f, r = .ok i → i.indexFunc? = some f → (fF w).toNat = f ∧ fX w = 0

/-- A word that is taken is the instruction offered, and its reserved fields are 0 (R321). -/
theorem Pk.ok_of_take {k : Pk} {p0 p1 var zero : Bool} {i j : Instr} (h : k.take p0 p1 var zero i = .ok j) :
    j = i ∧ zero = true := by
  unfold Pk.take at h
  split at h
  next => cases h
  split at h
  next => cases h
  next hz =>
    rw [Bool.or_eq_true, not_or, Bool.not_eq_true'] at hz
    split at h
    next => cases h
    split at h
    next => cases h
    exact ⟨(Except.ok.inj h).symm, Bool.of_not_eq_false hz.2⟩

/-- A word whose reserved fields are not 0 is none (R321). -/
theorem Pk.take_nonzero (k : Pk) (p0 p1 var : Bool) (i : Instr) : ∃ e, k.take p0 p1 var false i = .error e := by
  cases h : k.take p0 p1 var false i with
  | error e => exact ⟨e, rfl⟩
  | ok j => exact nomatch (Pk.ok_of_take h).2

theorem readsIndex_error (w : BitVec 32) (e : BadWord) : ReadsIndex w (.error e) := nofun

theorem readsIndex_take_other {w : BitVec 32} {k : Pk} {p0 p1 var zero : Bool} {i : Instr} (h : i.indexFunc? = none) :
    ReadsIndex w (k.take p0 p1 var zero i) := by
  intro j f hj hf
  rw [(Pk.ok_of_take hj).1, h] at hf
  cases hf

theorem readsIndex_take_index {w : BitVec 32} {k : Pk} {p0 p1 var : Bool} {i : Instr} (h : i.indexFunc? = some (fF w).toNat) :
    ReadsIndex w (k.take p0 p1 var (fX w == 0) i) := by
  intro j f hj hf
  obtain ⟨rfl, hz⟩ := Pk.ok_of_take hj
  exact ⟨Option.some.inj (h.symm.trans hf), by simpa using hz⟩

/-- Only major 0x1B holds index words: every other arm of the decoder's table offers another instruction, or none. -/
theorem readsIndex_decode32 (k : Pk) (w : BitVec 32) : ReadsIndex w (decode32 k w) := by
  unfold decode32
  split
  case h_28 =>
    split
    case h_5 hf => exact readsIndex_take_index (by rw [hf]; rfl)
    case h_7 hf => exact readsIndex_take_index (by rw [hf]; rfl)
    any_goals exact readsIndex_error _ _
    all_goals exact readsIndex_take_other rfl
  all_goals repeat' split
  any_goals exact readsIndex_error _ _
  all_goals exact readsIndex_take_other rfl

/-- A 16-bit word is no index word. -/
theorem indexFunc?_of_decode16 {k : Pk} {h : BitVec 16} {i : Instr} (hd : decode16 k h = .ok i) : i.indexFunc? = none := by
  unfold decode16 at hd
  split at hd
  all_goals rw [(Pk.ok_of_take hd).1]; rfl

/-- `rend` with its trailer words is no index word. -/
theorem indexFunc?_of_decodeRend {w : BitVec 32} {len n : Nat} {t : List (BitVec 16)} {i : Instr}
    (hd : decodeRend w len t = .ok i n) : i.indexFunc? = none := by
  unfold decodeRend at hd
  dsimp only at hd
  repeat' split at hd
  all_goals cases hd
  all_goals rfl

/-- A word of major 0x1B with func 4 or 6 is no instruction unless its aux is 0 (R321, R413). -/
theorem decode32_index_aux {k : Pk} {w : BitVec 32} (hm : (fMajor w).toNat = 0x1B)
    (hf : (fF w).toNat = 4 ∨ (fF w).toNat = 6) (hx : fX w ≠ 0) : ∃ e, decode32 k w = .error e := by
  have hz : (fX w == 0) = false := by simpa using hx
  obtain hf | hf := hf
  all_goals
    simp only [decode32, hm, hf, hz]
    exact Pk.take_nonzero ..

/-! ### Streams of halfwords -/

theorem Decoded.of_eq_ok {len n : Nat} {r : Except BadWord Instr} {i : Instr} (h : Decoded.of len r = .ok i n) : r = .ok i := by
  cases r with
  | error e => cases h
  | ok j => cases h; rfl

/-- A word of major 0x1B is read by the table of the 32-bit words. -/
theorem decodeFrom_cross {k : Pk} {len : Nat} {h h2 : BitVec 16} {t : List (BitVec 16)} (h0 : h.getLsbD 0 = true)
    (hm : fMajor (h2 ++ h) = 0x1B) : decodeFrom k len (h :: h2 :: t) = Decoded.of (len + 2) (decode32 k (h2 ++ h)) := by
  simp [decodeFrom, h0, hm]

/-- A PK word is refused, or the stream behind it is read under what the PK words so far give (R326). -/
theorem decodeFrom_pk {k : Pk} {len : Nat} {h h2 : BitVec 16} {t : List (BitVec 16)} (h0 : h.getLsbD 0 = true)
    (hm : fMajor (h2 ++ h) = 0x3E) :
    (∃ e, decodeFrom k len (h :: h2 :: t) = .bad e) ∨
      ∃ k', decodeFrom k len (h :: h2 :: t) = decodeFrom k' (len + 2) t := by
  cases ha : k.add (h2 ++ h) with
  | error e => exact .inl ⟨e, by simp [decodeFrom, h0, hm, ha]⟩
  | ok k' => exact .inr ⟨k', by simp [decodeFrom, h0, hm, ha]⟩

/-- A stream that gives an index word begins with it, or gives it from behind its first word. -/
theorem decodeFrom_index {k : Pk} {len n f : Nat} {h h2 : BitVec 16} {t : List (BitVec 16)} {i : Instr}
    (hd : decodeFrom k len (h :: h2 :: t) = .ok i n) (hf : i.indexFunc? = some f) :
    ((fF (h2 ++ h)).toNat = f ∧ fX (h2 ++ h) = 0) ∨ ∃ k' len', decodeFrom k' len' t = .ok i n := by
  unfold decodeFrom at hd
  split at hd
  · dsimp only at hd
    split at hd
    · split at hd
      · exact .inr ⟨_, _, hd⟩
      · cases hd
    · split at hd
      · split at hd
        · cases hd
        · rw [indexFunc?_of_decodeRend hd] at hf
          cases hf
      · exact .inl (readsIndex_decode32 _ _ _ _ (Decoded.of_eq_ok hd) hf)
  · rw [indexFunc?_of_decode16 (Decoded.of_eq_ok hd)] at hf
    cases hf

/-- Bytes that are 0 bring no index word: they are words of 16 bits. -/
theorem indexFunc?_of_decodeFrom_zero {k : Pk} {len n : Nat} {t : List (BitVec 16)} {i : Instr}
    (hd : decodeFrom k len (0 :: 0 :: t) = .ok i n) : i.indexFunc? = none :=
  indexFunc?_of_decode16 (Decoded.of_eq_ok hd)

/-! ### Table words as halfwords -/

/-- The low `n` halfwords of a number, least significant first (R5, R317). -/
def halvesOfNat : Nat → Nat → List (BitVec 16)
  | 0, _ => []
  | n + 1, w => BitVec.ofNat 16 w :: halvesOfNat n (w / 2 ^ 16)

theorem ofNat_div_append_ofNat (m n w : Nat) : BitVec.ofNat m (w / 2 ^ n) ++ BitVec.ofNat n w = BitVec.ofNat (m + n) w := by
  refine BitVec.eq_of_getLsbD_eq fun i hi => ?_
  simp only [BitVec.getLsbD_append, BitVec.getLsbD_ofNat, Nat.testBit_div_two_pow, hi]
  by_cases h : i < n
  · simp [h]
  · simp [h, show i - n < m by omega, Nat.sub_add_cancel (Nat.le_of_not_lt h)]

theorem halvesOf_bytesOfNat (n w : Nat) : halvesOf (bytesOfNat (2 * n) w) = halvesOfNat n w := by
  induction n generalizing w with
  | zero => rfl
  | succ n ih =>
    rw [Nat.mul_succ, bytesOfNat, bytesOfNat, halvesOf, ih, halvesOfNat, Nat.div_div_eq_div_mul]
    exact congrArg (· :: _) (ofNat_div_append_ofNat 8 8 w)

/-- The halfwords of a number, its first 32-bit word apart. -/
theorem halvesOfNat_add_two (n v : Nat) :
    halvesOfNat (n + 2) v = BitVec.ofNat 16 v :: BitVec.ofNat 16 (v / 2 ^ 16) :: halvesOfNat n (v / 2 ^ 32) := by
  rw [halvesOfNat, halvesOfNat, Nat.div_div_eq_div_mul, ← Nat.pow_add]

theorem word_of_halves (v : Nat) : (BitVec.ofNat 16 (v / 2 ^ 16) ++ BitVec.ofNat 16 v : BitVec 32) = BitVec.ofNat 32 v :=
  ofNat_div_append_ofNat 16 16 v

theorem decode_bytesOfNat (n v : Nat) : decode (bytesOfNat (2 * n) v) = decodeFrom Pk.none 0 (halvesOfNat n v) := by
  rw [decode, decodeHalves, halvesOf_bytesOfNat]

theorem decodeFrom_of_decodeTableWord {nbits w : Nat} {i : Instr} (h : decodeTableWord nbits w = some i) :
    ∃ n, decodeFrom Pk.none 0 (halvesOfNat 6 (w % 2 ^ nbits)) = .ok i n := by
  rw [decodeTableWord, decode_bytesOfNat 6] at h
  split at h
  next j n hd =>
    cases h
    exact ⟨n, hd⟩
  next => cases h

theorem decodeTableWord_of_bad {nbits w : Nat} {e : BadWord}
    (h : decodeFrom Pk.none 0 (halvesOfNat 6 (w % 2 ^ nbits)) = .bad e) : decodeTableWord nbits w = none := by
  rw [decodeTableWord, decode_bytesOfNat 6, h]

/-! ### Fields of a word given as a number (R320) -/

theorem toNat_fMajor_ofNat (v : Nat) : (fMajor (BitVec.ofNat 32 v)).toNat = v / 2 % 64 := by
  simp only [fMajor, BitVec.extractLsb'_toNat, BitVec.toNat_ofNat, Nat.shiftRight_eq_div_pow]
  omega

theorem toNat_fF_ofNat (v : Nat) : (fF (BitVec.ofNat 32 v)).toNat = v / 2 ^ 23 % 32 := by
  simp only [fF, BitVec.extractLsb'_toNat, BitVec.toNat_ofNat, Nat.shiftRight_eq_div_pow]
  omega

theorem toNat_fX_ofNat (v : Nat) : (fX (BitVec.ofNat 32 v)).toNat = v / 2 ^ 28 % 16 := by
  simp only [fX, BitVec.extractLsb'_toNat, BitVec.toNat_ofNat, Nat.shiftRight_eq_div_pow]
  omega

/-- Bit 0 of a word selects its length (R317). -/
theorem getLsbD_zero_ofNat {v : Nat} (h : v % 2 = 1) : (BitVec.ofNat 16 v).getLsbD 0 = true := by
  simp [BitVec.getLsbD_ofNat, h]

/-! ### What the decoder answers for a table word -/

/-- A table word of 32 bits is an index word only with its func and with aux 0. -/
theorem fields_of_decodeTableWord_index {w f : Nat} {i : Instr} (hw : w < 2 ^ 32) (hd : decodeTableWord 32 w = some i)
    (hf : i.indexFunc? = some f) : w / 2 ^ 23 % 32 = f ∧ w / 2 ^ 28 = 0 := by
  obtain ⟨n, hn⟩ := decodeFrom_of_decodeTableWord hd
  rw [Nat.mod_eq_of_lt hw, halvesOfNat_add_two, Nat.div_eq_of_lt hw] at hn
  obtain ⟨hF, hX⟩ | ⟨k, len, hz⟩ := decodeFrom_index hn hf
  · rw [word_of_halves] at hF hX
    have haux : 0 = w / 2 ^ 28 % 16 := by rw [← toNat_fX_ofNat, hX]; rfl
    exact ⟨(toNat_fF_ofNat w).symm.trans hF, by omega⟩
  · rw [indexFunc?_of_decodeFrom_zero hz] at hf
    cases hf

/-- A word of major 0x1B with func 4 or 6 and another aux than 0, whatever PK words stand before it. -/
theorem decodeFrom_index_aux (k : Pk) (len n : Nat) {v : Nat} (h0 : v % 2 = 1) (hm : v / 2 % 64 = 0x1B)
    (hf : v / 2 ^ 23 % 32 = 4 ∨ v / 2 ^ 23 % 32 = 6) (hx : v / 2 ^ 28 % 16 ≠ 0) :
    ∃ e, decodeFrom k len (halvesOfNat (n + 2) v) = .bad e := by
  rw [← toNat_fMajor_ofNat] at hm
  rw [← toNat_fF_ofNat] at hf
  have hX : fX (BitVec.ofNat 32 v) ≠ 0 := fun h => hx (by rw [← toNat_fX_ofNat, h]; rfl)
  obtain ⟨e, he⟩ := decode32_index_aux (k := k) hm hf hX
  have hM := word_of_halves v ▸ BitVec.eq_of_toNat_eq (y := 0x1B) hm
  exact ⟨e, by rw [halvesOfNat_add_two, decodeFrom_cross (getLsbD_zero_ofNat h0) hM, word_of_halves, he]; rfl⟩

/-- A number whose first word is a PK word (R326). -/
theorem decodeFrom_halvesOfNat_pk (k : Pk) (len n : Nat) {v : Nat} (h0 : v % 2 = 1) (hm : v / 2 % 64 = 0x3E) :
    (∃ e, decodeFrom k len (halvesOfNat (n + 2) v) = .bad e) ∨
      ∃ k', decodeFrom k len (halvesOfNat (n + 2) v) = decodeFrom k' (len + 2) (halvesOfNat n (v / 2 ^ 32)) := by
  rw [← toNat_fMajor_ofNat, ← word_of_halves] at hm
  rw [halvesOfNat_add_two]
  exact decodeFrom_pk (getLsbD_zero_ofNat h0) (BitVec.eq_of_toNat_eq hm)

end Sys2Proof

namespace Sys2Proof.Machine

/-- The lowest active lane is the first of the 64 whose bit is set. -/
theorem lowLane_eq_find (m : LaneMask) : lowLane m = ((List.range 64).find? fun j => m.getLsbD j).getD 0 := by
  rw [lowLane, lanesOf, List.headD_eq_head?_getD, List.head?_filter]
  rfl

theorem laneGives_shfIdx (p : Pfx) (d a : BitVec 8) :
    LaneGives (.shfIdx p d a) p.mask d.toNat fun g _ l => g.vget a.toNat ((g.vget d.toNat l).toNat % 64) :=
  laneGives_of_laneOp (by simp [sigOf_shfIdx]) fun s => by rw [exec_shfIdx, execShfIdx]

theorem laneGives_bcst (p : Pfx) (d a : BitVec 8) :
    LaneGives (.bcst p d a) p.mask d.toNat fun g m _ =>
      g.vget a.toNat (((List.range 64).find? fun j => m.getLsbD j).getD 0) := by
  simp only [← lowLane_eq_find]
  exact laneGives_of_issue (by simp [sigOf_bcst]) fun s => by rw [exec_bcst, execBcst]

/-- Settles O7: lanes by the rules of `laneOp` and `issue`, words by the decoder's one table of major 0x1B. A PK word hands
the stream behind it to the same table. -/
theorem indexedShuffleAndBroadcast : Obligations.IndexedShuffleAndBroadcast := by
  refine ⟨fun p d a => ⟨laneGives_shfIdx p d a, laneGives_bcst p d a⟩,
    fun w p d a hw => ⟨fun h => fields_of_decodeTableWord_index hw h rfl, fun h => fields_of_decodeTableWord_index hw h rfl⟩,
    fun w hw h0 hm hf hx => ⟨?_, fun q hq hq0 hqm => ?_⟩⟩
  · obtain ⟨e, he⟩ := decodeFrom_index_aux Pk.none 0 4 h0 hm hf (by omega)
    exact decodeTableWord_of_bad (by rwa [Nat.mod_eq_of_lt hw])
  · have hlt : q + 2 ^ 32 * w < 2 ^ 64 := by omega
    have hrest : (q + 2 ^ 32 * w) / 2 ^ 32 = w := by omega
    obtain ⟨e, he⟩ | ⟨k, hk⟩ :=
        decodeFrom_halvesOfNat_pk Pk.none 0 4 (v := q + 2 ^ 32 * w) (by omega) (by omega)
    · exact decodeTableWord_of_bad (by rwa [Nat.mod_eq_of_lt hlt])
    · obtain ⟨e, he⟩ := decodeFrom_index_aux k 2 2 h0 hm hf (by omega)
      exact decodeTableWord_of_bad (by rw [Nat.mod_eq_of_lt hlt, hk, hrest, he])

end Sys2Proof.Machine
end
